-- ==== Sys2Proof/Word.lean ====
section
/-! DEFINITION. The identifiers of Table 0-5 and the word types of the GX-9600 model. -/
namespace Sys2Proof

/-- One byte. -/
abbrev Byte := BitVec 8
/-- Compute die, 0 to 3 (Table 0-5). -/
abbrev Die := Fin 4
/-- Cluster in a die, 0 to 25 (Table 0-5). -/
abbrev Cluster := Fin 26
/-- Core in a cluster, 0 to 8 (Table 0-5). -/
abbrev CoreNo := Fin 9
/-- Lane in a core, 0 to 65 (Table 0-5). -/
abbrev Lane := Fin 66
/-- Cartridge slot, 0 to 8 (Table 0-5). -/
abbrev Slot := Fin 9
/-- Module number, 0 to 4,095 (Table 0-5). -/
abbrev ModuleNo := Fin 4096
/-- Account, 0 to 65,535 (Table 0-5). -/
abbrev Account := Fin 65536
/-- Catalogue, 0 to 255 (Table 0-5). -/
abbrev CatNo := Fin 256
/-- Limuc link, 0 to 7. -/
abbrev LinkNo := Fin 8
/-- Sequence-table group, 0 to 7. -/
abbrev GroupNo := Fin 8
/-- PCIe port, 0 or 1. -/
abbrev Port := Fin 2
/-- One 4 KiB sector of user data. -/
abbrev Sector := BitVec 32768
/-- One 64-byte access of the Limuc protocol. -/
abbrev Line := BitVec 512

/-- Bits `[lo + w - 1 : lo]` of a number. -/
def bits (n lo w : Nat) : Nat := n / 2 ^ lo % 2 ^ w

/-- Bit `i` of a number. -/
def bit (n i : Nat) : Bool := n / 2 ^ i % 2 == 1

/-- 1 for true, 0 for false. -/
def b2n (b : Bool) : Nat := if b then 1 else 0

/-- The little-endian number of a list of bytes (R5). -/
def leNat : List Byte → Nat
  | [] => 0
  | b :: t => b.toNat + 256 * leNat t

/-- `n` little-endian bytes of a number (R5). -/
def leBytes : Nat → Nat → List Byte
  | 0, _ => []
  | n + 1, v => BitVec.ofNat 8 v :: leBytes n (v / 256)

/-- Ceiling of `a / b`. -/
def ceilDiv (a b : Nat) : Nat := (a + b - 1) / b

end Sys2Proof
end

