-- ==== Sys2Proof/Payload.lean ====
section
/-! DEFINITION. What commands carry besides plain numbers: statuses, unit addresses, identities, passes,
messages, host commands, measurements. -/
namespace Sys2Proof

/-- Completion statuses: the vendor statuses of Table 12-13, the standard statuses of Table 12-14, and the standard
statuses that the NVMe specifications assign to cases this manual names without a status of its own (R611). -/
inductive Status where
  | success
  | computeHardwareFault | computeResourceFault | computeProgramFault | computeDegraded | deviceMemoryLost
  | pageNotMapped | memoryQuotaExceeded | spanPeerUnreachable | couplingHoldTimeout | catalogueNotAttached
  | planInvalid | securityStateRefused
  | commandInterrupted | namespaceWriteProtected | unrecoveredReadError | commandAbortRequested
  | invalidField | commandSequenceError | namespaceInsufficientCapacity | namespaceIdentifierUnavailable
  | abortLimitExceeded | sanitizeInProgress | mediaNotReady | lbaOutOfRange | accessInaccessible
  | invalidNamespace | zoneBoundaryError | zoneFull | zoneReadOnly | zoneInvalidWrite | zoneInvalidTransition
  | commandSizeLimit | invalidResources | invalidController
  deriving DecidableEq, Repr

/-- The status code type and status code of a status (Tables 12-13 and 12-14). -/
def Status.code : Status → Nat × Nat
  | .success => (0, 0)
  | .computeHardwareFault => (7, 0x00) | .computeResourceFault => (7, 0x01) | .computeProgramFault => (7, 0x02)
  | .computeDegraded => (7, 0x03) | .deviceMemoryLost => (7, 0x04) | .pageNotMapped => (7, 0x05)
  | .memoryQuotaExceeded => (7, 0x06) | .spanPeerUnreachable => (7, 0x07) | .couplingHoldTimeout => (7, 0x08)
  | .catalogueNotAttached => (7, 0x09) | .planInvalid => (7, 0x0A) | .securityStateRefused => (7, 0x0B)
  | .commandInterrupted => (0, 0x21) | .namespaceWriteProtected => (0, 0x20) | .unrecoveredReadError => (2, 0x81)
  | .commandAbortRequested => (0, 0x07) | .invalidField => (0, 0x02) | .commandSequenceError => (0, 0x0C)
  | .namespaceInsufficientCapacity => (1, 0x15) | .namespaceIdentifierUnavailable => (1, 0x16)
  | .abortLimitExceeded => (1, 0x03) | .sanitizeInProgress => (0, 0x1D) | .mediaNotReady => (0, 0x24)
  | .lbaOutOfRange => (0, 0x80) | .accessInaccessible => (3, 0x02)
  | .invalidNamespace => (0, 0x0B) | .zoneBoundaryError => (1, 0xB8) | .zoneFull => (1, 0xB9)
  | .zoneReadOnly => (1, 0xBA) | .zoneInvalidWrite => (1, 0xBC) | .zoneInvalidTransition => (1, 0xBF)
  | .commandSizeLimit => (1, 0x83) | .invalidResources => (1, 0x21) | .invalidController => (1, 0x1F)

/-- Do Not Retry, as Tables 12-13 and 12-14 set it; any other standard status carries 1 (R611). -/
def Status.dnr : Status → Bool
  | .success => false
  | .computeHardwareFault | .computeDegraded | .memoryQuotaExceeded | .spanPeerUnreachable
  | .couplingHoldTimeout => false
  | .commandInterrupted | .commandAbortRequested | .abortLimitExceeded | .sanitizeInProgress | .mediaNotReady
  | .accessInaccessible => false
  | _ => true

/-- The six levels of Table 1-8, numbered as SVC_HIER_FAULT.LEVEL (Table 1-9). -/
inductive Level where
  | engine | core | cluster | die | package | span
  deriving DecidableEq, Repr

def Level.code : Level → Nat
  | .engine => 0 | .core => 1 | .cluster => 2 | .die => 3 | .package => 4 | .span => 5

/-- A physical unit: the fields below its level are 0 (Table 1-9). -/
structure UnitAddr where
  level : Level
  die : Nat
  cluster : Nat
  core : Nat
  lane : Nat
  deriving DecidableEq, Repr

/-- What the bay identity memory holds (R677): the sled's serial and bay, and whether its CRC was good. -/
structure BayId where
  serial : Nat
  bay : Nat
  twinBay : Nat
  hint : Nat
  valid : Bool
  deriving DecidableEq, Repr

/-- One pass as the tensor sequencer issues it (R174, Table 4-7): K counts elements, or bytes in predicate mode and for the metrics Hamming
and table lookup. -/
structure Pass where
  mode : Fin 4
  rows : Nat
  k : Nat
  lanes : Nat
  firstK : Bool
  lastK : Bool
  wide : Bool
  bank : Fin 2
  newWeights : Bool
  /-- Format codes of the shared and of the stationary operand. -/
  fmtA : Nat
  fmtB : Nat
  /-- The metric of distance mode (Table 5-4). -/
  metric : Fin 4
  /-- Where its beats lie in the shared-operand staging partition, 32 bytes each, and their scale bytes, two each; in compare-exchange mode
  `data` is the block's place in the selection partition. -/
  data : Nat
  scales : Nat
  deriving DecidableEq, Repr

/-- The partition that the weight port reads a slot from (R226). -/
inductive WeightSource where
  | staging | tables | selection
  deriving DecidableEq, Repr

/-- Bytes that a transfer has just put into a partition, from an offset in it (R227). -/
structure Arrival where
  offset : Nat
  bytes : List Byte
  deriving DecidableEq, Repr

/-- What a glue segment does (R222): writes to its core's plates, the cluster store or HBM, and its engine's registers. -/
inductive GlueEffect where
  | plates (core offset : Nat) (bytes : List Byte)
  | store (offset : Nat) (bytes : List Byte)
  | memory (addr : Nat) (bytes : List Byte)
  | scalar (core reg v : Nat)
  | vector (core reg v : Nat)
  deriving DecidableEq, Repr

/-- The freeze causes that hold in a cycle, ramp-up apart (R195). -/
structure FreezeCauses where
  feeder : Bool
  weight : Bool
  drain : Bool
  deriving DecidableEq, Repr

/-- The core storages that carry SEC-DED (R213). -/
inductive CoreStorage where
  | plates | weight | accumulator
  deriving DecidableEq, Repr

/-- Why a control engine's segment ended (Table 4-18). -/
inductive CeFault where
  | illegal | outside | bound
  deriving DecidableEq, Repr

/-- An SRAM outside the cores with an uncorrectable byte (Table 10-8), and the pages of dirty dome-cache lines, as (account,
page). -/
inductive SramFault where
  | clusterStore (d c : Nat)
  | domeData (dirty : Option (Nat × Nat))
  | domeTag (d : Nat) (dirty : List (Nat × Nat))
  | hubBuffer (bothCopies : Bool)
  | serviceSram
  deriving DecidableEq, Repr

/-- One codeword as a read recovered it (Table 10-7): die group, row, codeword 0 to 15 of the page row, step, bits corrected. -/
structure CwRead where
  group : Nat
  row : Nat
  cw : Nat
  step : Nat
  nbits : Nat
  deriving DecidableEq, Repr

/-- One HBM codeword with bits in error: stack, 4 KiB unit, bits corrected; `bad` when uncorrectable (R492, R494). -/
structure HbmHit where
  stack : Nat
  unit : Nat
  nbits : Nat
  bad : Bool
  deriving DecidableEq, Repr

/-! ### Limuc messages (R621, Table 13-5) and host commands -/

/-- A Limuc message: header fields, data bytes, and the stream bytes of the data flits that follow it. -/
structure LMsg where
  type : Nat
  tc : Nat
  hops : Nat
  dst : Nat
  src : Nat
  tag : Nat
  addr : Nat
  status : Nat
  data : List Byte
  stream : List Byte
  deriving DecidableEq, Repr

/-- What INIT carries (R615). -/
structure InitMsg where
  module : Nat
  link : Nat
  serial : Nat
  role : Nat
  twin : Bool
  deriving DecidableEq, Repr

/-- A flit as received (Table 13-3): its link header fields, whether its CRC was good, the whole messages of its body. -/
structure Flit where
  vc : Fin 4
  data : Bool
  idle : Bool
  seq : Nat
  ack : Nat
  nak : Bool
  crcOk : Bool
  /-- Blocks that the FEC corrected (SPN_LINK.FEC_CORRECTED). -/
  fec : Nat
  msgs : List LMsg
  deriving DecidableEq, Repr

/-- One range of a memory range set (R588): a memory namespace, byte range, and whether it may be written. -/
structure MemRange where
  nsid : Nat
  start : Nat
  len : Nat
  writable : Bool
  deriving DecidableEq, Repr

/-- A source range of a copy: namespace, first block or byte, blocks or bytes. -/
structure SrcRange where
  nsid : Nat
  start : Nat
  len : Nat
  deriving DecidableEq, Repr

/-- The plan image as Load Program brings it: its bytes, and the macro-operations its body gives each logical cluster. The body's
layout is not in this manual (assumption log entry 12). -/
structure PlanImage where
  bytes : List Byte
  work : List (Nat × List (BitVec 1024))
  deriving DecidableEq, Repr

/-- A change to NVM or zoned namespace content or configuration, inside one logical unit where it names one: what twins mirror
(R647, Table 13-6). -/
inductive NvOp where
  | write (unit first : Nat) (data : List Sector)
  | dealloc (unit first count : Nat)
  | secure (unit first count : Nat)
  | zoneOpen (unit : Nat)
  | zoneFinish (unit : Nat)
  | zoneReset (unit : Nat)
  | nsCreate (nsid : Nat) (zoned : Bool) (units cls : Nat)
  | nsDelete (nsid : Nat)
  | format (nsid ses : Nat)
  | sanitize (block : Bool)
  deriving DecidableEq, Repr

/-- A host command that may take range locks or wait for them (R579 to R582), or that twins mirror (R647). -/
inductive HostOp where
  | read (nsid lba n : Nat)
  | write (nsid lba : Nat) (data : List Sector)
  | zeroes (nsid lba n : Nat)
  | deallocate (nsid : Nat) (ranges : List (Nat × Nat))
  | secure (nsid : Nat) (ranges : List (Nat × Nat))
  | copy (nsid dst : Nat) (ranges : List SrcRange)
  | zoneAppend (nsid zslba : Nat) (data : List Sector)
  | zoneOpen (nsid zslba : Nat)
  | zoneFinish (nsid zslba : Nat)
  | zoneReset (nsid zslba : Nat)
  | memRead (nsid start len : Nat)
  | memWrite (nsid start : Nat) (data : List Byte)
  | memCopy (nsid dst : Nat) (ranges : List SrcRange)
  | execute (program set : Nat) (params : List Byte)
  | create (zoned : Bool) (blocks cls : Nat)
  | delete (nsid : Nat)
  | format (nsid ses : Nat)
  | sanitize (block : Bool)
  /-- A change that the twin forwarded to this module as the unit's home (R647), and the message that brought it. -/
  | forwarded (op : NvOp) (m : LMsg)
  deriving DecidableEq, Repr

/-- A host command: its identifier (submission queue * 2^16 + command identifier), controller, what it does. -/
structure HostCmd where
  cid : Nat
  ctl : Nat
  op : HostOp
  deriving DecidableEq, Repr

/-- What Namespace Management creates (R574, R575, R592): an NVM or zoned namespace of so many blocks and a class, or a memory namespace over a
range of an account. -/
inductive NsSpec where
  | nvm (blocks cls : Nat)
  | zoned (blocks cls : Nat)
  | memory (acct base size : Nat)
  deriving DecidableEq, Repr

/-- The admin commands the management endpoint tunnels (R606). -/
inductive Tunnel where
  | identifyController
  | identifyNamespace (nsid : Nat)
  | getLogPage (page : Nat) (retain : Bool)
  | getFeatures (id : Nat)
  | securitySend (specific : Nat) (block : List Byte)
  | securityReceive (specific : Nat)
  deriving DecidableEq, Repr

end Sys2Proof

namespace Sys2Proof.Machine

/-- The payload of a transit message (Table 2-2). -/
structure TransitMsg where
  epoch : Nat
  srcModule : Nat
  hops : Nat
  state : Nat
  pathDelay : Nat
  period : Nat
  nextPeriod : Nat
  nextEpoch : Nat
  deriving DecidableEq, Repr

/-- An identity memory: the module's, a cartridge's, the sled's bay identity memory. -/
inductive IdMem where
  | module
  | cartridge (slot : Slot)
  | bay
  deriving DecidableEq, Repr

/-- What an identity memory of a cartridge holds (Tables 14-6, 14-7), as far as the module acts on it. -/
structure CartId where
  serial : Nat
  /-- PART is "GX-FC32" and the CRCs are good (R696). -/
  good : Bool
  /-- Factory bad die-blocks, as (die 0 to 127, block) pairs. -/
  badBlocks : List (Nat × Nat)
  seq : Nat
  totalErases : Nat
  failedBlocks : Nat
  retiredStripes : Nat
  powerOnHours : Nat
  lastSlot : Nat
  lastRole : Nat
  lastModule : Nat
  /-- Die characterisation: the 32 KiB of threshold offsets for step 2 of Table 10-7, the bytes that are not 0, by offset. -/
  offsets : List (Nat × Nat)
  /-- The 64 lifetime counter slots, as 64-byte numbers, those that are not 0 (R676). -/
  counters : List (Nat × Nat)
  deriving DecidableEq, Repr

/-- What POWER_ON_SELF_TEST finds (R664). -/
inductive PostFault where
  | lane (d c k l : Nat)
  | hbm (d : Nat)
  | limuc (link lane : Nat)
  deriving DecidableEq, Repr

/-- What the module measures (R689): hottest package sensor by its number and value, coolant inlet, flow in mL/min, input voltage in 10 mV units,
10 ms mean input power. -/
structure Climate where
  sensor : Nat
  hottest : Nat
  inlet : Nat
  flow : Nat
  volts : Nat
  watts : Nat
  deriving DecidableEq, Repr

/-- A 4 KiB HBM unit: stack 0 to 7 (2 die + stack of the die), unit number (R493). -/
structure HbmUnit where
  stack : Nat
  unit : Nat
  deriving DecidableEq, Repr

/-- Who reads flash: the host, the Coudé path, another foreground reader (a re-rank, a map restore, the journal), or the background ("Reads
and busy dies"). -/
inductive Origin where
  | host | coude | foreground | background
  deriving DecidableEq, Repr

end Sys2Proof.Machine
end

