-- ==== Sys2Proof/Syntax.lean ====
section
/-! DEFINITION. The commands of the module: one constructor per row of the spec's opcode table, with the row's operands.
Identifiers have the ranges of Table 0-5; a command carries what the outside decides (a time, a measurement, data a DMA brings). -/
namespace Sys2Proof

/-- A command: what reaches the module from its hosts, its pins, its links, its media and its timers. -/
inductive Instr where
  /-- REGISTER_WRITE (R6). -/
  | registerWrite (addr : Nat) (wide : Bool) (value : Nat)
  /-- READ_CLEAR_REGISTER_READ (R6). -/
  | readClearRegisterRead (addr : Nat) (wide : Bool)
  /-- BAR2_BAD_ACCESS (R11). -/
  | bar2BadAccess (bytes : Nat) (write : Bool)
  /-- POWER_UP (R660). -/
  | powerUp (absentMs : Nat) (energy : Nat) (bay : BayId) (present : Nat) (refclk : Bool)
  /-- MODULE_INSERT (R22). -/
  | moduleInsert
  /-- HOLDUP_CHARGED (R23). -/
  | holdupCharged (ms : Nat)
  /-- HOLDUP_MEASURE (R21). -/
  | holdupMeasure (energy : Nat) (wh : Nat)
  /-- INPUT_OUT_OF_RANGE (R19). -/
  | inputOutOfRange (used : Nat)
  /-- PERST_ASSERT (R27). -/
  | perstAssert
  /-- PORT_HOT_RESET (R564). -/
  | portHotReset (port : Port)
  /-- FUNCTION_LEVEL_RESET (R564). -/
  | functionLevelReset (ctl : Nat)
  /-- CONFIG_REQUEST (R563). -/
  | configRequest (fn : Nat)
  /-- D3HOT_ENTRY (R562). -/
  | d3hotEntry (fn : Nat)
  /-- SHUTDOWN_NOTIFICATION (R101). -/
  | shutdownNotification (ctl : Nat)
  /-- CONTROLLER_ENABLE (R662). -/
  | controllerEnable (ctl : Nat)
  /-- LANE_DATAPATH_FAULT (R211). -/
  | laneDatapathFault (d : Die) (c : Cluster) (k : CoreNo) (lane : Lane) (kind : Nat)
  /-- LANE_BYPASS (R210). -/
  | laneBypass (d : Die) (c : Cluster) (k : CoreNo)
  /-- CORE_CLUSTER_FAULT (R41). -/
  | coreClusterFault (d : Die) (c : Cluster) (core : Option CoreNo) (kind : Nat)
  /-- DIE_FAULT (R43). -/
  | dieFault (d : Die) (kind : Nat)
  /-- PACKAGE_FAULT (R45). -/
  | packageFault (kind : Nat)
  /-- SERVICE_PROCESSOR_TAKEOVER (R45). -/
  | serviceProcessorTakeover
  /-- IN_PACKAGE_LINK_FAILURE (R39). -/
  | inPackageLinkFailure (n : Nat)
  /-- REGULATOR_PHASE_FAULT (R40). -/
  | regulatorPhaseFault (rail : Nat) (feeds : Option Die)
  /-- HBM_STACK_FAILURE (R38). -/
  | hbmStackFailure (stack : Fin 8)
  /-- PARTIAL_LOAD (R155). -/
  | partialLoad (ld : Die) (lc : Fin 25)
  /-- PARTIAL_LOAD_DONE (R157). -/
  | partialLoadDone (ld : Die) (lc : Fin 25) (bad0 : Bool) (bad1 : Bool)
  /-- DOMAIN_REQ (R687). -/
  | domainReq (domain : Nat) (on : Bool)
  /-- DOMAIN_SWITCH_DONE (R718). -/
  | domainSwitchDone (domain : Nat)
  /-- SLOT_POWER (R694). -/
  | slotPower (slot : Nat) (on : Bool)
  /-- ATTN_PRESS_RELEASE (R668). -/
  | attnPressRelease (ms : Nat)
  /-- ATTN_HOLD_5S (R669). -/
  | attnHold5s
  /-- TRANSIT_EDGE (R80). -/
  | transitEdge (t : Nat) (rising : Bool) (widthNs : Nat)
  /-- TRANSIT_MESSAGE (R73). -/
  | transitMessage (link : LinkNo) (src : ModuleNo) (m : Machine.TransitMsg) (t : Nat)
  /-- EPOCH_BOUNDARY (R66). -/
  | epochBoundary (t : Nat)
  /-- HOLDOVER_ENTRY (R82). -/
  | holdoverEntry
  /-- HOLDOVER_EXPIRY (R83). -/
  | holdoverExpiry
  /-- ACQUIRE_NO_EDGE (R82). -/
  | acquireNoEdge (t : Nat)
  /-- ACQ_TIMEOUT (R82). -/
  | acqTimeout
  /-- REACQUIRE (R82). -/
  | reacquire
  /-- SOURCE_SELECT (R68). -/
  | sourceSelect (v : Fin 4)
  /-- EPOCH_SET (R90). -/
  | epochSet (v : BitVec 48)
  /-- PERIOD_WRITE (R89). -/
  | periodWrite (next : Bool) (v : BitVec 32)
  /-- ARM (R107). -/
  | arm
  /-- DISARM (R110). -/
  | disarm
  /-- SHADOW_BANK_WRITE (R106). -/
  | shadowBankWrite (addr : Nat) (wide : Bool) (value : Nat)
  /-- WINDOW_OPEN (R94). -/
  | windowOpen (phase : Fin 65536)
  /-- WINDOW_END (R103). -/
  | windowEnd (phase : Fin 65537) (sweeps : Nat)
  /-- ERASE_SUSPEND_WINDOW (R475). -/
  | eraseSuspendWindow (phase : Fin 65536) (slot : Slot) (die : Fin 128)
  /-- ERASE_BANK (R134). -/
  | eraseBank (bank : Fin 2)
  /-- ERASE_BANK_DONE (R712). -/
  | eraseBankDone (fail : Bool)
  /-- PROGRAM_BANK (R135). -/
  | programBank (bank : Fin 2) (data : List Byte)
  /-- PROGRAM_BANK_DONE (R135). -/
  | programBankDone (fail : Bool)
  /-- VERIFY_BANK (R143). -/
  | verifyBank (bank : Fin 2)
  /-- LOAD_FULL (R143). -/
  | loadFull (bank : Fin 2)
  /-- QUIESCE_TIMEOUT (R145). -/
  | quiesceTimeout (d : Die) (c : Cluster)
  /-- CHART_APPLY (R144). -/
  | chartApply
  /-- LOAD_PARTIAL (R159). -/
  | loadPartial (ld : Nat) (lc : Nat)
  /-- SET_OPTION (R140). -/
  | setOption (record : List Byte) (auth : List Byte)
  /-- CHART_ABORT (R149). -/
  | chartAbort
  /-- COUPLED_FIELD_WRITE (R164). -/
  | coupledFieldWrite (addr : Nat) (wide : Bool) (value : Nat)
  /-- CPL_COMMIT (R165). -/
  | cplCommit (group : BitVec 16)
  /-- COUPLED_COMMIT_APPLY (R165). -/
  | coupledCommitApply (group : Nat)
  /-- COUPLING_HOLD_TIMEOUT (R169). -/
  | couplingHoldTimeout
  /-- PASS_BOUNDARY (R189). -/
  | passBoundary (d : Die) (c : Cluster) (k : CoreNo) (p : Pass) (adv : Nat) (arrived : List Arrival)
  /-- WEIGHT_SLOT_WRITE (R194). -/
  | weightSlotWrite (d : Die) (c : Cluster) (k : CoreNo) (lane : Lane) (slot : Fin 128) (tag : Bool) (src : WeightSource) (off : Nat) (fmt : Fin 16) (adv : Nat) (arrived : List Arrival)
  /-- ROW_FREEZE (R195). -/
  | rowFreeze (d : Die) (c : Cluster) (k : CoreNo) (q : FreezeCauses) (adv : Nat)
  /-- FREEZE_END (R196). -/
  | freezeEnd (d : Die) (c : Cluster) (k : CoreNo)
  /-- DUMMY_RAMP_DOWN (R199). -/
  | dummyRampDown (d : Die) (c : Cluster) (k : CoreNo)
  /-- DUMMY_GAP_END (R197). -/
  | dummyGapEnd (d : Die) (c : Cluster) (k : CoreNo) (adv : Nat)
  /-- ROW_TOTAL_WRITE (R188). -/
  | rowTotalWrite (d : Die) (c : Cluster) (k : CoreNo) (lane : Fin 64) (adv : Nat) (arrived : List Arrival)
  /-- DRAIN_READ_ROW (R208). -/
  | drainReadRow (d : Die) (c : Cluster) (k : CoreNo) (bank : Fin 2) (adv : Nat)
  /-- DRAIN_WRITE_ROW (R209). -/
  | drainWriteRow (d : Die) (c : Cluster) (k : CoreNo) (batch : Nat) (m : Nat) (n : Nat)
  /-- SELF_TEST_SEGMENT (R216). -/
  | selfTestSegment (phase : Fin 65536) (d : Die) (c : Cluster) (k : CoreNo) (ended : Bool) (lane : Option Lane)
  /-- CORE_ECC_CORRECTED (R214). -/
  | coreEccCorrected (d : Die) (c : Cluster) (k : CoreNo) (m : CoreStorage)
  /-- CORE_ECC_UNCORRECTABLE (R215). -/
  | coreEccUncorrectable (d : Die) (c : Cluster) (k : CoreNo) (m : CoreStorage) (lane : Lane) (place : Nat) (reader : Bool) (hard : Bool)
  /-- CONTROL_ENGINE_FAULT (R223). -/
  | controlEngineFault (d : Die) (c : Cluster) (k : CoreNo) (cause : CeFault)
  /-- CONTROL_ENGINE_WATCHDOG (R224). -/
  | controlEngineWatchdog (d : Die) (c : Cluster) (k : CoreNo)
  /-- MMA (R237). -/
  | mma (d : Die) (c : Cluster) (desc : BitVec 1024)
  /-- MMA_CHAIN (R253). -/
  | mmaChain (d : Die) (c : Cluster) (desc : BitVec 1024)
  /-- REDUCE (R238). -/
  | reduce (d : Die) (c : Cluster) (desc : BitVec 1024)
  /-- SELECT (R259). -/
  | select (d : Die) (c : Cluster) (desc : BitVec 1024)
  /-- SCAN_CODES (R181). -/
  | scanCodes (d : Die) (c : Cluster) (desc : BitVec 1024)
  /-- FILTER (R183). -/
  | filter (d : Die) (c : Cluster) (desc : BitVec 1024)
  /-- CONVERT (R309). -/
  | convert (d : Die) (c : Cluster) (desc : BitVec 1024)
  /-- COPY (R716). -/
  | copy (d : Die) (c : Cluster) (desc : BitVec 1024)
  /-- ATOMIC_ADD (R324). -/
  | atomicAdd (d : Die) (c : Cluster) (desc : BitVec 1024)
  /-- MACRO_COMPLETE (R230). -/
  | macroComplete (d : Die) (c : Cluster) (effects : List GlueEffect)
  /-- MACRO_FAULT (R233). -/
  | macroFault (d : Die) (c : Cluster) (code : Nat)
  /-- MARK_REACHED (R273). -/
  | markReached (d : Die) (c : Cluster)
  /-- CONTEXT_SAVE_DONE (R411). -/
  | contextSaveDone (d : Die) (c : Cluster)
  /-- EYE_HALT (R280). -/
  | eyeHalt (d : Die) (c : Cluster)
  /-- EYE_RESUME (R280). -/
  | eyeResume (d : Die) (c : Cluster)
  /-- EYE_HALTED (R280). -/
  | eyeHalted (d : Die) (c : Cluster)
  /-- EYE_DATA_READ (R281). -/
  | eyeDataRead (d : Die) (c : Cluster) (lane : Fin 64)
  /-- COMPENSATED_ADD (R320). -/
  | compensatedAdd (acct : Account) (addr : Nat) (v : BitVec 32)
  /-- DEMAND_PROMOTION (R337). -/
  | demandPromotion (acct : Account) (page : Nat) (cause : Option Die) (layer : Option (Fin 128 × Fin 65536))
  /-- COUDE_READ_DONE (R363). -/
  | coudeReadDone
  /-- FAR_PAGE_WRITE (R340). -/
  | farPageWrite (acct : Account) (page : Nat)
  /-- FAR_WRITE_DONE (R525). -/
  | farWriteDone (acct : Account) (page : Nat)
  /-- WATERMARK_SWEEP (R339). -/
  | watermarkSweep
  /-- MAP (R350). -/
  | map (tier : Fin 4) (home : Die) (acct : Account)
  /-- UNMAP (R350). -/
  | unmap (tier : Fin 4) (home : Die) (acct : Account)
  /-- PIN (R350). -/
  | pin (tier : Fin 4) (home : Die) (acct : Account)
  /-- UNPIN (R350). -/
  | unpin (tier : Fin 4) (home : Die) (acct : Account)
  /-- MOVE (R350). -/
  | move (tier : Fin 4) (home : Die) (acct : Account)
  /-- SET_HOME (R350). -/
  | setHome (tier : Fin 4) (home : Die) (acct : Account)
  /-- MODEL_LOAD (R354). -/
  | modelLoad (n : Fin 128)
  /-- MODEL_UNLOAD (R355). -/
  | modelUnload (n : Fin 128)
  /-- ALMANAC_PHASE_TRIGGER (R358). -/
  | almanacPhaseTrigger (phase : Fin 65536)
  /-- ACH_ENABLE (R366). -/
  | achEnable (n : Fin 64) (on : Bool)
  /-- ACT_SLOT_ARRIVED (R367). -/
  | actSlotArrived (n : Fin 64) (slot : Fin 64)
  /-- ACT_CREDIT (R367). -/
  | actCredit (n : Fin 64) (slot : Fin 64)
  /-- SWAP_OUT_DONE (R386). -/
  | swapOutDone (entry : Fin 16384)
  /-- CANCEL (R400). -/
  | cancel (entry : Fin 16384)
  /-- RESUME (R393). -/
  | resume (group : GroupNo)
  /-- JOB_DISPATCH (R405). -/
  | jobDispatch (d : Die) (c : Cluster)
  /-- ENGINE_TIME_CHARGE (R408). -/
  | engineTimeCharge (d : Die) (c : Cluster) (us : Nat)
  /-- PREEMPT_DEFER_EXPIRY (R412). -/
  | preemptDeferExpiry (d : Die) (c : Cluster)
  /-- SEM_ACQUIRE (R415). -/
  | semAcquire (d : Die) (c : Cluster) (k : CoreNo) (n : Fin 1024)
  /-- SEM_RELEASE (R415). -/
  | semRelease (d : Die) (c : Cluster) (k : CoreNo) (n : Fin 1024)
  /-- JOB_END (R591). -/
  | jobEnd (job : Fin 4096)
  /-- ATTACH (R429). -/
  | attach (cat : CatNo) (acct : Account)
  /-- CATALOGUE_ATTACHED (R428). -/
  | catalogueAttached (cat : CatNo)
  /-- STAGE (R434). -/
  | stage (cat : CatNo) (acct : Account)
  /-- UNSTAGE (R428). -/
  | unstage (cat : CatNo) (acct : Account)
  /-- DETACH (R428). -/
  | detach (cat : CatNo) (acct : Account)
  /-- DELETE (R432). -/
  | delete (cat : CatNo) (acct : Account)
  /-- SEARCH_BATCH (R439). -/
  | searchBatch (cid : Nat) (ctl : Nat) (set : Nat) (params : List Byte)
  /-- SWEEP_START (R452). -/
  | sweepStart (d : Die) (c : Cluster) (receiving : Nat)
  /-- FLASH_READ (R479). -/
  | flashRead (slot : Slot) (die : Fin 128) (block : Fin 8448) (row : Fin 512) (cws : Nat) (origin : Machine.Origin)
  /-- FLASH_READ_DONE (R485). -/
  | flashReadDone (stripe : Fin 524288) (group : Fin 16) (row : Fin 512) (coude : Bool) (detour : Bool) (cws : List CwRead)
  /-- FLASH_PROGRAM (R476). -/
  | flashProgram (phase : Fin 65536) (stripe : Fin 524288) (group : Fin 16)
  /-- PROGRAM_END (R476). -/
  | programEnd (slot : Slot) (die : Fin 128) (pass : Bool)
  /-- FLASH_ERASE (R497). -/
  | flashErase (phase : Fin 65536) (stripe : Fin 524288) (group : Fin 16)
  /-- ERASE_END (R476). -/
  | eraseEnd (slot : Slot) (die : Fin 128) (pass : Bool)
  /-- ERASE_RESUME (R475). -/
  | eraseResume (phase : Fin 65536) (slot : Slot) (die : Fin 128)
  /-- ERASED_STATE_CHECK (R499). -/
  | erasedStateCheck (stripe : Fin 524288) (group : Fin 16) (worst : Nat)
  /-- SRAM_UNCORRECTABLE (R489). -/
  | sramUncorrectable (m : SramFault)
  /-- HBM_CORRECTABLE (R492). -/
  | hbmCorrectable (unit : Machine.HbmUnit)
  /-- HBM_UNCORRECTABLE (R494). -/
  | hbmUncorrectable (unit : Machine.HbmUnit)
  /-- SCRUB_START (R504). -/
  | scrubStart (n : Fin 4) (kind : Fin 2)
  /-- SCRUB_STOP (R504). -/
  | scrubStop (n : Fin 4)
  /-- SCRUB_STRIPE (R501). -/
  | scrubStripe (n : Fin 4) (phase : Fin 65536) (cws : List CwRead)
  /-- SCRUB_HBM (R502). -/
  | scrubHbm (n : Fin 4) (phase : Fin 65536) (hits : List HbmHit)
  /-- RAW_READ (R477). -/
  | rawRead (dmaOk : Bool)
  /-- FILL_SEAL_TIMEOUT (R520). -/
  | fillSealTimeout (unit : Fin 448000)
  /-- MERGE (R523). -/
  | merge (unit : Fin 448000)
  /-- COPY_VERIFY_COMMIT (R531). -/
  | copyVerifyCommit (number : Nat) (fail : Option (Fin 16))
  /-- CARTRIDGE_LOST (R543). -/
  | cartridgeLost (slot : Slot)
  /-- MIGRATION_START (R544). -/
  | migrationStart
  /-- BRING_IN (R544). -/
  | bringIn
  /-- MIGRATION_END (R545). -/
  | migrationEnd
  /-- JOURNAL_BLOCK_WRITE (R556). -/
  | journalBlockWrite (phase : Fin 65536)
  /-- CHECKPOINT_WRITE (R557). -/
  | checkpointWrite
  /-- MAP_RESTORE (R559). -/
  | mapRestore (ms : Nat)
  /-- NVME_READ (R516). -/
  | nvmeRead (cid : Nat) (ctl : Nat) (nsid : Nat) (lba : Nat) (n : Nat)
  /-- NVME_WRITE (R518). -/
  | nvmeWrite (cid : Nat) (ctl : Nat) (nsid : Nat) (lba : Nat) (data : List Sector)
  /-- WRITE_ZEROES (R579). -/
  | writeZeroes (cid : Nat) (ctl : Nat) (nsid : Nat) (lba : Nat) (n : Nat)
  /-- FLUSH (R571). -/
  | flush (cid : Nat) (ctl : Nat)
  /-- DATASET_MANAGEMENT (R550). -/
  | datasetManagement (cid : Nat) (ctl : Nat) (nsid : Nat) (ranges : List (Nat × Nat))
  /-- SECURE_DEALLOCATE (R602). -/
  | secureDeallocate (cid : Nat) (ctl : Nat) (nsid : Nat) (ranges : List (Nat × Nat))
  /-- NVME_COPY (R593). -/
  | nvmeCopy (cid : Nat) (ctl : Nat) (nsid : Nat) (dst : Nat) (ranges : List SrcRange)
  /-- ZONE_APPEND (R552). -/
  | zoneAppend (cid : Nat) (ctl : Nat) (nsid : Nat) (zslba : Nat) (data : List Sector)
  /-- ZONE_OPEN (R575). -/
  | zoneOpen (cid : Nat) (ctl : Nat) (nsid : Nat) (zslba : Nat)
  /-- ZONE_FINISH (R553). -/
  | zoneFinish (cid : Nat) (ctl : Nat) (nsid : Nat) (zslba : Nat)
  /-- ZONE_RESET (R553). -/
  | zoneReset (cid : Nat) (ctl : Nat) (nsid : Nat) (zslba : Nat)
  /-- RANGE_LOCK_RELEASE (R580). -/
  | rangeLockRelease (cid : Nat) (ctl : Nat)
  /-- ABORT (R583). -/
  | abort (cid : Nat) (ctl : Nat) (target : Nat) (outstanding : Nat)
  /-- IDENTIFY_CONTROLLER (R571). -/
  | identifyController (cid : Nat) (ctl : Nat)
  /-- IDENTIFY_NAMESPACE (R576). -/
  | identifyNamespace (cid : Nat) (ctl : Nat) (nsid : Nat)
  /-- NAMESPACE_CREATE (R574). -/
  | namespaceCreate (cid : Nat) (ctl : Nat) (spec : NsSpec)
  /-- NAMESPACE_DELETE (R588). -/
  | namespaceDelete (cid : Nat) (ctl : Nat) (nsid : Nat)
  /-- VIRTUALIZATION_MANAGEMENT (R577). -/
  | virtualizationManagement (cid : Nat) (ctl : Nat) (vf : Nat) (interrupts : Bool) (n : Nat)
  /-- LOAD_PROGRAM (R586). -/
  | loadProgram (cid : Nat) (ctl : Nat) (program : Nat) (image : PlanImage)
  /-- PROGRAM_ACTIVATION (R586). -/
  | programActivation (cid : Nat) (ctl : Nat) (program : Nat) (on : Bool)
  /-- CREATE_MEMORY_RANGE_SET (R588). -/
  | createMemoryRangeSet (cid : Nat) (ctl : Nat) (ranges : List MemRange)
  /-- EXECUTE_PROGRAM (R590). -/
  | executeProgram (cid : Nat) (ctl : Nat) (program : Nat) (set : Nat) (params : List Byte)
  /-- MEMORY_READ (R594). -/
  | memoryRead (cid : Nat) (ctl : Nat) (nsid : Nat) (start : Nat) (len : Nat)
  /-- MEMORY_WRITE (R594). -/
  | memoryWrite (cid : Nat) (ctl : Nat) (nsid : Nat) (start : Nat) (data : List Byte)
  /-- MEMORY_COPY (R593). -/
  | memoryCopy (cid : Nat) (ctl : Nat) (nsid : Nat) (dst : Nat) (ranges : List SrcRange)
  /-- FORMAT_NVM (R597). -/
  | formatNvm (cid : Nat) (ctl : Nat) (nsid : Nat) (ses : Nat)
  /-- SANITIZE (R598). -/
  | sanitize (cid : Nat) (ctl : Nat) (block : Bool)
  /-- GET_LOG_PAGE (R604). -/
  | getLogPage (cid : Nat) (ctl : Nat) (page : Nat) (retain : Bool)
  /-- HOST_WINDOW_READ (R567). -/
  | hostWindowRead (addr : Nat) (n : Nat)
  /-- HOST_WINDOW_WRITE (R567). -/
  | hostWindowWrite (addr : Nat) (data : List Byte)
  /-- HOST_WINDOW_TIMEOUT (R568). -/
  | hostWindowTimeout
  /-- SECURITY_NONCE (R699). -/
  | securityNonce (cid : Nat) (ctl : Nat)
  /-- DEBUG_UNLOCK (R701). -/
  | debugUnlock (cid : Nat) (ctl : Nat) (block : List Byte)
  /-- DEBUG_UNLOCK_RELEASE (R701). -/
  | debugUnlockRelease (cid : Nat) (ctl : Nat)
  /-- OWNERSHIP_RELEASE (R703). -/
  | ownershipRelease (cid : Nat) (ctl : Nat) (block : List Byte)
  /-- GET_VERSION (R607). -/
  | getVersion
  /-- GET_CAPABILITIES (R607). -/
  | getCapabilities
  /-- NEGOTIATE_ALGORITHMS (R607). -/
  | negotiateAlgorithms
  /-- GET_DIGESTS (R607). -/
  | getDigests
  /-- GET_CERTIFICATE (R607). -/
  | getCertificate (slot : Nat)
  /-- CHALLENGE (R607). -/
  | challenge (nonce : Nat)
  /-- GET_MEASUREMENTS (R607). -/
  | getMeasurements (index : Nat)
  /-- KEY_EXCHANGE (R607). -/
  | keyExchange (session : Nat)
  /-- FINISH (R607). -/
  | finish (session : Nat)
  /-- END_SESSION (R607). -/
  | endSession (session : Nat)
  /-- READ_NVME_MI_DATA_STRUCTURE (R606). -/
  | readNvmeMiDataStructure (type : Nat)
  /-- SUBSYSTEM_HEALTH_STATUS_POLL (R606). -/
  | subsystemHealthStatusPoll
  /-- CONTROLLER_HEALTH_STATUS_POLL (R606). -/
  | controllerHealthStatusPoll (ctl : Nat)
  /-- CONFIGURATION_GET (R606). -/
  | configurationGet (id : Nat)
  /-- CONFIGURATION_SET (R606). -/
  | configurationSet (id : Nat) (value : Nat)
  /-- VPD_READ (R606). -/
  | vpdRead (mem : Machine.IdMem) (off : Nat) (n : Nat)
  /-- TUNNELLED_ADMIN_COMMAND (R606). -/
  | tunnelledAdminCommand (command : Tunnel)
  /-- IDENTIFY_MEMORY_DEVICE (R609). -/
  | identifyMemoryDevice
  /-- GET_HEALTH_INFO (R609). -/
  | getHealthInfo
  /-- GET_SUPPORTED_LOGS (R609). -/
  | getSupportedLogs
  /-- GET_LOG (R609). -/
  | getLog
  /-- GET_EVENT_RECORDS (R609). -/
  | getEventRecords
  /-- CLEAR_EVENT_RECORDS (R609). -/
  | clearEventRecords (n : Nat)
  /-- GLOBAL_PERSISTENT_FLUSH (R609). -/
  | globalPersistentFlush
  /-- LINK_DETECT (R615). -/
  | linkDetect (link : LinkNo) (bad : Nat)
  /-- LINK_TRAINED (R615). -/
  | linkTrained (link : LinkNo) (init : InitMsg) (delay : Nat)
  /-- LINK_TRAIN_TIMEOUT (R615). -/
  | linkTrainTimeout (link : LinkNo)
  /-- LIMUC_LANE_RETIRE (R614). -/
  | limucLaneRetire (link : LinkNo) (lane : Fin 9)
  /-- LINK_REPLAY_LIMIT (R615). -/
  | linkReplayLimit (link : LinkNo)
  /-- LINK_RECOVERED (R615). -/
  | linkRecovered (link : LinkNo)
  /-- LINK_RECOVER_TIMEOUT (R615). -/
  | linkRecoverTimeout (link : LinkNo)
  /-- LINK_DISABLE (R615). -/
  | linkDisable (link : LinkNo)
  /-- FLIT_RECEIVE (R618). -/
  | flitReceive (link : LinkNo) (f : Flit) (t : Nat) (ns : Nat)
  /-- NAK_RECEIVE (R618). -/
  | nakReceive (link : LinkNo) (ack : Nat)
  /-- PROBE_SEND (R617). -/
  | probeSend (link : LinkNo) (t : Nat)
  /-- PROBE (R617). -/
  | probe (link : LinkNo) (m : LMsg) (t : Nat)
  /-- CREDIT (R620). -/
  | credit (link : LinkNo) (m : LMsg)
  /-- READ64 (R626). -/
  | read64 (link : LinkNo) (m : LMsg)
  /-- WRITE64 (R626). -/
  | write64 (link : LinkNo) (m : LMsg)
  /-- CADD (R626). -/
  | cadd (link : LinkNo) (m : LMsg)
  /-- BULK (R634). -/
  | bulk (link : LinkNo) (m : LMsg)
  /-- ACT (R367). -/
  | act (link : LinkNo) (m : LMsg)
  /-- DIR (R640). -/
  | dir (link : LinkNo) (m : LMsg)
  /-- DIR_BCAST (R640). -/
  | dirBcast (link : LinkNo) (m : LMsg)
  /-- RDATA (R623). -/
  | rdata (link : LinkNo) (m : LMsg)
  /-- WACK (R623). -/
  | wack (link : LinkNo) (m : LMsg)
  /-- BACK (R623). -/
  | back (link : LinkNo) (m : LMsg)
  /-- AACK (R623). -/
  | aack (link : LinkNo) (m : LMsg)
  /-- DIRR (R640). -/
  | dirr (link : LinkNo) (m : LMsg)
  /-- TWACK (R647). -/
  | twack (link : LinkNo) (m : LMsg) (ns : Nat)
  /-- TCRSP (R622). -/
  | tcrsp (link : LinkNo) (m : LMsg)
  /-- NOT_READY_RETRY (R624). -/
  | notReadyRetry (tag : Nat)
  /-- SPAN_REQUEST_TIMEOUT (R625). -/
  | spanRequestTimeout (tag : Nat)
  /-- FLIT_HOLD_DISCARD (R631). -/
  | flitHoldDiscard (link : LinkNo)
  /-- JOIN (R641). -/
  | join (link : LinkNo) (m : LMsg)
  /-- ALIVE (R640). -/
  | alive (link : LinkNo) (m : LMsg)
  /-- HEARTBEAT_SEND (R640). -/
  | heartbeatSend
  /-- PEER_STATE (R642). -/
  | peerState (link : LinkNo) (m : LMsg)
  /-- MEMBER_HEARTBEAT_MISS (R642). -/
  | memberHeartbeatMiss (module : ModuleNo)
  /-- MASTER_CHANGE (R644). -/
  | masterChange (link : LinkNo) (m : LMsg)
  /-- DIR_SYNC (R640). -/
  | dirSync (link : LinkNo) (m : LMsg)
  /-- MAP_REQ (R346). -/
  | mapReq (link : LinkNo) (m : LMsg)
  /-- PARTNER_QUERY (R640). -/
  | partnerQuery (link : LinkNo) (m : LMsg)
  /-- MASTER_HEARTBEAT_MISS (R644). -/
  | masterHeartbeatMiss
  /-- TAKEOVER (R644). -/
  | takeover
  /-- TWIN_WRITE (R647). -/
  | twinWrite (link : LinkNo) (m : LMsg)
  /-- TWIN_OP (R647). -/
  | twinOp (link : LinkNo) (m : LMsg)
  /-- TWIN_CKPT (R649). -/
  | twinCkpt (link : LinkNo) (m : LMsg)
  /-- TWIN_COPY (R655). -/
  | twinCopy (link : LinkNo) (m : LMsg)
  /-- TWIN_MAP (R655). -/
  | twinMap (link : LinkNo) (m : LMsg)
  /-- HELLO (R651). -/
  | hello (link : LinkNo) (m : LMsg)
  /-- TWIN_DETACH_NOTICE (R651). -/
  | twinDetachNotice (link : LinkNo) (m : LMsg)
  /-- RESYNC_DONE (R651). -/
  | resyncDone (link : LinkNo) (m : LMsg)
  /-- PAIRED_NOTICE (R651). -/
  | pairedNotice (link : LinkNo) (m : LMsg)
  /-- PICKED (R651). -/
  | picked (link : LinkNo) (m : LMsg)
  /-- RESYNC_COPY (R655). -/
  | resyncCopy (unit : Fin 448000) (first : Fin 122880) (n : Nat)
  /-- TWACK_TIMEOUT (R651). -/
  | twackTimeout
  /-- TWIN_DETACH (R652). -/
  | twinDetach
  /-- REJOIN (R651). -/
  | rejoin
  /-- FORCE_SOLO (R651). -/
  | forceSolo
  /-- PICK (R651). -/
  | pick
  /-- COLD_RESET (R665). -/
  | coldReset (t : Nat) (bay : BayId) (present : Nat)
  /-- WARM_RESET (R665). -/
  | warmReset
  /-- SVC_LOCK_SET (R6). -/
  | svcLockSet
  /-- POWER_ON_SELF_TEST (R664). -/
  | powerOnSelfTest (ms : Nat) (bad : List Machine.PostFault)
  /-- REFURB_BEGIN (R704). -/
  | refurbBegin
  /-- RETEST (R705). -/
  | retest
  /-- RETEST_DONE (R705). -/
  | retestDone (bad : List UnitAddr)
  /-- REFURB_END (R706). -/
  | refurbEnd
  /-- EXPORT (R682). -/
  | exportSet (dmaOk : Bool)
  /-- CALIBRATION_WRITE (R683). -/
  | calibrationWrite (data : List Byte) (dmaOk : Bool) (flashOk : Bool)
  /-- CARTRIDGE_INSERT (R696). -/
  | cartridgeInsert (slot : Slot) (id : Machine.CartId)
  /-- CARTRIDGE_PULL (R695). -/
  | cartridgePull (slot : Slot)
  /-- THERMAL_STEP_RISE (R689). -/
  | thermalStepRise (m : Machine.Climate) (used : Nat)
  /-- THERMAL_STEP_FALL (R690). -/
  | thermalStepFall (m : Machine.Climate)
  /-- CARTRIDGE_THERMAL_HOLD (R693). -/
  | cartridgeThermalHold (slot : Slot) (temp : Nat)
  /-- PERST_DEASSERT (R563). -/
  | perstDeassert
  /-- NO_HELLO (R651). -/
  | noHello
  /-- CARTRIDGE_THERMAL_RELEASE (R693). -/
  | cartridgeThermalRelease (slot : Slot) (temp : Nat)
  /-- LINK_ACK_CREDIT_TIMER (R620). -/
  | linkAckCreditTimer (link : LinkNo)
  deriving DecidableEq, Repr

end Sys2Proof
end

