-- ==== Sys2Proof/Config.lean ====
section
/-! DEFINITION. The free values of the model: what the spec leaves open while the machine goes on. Each is an
opaque constant with no body, so a claim holds for every value it could have. -/
namespace Sys2Proof.Config

/-- A fresh free value: the index is a counter of the state (assumption log entry 2). -/
opaque freeValue : Nat → Nat

/-- The vendor root public key in the package ROM (R116): X in the low 384 bits, Y above. The spec does not print it; assumption log
entry 49. -/
opaque vendorKey : Nat

/-- The revision of the service-processor firmware in a bank, as the ASCII characters of FR (R571); assumption log entry 3. -/
opaque firmwareRevision : Nat → Nat

/-- The certificate chain in slot 0 of the module with a serial (R607); assumption log entry 3. -/
opaque certificate : Nat → List (BitVec 8)

/-- The digest of the firmware in bank 0 or 1, and of the package ROM as bank 2 (Table 12-13a); assumption log entry 3. -/
opaque codeDigest : Nat → Nat

/-- What a byte of an identity memory holds that no rule lays out, by memory and address (Tables 14-5, 14-6); assumption log
entry 51. -/
opaque identityFill : Nat → Nat → BitVec 8

/-- What a place of an SRAM holds that nothing has written since it was powered: the first number says which powering, the second
the place (R688: undefined; assumption log entry 20). -/
opaque sramByte : Nat → Nat → BitVec 8

/-- A finite input's GELU, SiLU, sigmoid or tanh (ACT 2 to 5) as an FP32 pattern: the spec bounds it by 4 units in the last place (R303), which
the model holds it to, and says that it is the same on every core; assumption log entry 5. -/
opaque activation : Nat → BitVec 32 → BitVec 32

/-- Whether the 48-bit window of R204 drops product bits below it toward minus infinity (true) or toward zero (false);
the spec says only that they are dropped; assumption log entry 6. -/
opaque windowDropsDown : Bool

/-- The metric (R446) between a query's FP32 sub-vector and a codebook centroid's FP16 sub-vector, as an FP32 pattern: the spec
does not say how the Finder rounds it; assumption log entry 23. -/
opaque subDistance : Nat → List (BitVec 32) → List Nat → BitVec 32

/-- The squared norm of a GRAPH query as the control engine forms it in FP32 (R447); the spec does not say how its sum is
rounded; assumption log entry 23. -/
opaque queryNorm : List (BitVec 32) → BitVec 32

end Sys2Proof.Config
end

