-- ==== Sys2Proof/Machine/Crypto.lean ====
section
/-! DEFINITION. SHA-384 and CRC-32, the hash and the check the spec names (R114, R115, R117). -/
namespace Sys2Proof.Machine

/-- A 64-bit word of the hash. -/
abbrev W64 := BitVec 64

/-- The largest number whose `e`-th power is at most `n`, bit by bit from bit `b - 1` down. -/
def rootBelow (e n : Nat) : Nat → Nat → Nat
  | 0, r => r
  | b + 1, r => rootBelow e n b (if (r + 2 ^ b) ^ e ≤ n then r + 2 ^ b else r)

/-- The first 64 bits of the fraction of the `e`-th root of `p`: what SHA-2 takes its constants from. -/
def rootFraction (e p : Nat) : W64 := BitVec.ofNat 64 (rootBelow e (p * 2 ^ (64 * e)) 70 0)

/-- The first eighty primes. -/
def hashPrimes : List Nat := (List.range 410).filter fun n => 2 ≤ n && (List.range n).all fun d => d < 2 || n % d != 0

/-- The eighty round constants: cube roots of the first eighty primes. -/
def roundKeys : List W64 := hashPrimes.map (rootFraction 3)

/-- The two halves of the chaining value: the last four words of the first recurrence, newest first, and of the second. -/
abbrev Chaining := List W64 × List W64

/-- SHA-384 starts from the square roots of the ninth to the sixteenth prime. -/
def chainStart : Chaining :=
  let h := ((hashPrimes.drop 8).take 8).map (rootFraction 2)
  (h.take 4, h.drop 4)

/-- The exclusive or of a word's rotations to the right. -/
def twist (x : W64) (ns : List Nat) : W64 := ns.foldl (fun a n => a ^^^ x.rotateRight n) 0

/-- The sixteen words of the schedule a round sees, oldest first, moved on by one round. -/
def slide (win : List W64) : List W64 :=
  let early := win.getD 1 0
  let late := win.getD 14 0
  win.drop 1 ++ [win.headD 0 + win.getD 9 0 + (twist early [1, 8] ^^^ (early >>> 7)) + (twist late [19, 61] ^^^ (late >>> 6))]

/-- A round: `m` is the word the first half keeps by majority, `n` the one the second half chooses. -/
def advance : Chaining → W64 → Chaining
  | ([p, q, r, t], [u, v, w, z]), x =>
    let n := z + x + (w ^^^ (u &&& (v ^^^ w))) + twist u [14, 18, 41]
    let m := (p &&& (q ||| r)) ||| (q &&& r)
    ([n + m + twist p [28, 34, 39], p, q, r], [t + n, u, v, w])
  | c, _ => c

/-- The rounds over a list of keys, with the window of the schedule beside the chaining value. -/
def rounds : List W64 → List W64 → Chaining → Chaining
  | [], _, c => c
  | k :: ks, win, c => rounds ks (slide win) (advance c (k + win.headD 0))

/-- Eight big-endian bytes to a word, as often as the list holds them. -/
def words : Nat → List Byte → List W64
  | 0, _ => []
  | n + 1, l => BitVec.ofNat 64 (leNat (l.take 8).reverse) :: words n (l.drop 8)

/-- The blocks of a padded message, 128 bytes each. -/
def absorb (keys : List W64) : Nat → List Byte → Chaining → Chaining
  | 0, _, c => c
  | n + 1, l, c =>
    let d := rounds keys (words 16 l) c
    absorb keys n (l.drop 128) (c.1.zipWith (· + ·) d.1, c.2.zipWith (· + ·) d.2)

/-- The padding of a message of `n` bytes: 0x80, zeros, and the length in bits as 16 big-endian bytes. -/
def shaPad (n : Nat) : List Byte :=
  0x80#8 :: (List.replicate ((111 + 128 - n % 128) % 128) 0#8 ++ (leBytes 16 (8 * n)).reverse)

/-- SHA-384 of a message, as a 384-bit number whose most significant byte is the digest's first byte. -/
def sha384 (l : List Byte) : Nat :=
  let m := l ++ shaPad l.length
  let c := absorb roundKeys (m.length / 128) m chainStart
  (c.1 ++ c.2.take 2).foldl (fun a w => a * 2 ^ 64 + w.toNat) 0

/-- The digest's 48 bytes. -/
def sha384Bytes (l : List Byte) : List Byte := (leBytes 48 (sha384 l)).reverse

/-- Eight steps of the IEEE 802.3 CRC-32 (reflected). -/
def crcBits : Nat → BitVec 32 → BitVec 32
  | 0, c => c
  | n + 1, c => crcBits n (if c.getLsbD 0 then (c >>> 1) ^^^ 0xEDB88320#32 else c >>> 1)

/-- CRC-32 of a list of bytes. -/
def crc32 (l : List Byte) : Nat :=
  (~~~ (l.foldl (fun c b => crcBits 8 (c ^^^ b.zeroExtend 32)) 0xFFFFFFFF#32)).toNat

end Sys2Proof.Machine
end

