-- ==== Sys2Proof/Machine/Numbers.lean ====
section
/-! DEFINITION. Number formats, rounding, FP32 operations, runs and conversion (the chapter "Number formats,
conversion and scaling" and R203 to R205). Values are exact dyadic numbers until a rule rounds them. -/
namespace Sys2Proof.Machine

/-- An FP32 bit pattern. -/
abbrev F32 := BitVec 32

/-- A number as the formats hold one: NaN, an infinity, or (-1)^neg * m * 2^e exactly. -/
inductive Num where
  | nan
  | inf (neg : Bool)
  | fin (neg : Bool) (m : Nat) (e : Int)
  deriving DecidableEq, Repr

/-- How a value is rounded: to nearest even (R304), or stochastically with the 16 random bits `r` (R308). -/
inductive Rounding where
  | rne
  | sr (r : Nat)
  deriving DecidableEq, Repr

/-- A magnitude divided by `2 ^ sh` and rounded. -/
def roundShift (rm : Rounding) (m sh : Nat) : Nat :=
  let q := m / 2 ^ sh
  match rm with
  | .rne =>
    let twice := 2 * (m % 2 ^ sh)
    if 2 ^ sh < twice || (twice == 2 ^ sh && q % 2 == 1) then q + 1 else q
  | .sr r => if 65536 ≤ m * 65536 / 2 ^ sh % 65536 + r then q + 1 else q

/-- The shape of a floating-point element format: exponent bits, mantissa bits, bias (Table 6-2). -/
structure FloatShape where
  eb : Nat
  mb : Nat
  bias : Nat
  deriving DecidableEq, Repr

def shapeFP32 : FloatShape := ⟨8, 23, 127⟩
def shapeFP16 : FloatShape := ⟨5, 10, 15⟩
def shapeBF16 : FloatShape := ⟨8, 7, 127⟩
def shapeE5M2 : FloatShape := ⟨5, 2, 15⟩
def shapeE4M3 : FloatShape := ⟨4, 3, 7⟩
def shapeE3M2 : FloatShape := ⟨3, 2, 3⟩
def shapeE2M3 : FloatShape := ⟨2, 3, 1⟩
def shapeE2M1 : FloatShape := ⟨2, 1, 1⟩

/-- The exponent of a shape's smallest subnormal. -/
def FloatShape.emin (f : FloatShape) : Int := 1 - (f.bias : Int) - (f.mb : Int)

/-- The magnitude code (exponent and mantissa fields, unbounded above) of `m * 2 ^ e` rounded to a shape (R285: subnormals
are kept). -/
def FloatShape.round (f : FloatShape) (rm : Rounding) (m : Nat) (e : Int) : Nat :=
  if m = 0 then 0
  else
    let q := max ((Nat.log2 m : Int) + e - f.mb) f.emin
    let n := if q ≤ e then m * 2 ^ (e - q).toNat else roundShift rm m (q - e).toNat
    (q - f.emin).toNat * 2 ^ f.mb + n

/-- The finite number a magnitude code stands for. -/
def FloatShape.finite (f : FloatShape) (neg : Bool) (mag : Nat) : Num :=
  let x := mag / 2 ^ f.mb
  if x = 0 then .fin neg (mag % 2 ^ f.mb) f.emin
  else .fin neg (mag % 2 ^ f.mb + 2 ^ f.mb) (f.emin + (x - 1 : Nat))

/-- The magnitude code of infinity in an IEEE-like shape: exponent all ones, mantissa 0. -/
def FloatShape.infCode (f : FloatShape) : Nat := (2 ^ f.eb - 1) * 2 ^ f.mb

/-- The number an IEEE-like pattern (FP32, FP16, BF16, E5M2) stands for. -/
def FloatShape.decodeIeee (f : FloatShape) (v : Nat) : Num :=
  let neg := bit v (f.eb + f.mb)
  let mag := v % 2 ^ (f.eb + f.mb)
  if f.infCode < mag then .nan else if mag = f.infCode then .inf neg else f.finite neg mag

/-- The number an FP32 pattern stands for. -/
def F32.num (x : F32) : Num := shapeFP32.decodeIeee x.toNat

/-- The canonical FP32 NaN (R287). -/
def F32.nan : F32 := 0x7FC00000#32

/-- FP32 +0. -/
def F32.zero : F32 := 0#32
/-- FP32 1.0. -/
def F32.one : F32 := 0x3F800000#32

/-- An FP32 infinity. -/
def F32.inf (neg : Bool) : F32 := if neg then 0xFF800000#32 else 0x7F800000#32

/-- Attach a sign to an FP32 magnitude code; a code at or beyond infinity's is infinity (R297). -/
def F32.ofMag (neg : Bool) (mag : Nat) : F32 :=
  if shapeFP32.infCode ≤ mag then F32.inf neg
  else BitVec.ofNat 32 (mag + if neg then 2 ^ 31 else 0)

/-- Round an exact number to FP32, to nearest even. -/
def F32.ofNum : Num → F32
  | .nan => F32.nan
  | .inf neg => F32.inf neg
  | .fin neg m e => F32.ofMag neg (shapeFP32.round .rne m e)

/-- Is the pattern finite? -/
def F32.isFinite (x : F32) : Bool := match x.num with | .fin _ _ _ => true | _ => false
/-- Is the pattern a NaN? -/
def F32.isNan (x : F32) : Bool := match x.num with | .nan => true | _ => false
/-- The sign bit. -/
def F32.sign (x : F32) : Bool := bit x.toNat 31
/-- The magnitude code. -/
def F32.mag (x : F32) : Nat := x.toNat % 2 ^ 31
/-- The pattern with its sign flipped. -/
def F32.neg (x : F32) : F32 := x ^^^ 0x80000000#32

/-- A signed integer times a power of two, as a number; zero is +0. -/
def Num.ofInt (v : Int) (e : Int) : Num := .fin (decide (v < 0)) v.natAbs e

/-- The signed integer mantissa of a finite number. -/
def signed (neg : Bool) (m : Nat) : Int := if neg then - (m : Int) else m

/-- The exact sum of two finite numbers as (integer, exponent). -/
def exactAdd (a : Int) (ea : Int) (b : Int) (eb : Int) : Int × Int :=
  let e := min ea eb
  (a * (2 ^ (ea - e).toNat : Nat) + b * (2 ^ (eb - e).toNat : Nat), e)

/-- The sum of two numbers under IEEE 754, exact where finite: a zero sum is +0 unless both are -0. -/
def Num.add : Num → Num → Num
  | .nan, _ => .nan
  | _, .nan => .nan
  | .inf s, .inf t => if s = t then .inf s else .nan
  | .inf s, .fin _ _ _ => .inf s
  | .fin _ _ _, .inf t => .inf t
  | .fin s m e, .fin t n f =>
    if m = 0 ∧ n = 0 then .fin (s && t) 0 0
    else
      let r := exactAdd (signed s m) e (signed t n) f
      Num.ofInt r.1 r.2

/-- The product of two numbers under IEEE 754 and R296, exact where finite. -/
def Num.mul : Num → Num → Num
  | .nan, _ => .nan
  | _, .nan => .nan
  | .inf s, .inf t => .inf (s != t)
  | .inf s, .fin t n _ => if n = 0 then .nan else .inf (s != t)
  | .fin s m _, .inf t => if m = 0 then .nan else .inf (s != t)
  | .fin s m e, .fin t n f => .fin (s != t) (m * n) (e + f)

/-- Multiply by a power of two, exactly. -/
def Num.scale (k : Int) : Num → Num
  | .fin s m e => .fin s m (e + k)
  | x => x

/-- FP32 addition, round to nearest even (R299). -/
def F32.add (x y : F32) : F32 := F32.ofNum (x.num.add y.num)
/-- FP32 multiplication, round to nearest even. -/
def F32.mul (x y : F32) : F32 := F32.ofNum (x.num.mul y.num)
/-- FP32 subtraction. -/
def F32.sub (x y : F32) : F32 := F32.add x y.neg

/-- `m / n * 2 ^ e` rounded to FP32 (n not 0): the quotient is taken far below the last kept bit, with a sticky bit. -/
def F32.divMag (m n : Nat) (e : Int) : F32 :=
  let k : Nat := 400
  let q := m * 2 ^ k / n
  let st := if m * 2 ^ k % n = 0 then 0 else 1
  F32.ofMag false (shapeFP32.round .rne (2 * q + st) (e - k - 1))

/-- The order of two FP32 numbers, -0 below +0, NaN not compared (R257, R238). -/
def F32.key (x : F32) : Int := if x.sign then - (x.mag : Int) - 1 else x.mag

/-- IEEE 754 maximum: a NaN operand gives the canonical NaN, -0 ranks below +0 (R257). -/
def F32.max (x y : F32) : F32 := if x.isNan || y.isNan then F32.nan else if F32.key x < F32.key y then y else x
/-- IEEE 754 minimum (R257). -/
def F32.min (x y : F32) : F32 := if x.isNan || y.isNan then F32.nan else if F32.key y < F32.key x then y else x

/-! ### Formats -/

/-- The format codes of Table 6-1. -/
inductive Fmt where
  | none | int4 | int8 | int32 | e4m3 | e5m2 | mxfp4 | mxfp6e2m3 | mxfp6e3m2 | mxfp8e4m3 | mxfp8e5m2 | mxint8
  | fp16 | bf16 | fp32 | cpair
  deriving DecidableEq, Repr

/-- Decode a format code; a reserved code is none of the formats (R284). -/
def Fmt.ofCode : Nat → Option Fmt
  | 0 => some .none | 1 => some .int4 | 2 => some .int8 | 3 => some .int32 | 4 => some .e4m3 | 5 => some .e5m2
  | 6 => some .mxfp4 | 7 => some .mxfp6e2m3 | 8 => some .mxfp6e3m2 | 9 => some .mxfp8e4m3 | 10 => some .mxfp8e5m2
  | 11 => some .mxint8 | 12 => some .fp16 | 13 => some .bf16 | 14 => some .fp32 | 15 => some .cpair
  | _ => Option.none

/-- Element width in bits (Table 6-1). -/
def Fmt.width : Fmt → Nat
  | .none => 8 | .int4 => 4 | .int8 => 8 | .int32 => 32 | .e4m3 => 8 | .e5m2 => 8 | .mxfp4 => 4 | .mxfp6e2m3 => 6
  | .mxfp6e3m2 => 6 | .mxfp8e4m3 => 8 | .mxfp8e5m2 => 8 | .mxint8 => 8 | .fp16 => 16 | .bf16 => 16 | .fp32 => 32
  | .cpair => 64

/-- Does the format hold its elements in blocks of 32 with an E8M0 scale? -/
def Fmt.isMx : Fmt → Bool
  | .mxfp4 | .mxfp6e2m3 | .mxfp6e3m2 | .mxfp8e4m3 | .mxfp8e5m2 | .mxint8 => true
  | _ => false

/-- The row's operand classes. -/
inductive FmtClass where
  | c4 | c8 | c16 | other
  deriving DecidableEq, Repr

/-- The class of a format ("What the row accepts"). -/
def Fmt.cls : Fmt → FmtClass
  | .int4 | .mxfp4 => .c4
  | .int8 | .e4m3 | .e5m2 | .mxint8 | .mxfp8e4m3 | .mxfp8e5m2 | .mxfp6e2m3 | .mxfp6e3m2 => .c8
  | .fp16 | .bf16 => .c16
  | _ => .other

/-- An integer format, whose runs are summed exactly (R293). -/
def Fmt.isInt : Fmt → Bool
  | .int4 | .int8 | .mxint8 => true
  | _ => false

/-- The pairs MMA and MMA_CHAIN accept (Table 6-4). -/
def Fmt.pairOk (a b : Fmt) : Bool :=
  match a.cls, b.cls with
  | .c4, .c4 => a == b
  | .c8, .c8 => true
  | .c8, .c4 => true
  | .c16, .c16 => true
  | .c16, .c8 => true
  | _, _ => false

/-- The largest K per pass of a pair (Table 4-2). -/
def Fmt.kTile (a : Fmt) : Nat := if a.cls = .c16 then 2048 else 4096

/-- Elements per beat of a pair (Table 4-2). -/
def Fmt.perBeat (a b : Fmt) : Nat :=
  if a.cls = .c16 then 8 else if a.cls = .c4 ∧ b.cls = .c4 then 64 else 32

/-- Bytes of the scale area of a row of `l` elements (Table 6-3). -/
def Fmt.scaleArea (f : Fmt) (l : Nat) : Nat := if f.isMx then ceilDiv (ceilDiv l 32) 16 * 16 else 0

/-- Bytes of a row of `l` elements (R288). -/
def Fmt.rowBytes (f : Fmt) (l : Nat) : Nat := f.scaleArea l + ceilDiv (l * f.width) 8

/-- A little-endian number of `n` bytes read through `rd` at offset `o`. -/
def rdLe (rd : Nat → Byte) (o : Nat) : Nat → Nat
  | 0 => 0
  | n + 1 => (rd o).toNat + 256 * rdLe rd (o + 1) n

/-- The raw bits of element `p` of a row of `l` elements (Table 6-3). -/
def Fmt.raw (f : Fmt) (rd : Nat → Byte) (l p : Nat) : Nat :=
  let o := f.scaleArea l
  if f.width = 4 then bits (rd (o + p / 2)).toNat (4 * (p % 2)) 4
  else if f.width = 6 then bits (rdLe rd (o + p / 4 * 3) 3) (6 * (p % 4)) 6
  else rdLe rd (o + p * (f.width / 8)) (f.width / 8)

/-- Two's-complement value of `w` bits. -/
def toSigned (w v : Nat) : Int := if v < 2 ^ (w - 1) then v else (v : Int) - 2 ^ w

/-- The number raw element bits stand for, without a block scale (R285, R286). -/
def Fmt.elem (f : Fmt) (v : Nat) : Num :=
  match f with
  | .int4 => Num.ofInt (toSigned 4 v) 0
  | .int8 => Num.ofInt (toSigned 8 v) 0
  | .int32 => Num.ofInt (toSigned 32 v) 0
  | .mxint8 => Num.ofInt (toSigned 8 v) (-6)
  | .e4m3 | .mxfp8e4m3 =>
    if v % 128 = 127 then .nan else shapeE4M3.finite (bit v 7) (v % 128)
  | .e5m2 | .mxfp8e5m2 => shapeE5M2.decodeIeee v
  | .mxfp4 => shapeE2M1.finite (bit v 3) (v % 8)
  | .mxfp6e2m3 => shapeE2M3.finite (bit v 5) (v % 32)
  | .mxfp6e3m2 => shapeE3M2.finite (bit v 5) (v % 32)
  | .fp16 => shapeFP16.decodeIeee v
  | .bf16 => shapeBF16.decodeIeee v
  | .fp32 => shapeFP32.decodeIeee v
  | .cpair => F32.num (F32.add (BitVec.ofNat 32 v) (BitVec.ofNat 32 (v / 2 ^ 32)))
  | .none => Num.ofInt v 0

/-- The scale byte that applies to element `p` of a row: 127 for a format without blocks (R291). -/
def Fmt.scaleByte (f : Fmt) (rd : Nat → Byte) (p : Nat) : Nat := if f.isMx then (rd (p / 32)).toNat else 127

/-- Element `p` of a row; a block scale of 0xFF makes it NaN (R290). -/
def Fmt.elemAt (f : Fmt) (rd : Nat → Byte) (l p : Nat) : Num :=
  if f.isMx && f.scaleByte rd p == 255 then .nan else f.elem (f.raw rd l p)

/-- Element `p` of a row with its block scale applied, exactly (R309). -/
def Fmt.valueAt (f : Fmt) (rd : Nat → Byte) (l p : Nat) : Num :=
  (f.elemAt rd l p).scale ((f.scaleByte rd p : Int) - 127)

/-! ### Runs (R203 to R205, R294 to R298) -/

/-- The exponent of a number's leading bit, for a non-zero finite number. -/
def Num.lead : Num → Option Int
  | .fin _ m e => if m = 0 then none else some ((Nat.log2 m : Int) + e)
  | _ => none

/-- The largest leading exponent of a list of products. -/
def maxLead (ps : List Num) : Option Int :=
  ps.foldl (fun a p => match a, p.lead with
    | none, l => l
    | a, none => a
    | some x, some y => some (max x y)) none

/-- A product in units of `2 ^ q`, bits below the window dropped (R204). -/
def windowed (q : Int) : Num → Int
  | .fin s m e =>
    if q ≤ e then signed s (m * 2 ^ (e - q).toNat)
    else
      let sh := (q - e).toNat
      if m % 2 ^ sh = 0 then signed s (m / 2 ^ sh)
      else if Config.windowDropsDown && s then signed s (m / 2 ^ sh) - 1 else signed s (m / 2 ^ sh)
  | _ => 0

/-- The sum of a floating-point run in the 48-bit window below its largest product's leading bit (R204). -/
def windowSum (ps : List Num) : Num :=
  match maxLead ps with
  | none => .fin false 0 0
  | some l =>
    let q := l - 48
    Num.ofInt (ps.foldl (fun a p => a + windowed q p) 0) q

/-- The exact sum of an integer run. -/
def exactSum (ps : List Num) : Num :=
  ps.foldl (fun a p => match a, p with
    | .fin s m e, .fin t n f =>
      let r := exactAdd (signed s m) e (signed t n) f
      Num.ofInt r.1 r.2
    | _, _ => .nan) (.fin false 0 0)

/-- Is some product NaN? -/
def anyNan (ps : List Num) : Bool := ps.any (fun p => p == .nan)
/-- Is some product an infinity of this sign? -/
def anyInf (neg : Bool) (ps : List Num) : Bool := ps.any (fun p => p == .inf neg)

/-- The value of a run, promoted to FP32 with the sum of its block scale exponents (R204, R297, R298). -/
def runValue (isInt : Bool) (ps : List Num) (scale : Int) : F32 :=
  if anyNan ps || (anyInf true ps && anyInf false ps) then F32.nan
  else if anyInf true ps then F32.inf true
  else if anyInf false ps then F32.inf false
  else
    let s := if isInt then exactSum ps else windowSum ps
    match s with
    | .fin neg m e => if m = 0 then F32.zero else F32.ofNum (.fin neg m (e + scale))
    | x => F32.ofNum x

/-- The next 32 products of two operand rows from position `p`, positions at or beyond `hi` fed as zero. -/
def products (ea eb : Nat → Num) (p hi : Nat) : Nat → List Num
  | 0 => []
  | n + 1 => (if p < hi then (ea p).mul (eb p) else .fin false 0 0) :: products ea eb (p + 1) hi n

/-- One lane's sum of a pass over positions `p` to `hi`: each run promoted and added to the total in ascending order;
with no total yet the first run is written (R204, R205, R299). -/
def sumRuns (isInt : Bool) (ea eb : Nat → Num) (sc : Nat → Int) (hi : Nat) : Nat → Nat → Option F32 → Option F32
  | 0, _, t => t
  | n + 1, p, t =>
    let v := runValue isInt (products ea eb p hi 32) (sc p)
    sumRuns isInt ea eb sc hi n (p + 32) (some (match t with | none => v | some x => F32.add x v))

/-! ### Conversion (R304 to R308) -/

/-- The 64-bit mix of R308. -/
def srMix (x0 : BitVec 64) : Nat :=
  let x := x0 + 0x9E3779B97F4A7C15#64
  let x := (x ^^^ (x >>> 30)) * 0xBF5847681CE4E5B9#64
  let x := (x ^^^ (x >>> 27)) * 0x94D049BB133111EB#64
  let x := x ^^^ (x >>> 31)
  (x >>> 48).toNat

/-- The random bits of element (b, i, j) of the macro-operation with tag `t` (R308). -/
def srBits (t b i j : Nat) : Nat :=
  srMix ((BitVec.ofNat 64 t <<< 32) ^^^ (BitVec.ofNat 64 b <<< 48) ^^^ (BitVec.ofNat 64 i <<< 16) ^^^ BitVec.ofNat 64 j)

/-- A converted element: its bits, and whether it was clamped (R305). -/
structure Conv where
  bits : Nat
  clamped : Bool
  deriving DecidableEq, Repr

/-- Convert a number to an integer of `w` bits (Table 6-8). -/
def convInt (w : Nat) (rm : Rounding) : Num → Conv
  | .nan => ⟨0, true⟩
  | .inf neg => ⟨if neg then 2 ^ (w - 1) else 2 ^ (w - 1) - 1, true⟩
  | .fin neg m e =>
    let n := if 0 ≤ e then m * 2 ^ e.toNat else roundShift rm m (-e).toNat
    if neg then (if 2 ^ (w - 1) < n then ⟨2 ^ (w - 1), true⟩ else ⟨(2 ^ w - n) % 2 ^ w, false⟩)
    else (if 2 ^ (w - 1) ≤ n then ⟨2 ^ (w - 1) - 1, true⟩ else ⟨n, false⟩)

/-- Convert to FP16, BF16 or E5M2, given the canonical NaN (Table 6-8). -/
def convIeee (f : FloatShape) (nan : Nat) (rm : Rounding) : Num → Conv
  | .nan => ⟨nan, false⟩
  | .inf neg => ⟨f.infCode + (if neg then 2 ^ (f.eb + f.mb) else 0), true⟩
  | .fin neg m e =>
    let s := if neg then 2 ^ (f.eb + f.mb) else 0
    let c := f.round rm m e
    if f.infCode ≤ c then ⟨f.infCode + s, true⟩ else ⟨c + s, false⟩

/-- Convert to E4M3, saturating or not (Table 6-8). -/
def convE4M3 (nonsat : Bool) (rm : Rounding) : Num → Conv
  | .nan => ⟨0x7F, false⟩
  | .inf neg => ⟨if nonsat then 0x7F else if neg then 0xFE else 0x7E, true⟩
  | .fin neg m e =>
    let c := shapeE4M3.round rm m e
    if 0x7E < c then ⟨if nonsat then 0x7F else if neg then 0xFE else 0x7E, true⟩
    else ⟨c + (if neg then 128 else 0), false⟩

/-- Convert a block-scaled value to an MX floating-point element with largest magnitude code `top`, saturating. -/
def convMxFloat (f : FloatShape) (top : Nat) (rm : Rounding) : Num → Nat
  | .fin neg m e =>
    let c := min (f.round rm m e) top
    c + (if neg then 2 ^ (f.eb + f.mb) else 0)
  | _ => 0

/-- Convert a block-scaled value to an MX element (Table 6-8). -/
def convMxElem (f : Fmt) (rm : Rounding) (x : Num) : Nat :=
  match f with
  | .mxfp4 => convMxFloat shapeE2M1 7 rm x
  | .mxfp6e2m3 => convMxFloat shapeE2M3 31 rm x
  | .mxfp6e3m2 => convMxFloat shapeE3M2 31 rm x
  | .mxfp8e4m3 => convMxFloat shapeE4M3 0x7E rm x
  | .mxfp8e5m2 => convMxFloat shapeE5M2 0x7B rm x
  | .mxint8 => (convInt 8 rm (x.scale 6)).bits
  | _ => 0

/-- Convert to a target without blocks. -/
def convert (f : Fmt) (nonsat : Bool) (rm : Rounding) (x : F32) : Conv :=
  match f with
  | .int8 => convInt 8 rm x.num
  | .int4 => convInt 4 rm x.num
  | .fp16 => convIeee shapeFP16 0x7E00 rm x.num
  | .bf16 => convIeee shapeBF16 0x7FC0 rm x.num
  | .e5m2 => convIeee shapeE5M2 0x7E rm x.num
  | .e4m3 => convE4M3 nonsat rm x.num
  | _ => ⟨x.toNat, false⟩

/-- The exponent E of R306 for an MX target. -/
def mxExp : Fmt → Int
  | .mxfp8e4m3 => 8 | .mxfp8e5m2 => 15 | .mxfp6e3m2 => 4 | .mxfp6e2m3 => 2 | .mxfp4 => 2 | _ => 0

/-- The scale byte of a block of FP32 values (R306). -/
def mxScale (f : Fmt) (ys : List F32) : Nat :=
  if ys.any (fun y => !y.isFinite) then 255
  else
    match maxLead (ys.map F32.num) with
    | none => 0
    | some l => (max (-127) (min 127 (l - mxExp f)) + 127).toNat

/-- An element of a block with a scale byte, in a block that is not all zeros (R306). -/
def mxElem (f : Fmt) (rm : Rounding) (scale : Nat) (y : F32) : Nat :=
  if scale = 255 then 0 else convMxElem f rm (y.num.scale (127 - (scale : Int)))

/-- The largest finite value F of a counted target (R313, R315), as an integer. -/
def topOf : Fmt → Nat
  | .e4m3 => 448 | .e5m2 => 57344 | .int8 => 127 | .int4 => 7 | _ => 0

/-- One step of a legacy drain chain (Table 5-5): the step code, the tensor's element, the constant. -/
def legacyStep (code : Nat) (elem const y : F32) : F32 :=
  match code with
  | 1 => F32.add y elem
  | 2 => F32.mul y elem
  | 3 => F32.add y const
  | 4 => F32.mul y const
  | 5 => F32.max y const
  | 6 => F32.min y const
  | _ => y

/-- The steps of a legacy chain in order; a code of 0 ends the chain (R257). -/
def legacyChain (elem const : F32) : List Nat → F32 → F32
  | [], y => y
  | 0 :: _, y => y
  | c :: t, y => legacyChain elem const t (legacyStep c elem const y)

/-! The exact activations, by which R303 bounds what a core computes. Values are fixed-point, in units of 2^-256: every finite FP32 value is exact
in them, and what the computation drops is below 2^-200, far inside the bound. -/

/-- e^-t, for t at least 0. -/
def expNeg (t : Nat) : Nat :=
  let one := 2 ^ 256
  if 256 * one ≤ t then 0
  else
    let r := t / 2 ^ 16
    let v := (List.range 24).foldl (fun v i => one - r * v / ((24 - i) * one)) one
    (List.range 16).foldl (fun v _ => v * v / one) v

/-- 1 / (1 + e^-t). -/
def logistic (t : Int) : Int :=
  let one := 2 ^ 256
  let e := expNeg t.natAbs
  ((if t < 0 then e * one else one * one) / (one + e) : Nat)

/-- A finite value in units of 2^-256. -/
def F32.fixed (y : F32) : Int := match y.num with
  | .fin neg m e => signed neg m * 2 ^ (e + 256).toNat
  | _ => 0

/-- GELU, SiLU, sigmoid and tanh (ACT 2 to 5) of Table 6-7: 0.5 (1 + tanh u) is 1 / (1 + e^-2u). -/
def exactActivation (act : Nat) (y : Int) : Int :=
  match act with
  | 2 => y * logistic (2 * 79788456 * (1000000 * y + 44715 * y ^ 3 / 2 ^ 512) / 10 ^ 14) / 2 ^ 256
  | 3 => y * logistic y / 2 ^ 256
  | 4 => logistic y
  | _ => 2 * logistic (2 * y) - 2 ^ 256

/-- Is a value within 4 units in the last place of the exact one, or within 2^-126, whichever is larger (R303)? -/
def nearActivation (z : F32) (exact : Int) : Bool :=
  z.isFinite && decide ((z.fixed - exact).natAbs ≤ max (4 * 2 ^ (max exact.natAbs.log2 130 - 23)) (2 ^ 130))

/-- A finite input's activation (R303): the value that the cores give, a free one within the bound; the same on every core. -/
def finiteActivation (act : Nat) (y : F32) : F32 :=
  let exact := exactActivation act y.fixed
  let z := Config.activation act y
  if nearActivation z exact then z else F32.ofNum (.fin (decide (exact < 0)) exact.natAbs (-256))

/-- The activations of Table 6-7; a finite input of 2 to 5 other than -0 is a free value within the bound of R303. -/
def activate (act : Nat) (y : F32) : F32 :=
  if act = 0 then y
  else
    match y.num with
    | .nan => F32.nan
    | .inf neg =>
      match act with
      | 1 => if neg then F32.zero else F32.inf false
      | 2 | 3 => if neg then 0x80000000#32 else F32.inf false
      | 4 => if neg then F32.zero else F32.one
      | _ => if neg then 0xBF800000#32 else F32.one
    | .fin neg m _ =>
      if act = 1 then (if neg then F32.zero else y)
      else if neg ∧ m = 0 then (if act = 4 then 0x3F000000#32 else 0x80000000#32)
      else finiteActivation act y

/-- The compensated add of R320 on a pair (sum, error). -/
def compensatedAdd (s e x : F32) : F32 × F32 :=
  if !s.isFinite || !x.isFinite then (F32.add s x, F32.zero)
  else
    let t := F32.add s x
    if !t.isFinite then (t, F32.zero)
    else
      let z := F32.sub t s
      let err := F32.add (F32.sub s (F32.sub t z)) (F32.sub x z)
      (t, F32.add e err)

/-- The value of a compensated pair (R321). -/
def pairValue (s e : F32) : F32 := F32.add s e

end Sys2Proof.Machine
end

