-- ==== Sys2Proof/Machine/Registers.lean ====
section
/-! DEFINITION. The BAR2 register map: every register and field of the field maps of the spec (the tables named
beside each register), with its access type and its reset value. A reset value the spec gives as a place
(configuration store, identity memory, fuses) stands here as 0 and is named in assumption log entry 3. -/
namespace Sys2Proof.Machine

/-- The access types of Table 0-4. -/
inductive Acc where
  | ro | rw | rw1c | rws | rwl | wo | rc
  deriving DecidableEq, Repr

/-- One register field: the register's address, the field's lowest bit, width, reset value and access type. -/
structure Fld where
  addr : Nat
  lo : Nat
  width : Nat
  reset : Nat
  acc : Acc
  deriving DecidableEq, Repr

/-- The key of a field in the register file. -/
def Fld.key (f : Fld) : Nat := f.addr * 1024 + f.lo

/-- One register of the map: base address, array dimensions as (count, stride), width in bits, fields at index 0. -/
structure RegD where
  name : String
  base : Nat
  dims : List (Nat × Nat)
  width : Nat
  fields : List Fld
  deriving DecidableEq, Repr

/-! SVC_DIE_MAP: Table 1-5, 01_package_and_hierarchy.md. -/
/-- Bit p is 1 when physical die p passed power-on test -/
def Reg.SVC_DIE_MAP_DIE_PRESENT : Fld := ⟨0x8000, 0, 4, 0, .ro⟩
/-- Bit 4 + p is 1 when physical die p carries a logical die -/
def Reg.SVC_DIE_MAP_DIE_INSERVICE : Fld := ⟨0x8000, 4, 4, 0, .ro⟩
/-- Bits [2p + 9:2p + 8] hold the logical number of physical die p; meaningful only where DIE_INSERVICE is 1 -/
def Reg.SVC_DIE_MAP_LOG_OF_PHYS : Fld := ⟨0x8000, 8, 8, 0, .ro⟩
/-- Number of dies in service, 0 to 4 -/
def Reg.SVC_DIE_MAP_ACTIVE_DIES : Fld := ⟨0x8000, 16, 3, 0, .ro⟩
/-! SVC_CLU_MAP: Table 1-6, 01_package_and_hierarchy.md. -/
/-- Bit c is 1 when physical cluster c carries a logical cluster -/
def Reg.SVC_CLU_MAP_CLU_INSERVICE (i : Nat) : Fld := ⟨0x8010 + 8 * i, 0, 26, 0, .ro⟩
/-- Bit 32 + c is 1 when physical cluster c is retired -/
def Reg.SVC_CLU_MAP_CLU_RETIRED (i : Nat) : Fld := ⟨0x8010 + 8 * i, 32, 26, 0, .ro⟩
/-! SVC_CORE_MAP: Table 1-7, 01_package_and_hierarchy.md. -/
/-- Bit k is 1 when physical core k carries a logical core -/
def Reg.SVC_CORE_MAP_CORE_INSERVICE (i : Nat) (j : Nat) : Fld := ⟨0x8100 + 128 * i + 4 * j, 0, 9, 0, .ro⟩
/-- Bit 16 + k is 1 when physical core k is retired -/
def Reg.SVC_CORE_MAP_CORE_RETIRED (i : Nat) (j : Nat) : Fld := ⟨0x8100 + 128 * i + 4 * j, 16, 9, 0, .ro⟩
/-! SVC_HIER_FAULT: Table 1-9, 01_package_and_hierarchy.md. -/
/-- Record holds a fault -/
def Reg.SVC_HIER_FAULT_VALID : Fld := ⟨0x8400, 0, 1, 0, .rw1c⟩
/-- A further fault arrived while VALID was 1 -/
def Reg.SVC_HIER_FAULT_OVERFLOW : Fld := ⟨0x8400, 1, 1, 0, .rw1c⟩
/-- 0 engine, 1 core, 2 cluster, 3 die, 4 package, 5 span; 6 and 7 not used -/
def Reg.SVC_HIER_FAULT_LEVEL : Fld := ⟨0x8400, 2, 3, 0, .ro⟩
/-- Physical die -/
def Reg.SVC_HIER_FAULT_DIE : Fld := ⟨0x8400, 8, 2, 0, .ro⟩
/-- Physical cluster -/
def Reg.SVC_HIER_FAULT_CLUSTER : Fld := ⟨0x8400, 10, 5, 0, .ro⟩
/-- Physical core -/
def Reg.SVC_HIER_FAULT_CORE : Fld := ⟨0x8400, 15, 4, 0, .ro⟩
/-- Physical lane -/
def Reg.SVC_HIER_FAULT_LANE : Fld := ⟨0x8400, 19, 7, 0, .ro⟩
/-- Table 1-11 -/
def Reg.SVC_HIER_FAULT_KIND : Fld := ⟨0x8400, 32, 8, 0, .ro⟩
/-- Table 1-12 -/
def Reg.SVC_HIER_FAULT_ACTION : Fld := ⟨0x8400, 40, 8, 0, .ro⟩
/-! SVC_HIER_FAULT_EPOCH: Table 1-10, 01_package_and_hierarchy.md. -/
/-- Epoch number at which the fault was found -/
def Reg.SVC_HIER_FAULT_EPOCH_EPOCH : Fld := ⟨0x8408, 0, 48, 0, .ro⟩
/-! TRN_CTRL: Table 2-4, 02_transit_and_ephemeris.md. -/
/-- 0 automatic (R68), 1 pin, 2 in-band, 3 none -/
def Reg.TRN_CTRL_SOURCE : Fld := ⟨0x10000, 0, 2, 0, .rw⟩
/-- 0 rising edge of TRANSIT± marks the boundary, 1 falling edge -/
def Reg.TRN_CTRL_EDGE : Fld := ⟨0x10000, 2, 1, 0, .rw⟩
/-- Writing 1 forces ACQUIRE -/
def Reg.TRN_CTRL_REACQUIRE : Fld := ⟨0x10000, 3, 1, 0, .wo⟩
/-! TRN_STATUS: Table 2-5, 02_transit_and_ephemeris.md. -/
/-- 0 FREE_RUN, 1 ACQUIRE, 2 LOCKED, 3 HOLDOVER; 4 to 7 not used -/
def Reg.TRN_STATUS_STATE : Fld := ⟨0x10004, 0, 3, 0, .ro⟩
/-- 1 pin, 2 in-band, 3 none; 0 not used; with SOURCE "automatic", reads 1 from the time the clock drive first takes pin edges after a cold reset (R68) -/
def Reg.TRN_STATUS_SOURCE_USED : Fld := ⟨0x10004, 3, 2, 3, .ro⟩
/-- Epochs spent in HOLDOVER, 0 to 64 -/
def Reg.TRN_STATUS_HOLDOVER_EPOCHS : Fld := ⟨0x10004, 6, 7, 0, .ro⟩
/-- Eight edges passed without lock -/
def Reg.TRN_STATUS_ACQ_TIMEOUT : Fld := ⟨0x10004, 16, 1, 0, .rw1c⟩
/-- Epoch number stepped by more than one -/
def Reg.TRN_STATUS_EPOCH_STEP : Fld := ⟨0x10004, 17, 1, 0, .rw1c⟩
/-- A non-increasing epoch number was refused -/
def Reg.TRN_STATUS_EPOCH_REFUSED : Fld := ⟨0x10004, 18, 1, 0, .rw1c⟩
/-- A period out of range was written -/
def Reg.TRN_STATUS_PERIOD_REFUSED : Fld := ⟨0x10004, 19, 1, 0, .rw1c⟩
/-- The clock drive left LOCKED -/
def Reg.TRN_STATUS_LOST_LOCK : Fld := ⟨0x10004, 20, 1, 0, .rw1c⟩
/-- A hard alignment shortened or lengthened an epoch -/
def Reg.TRN_STATUS_EPOCH_RESHAPED : Fld := ⟨0x10004, 21, 1, 0, .rw1c⟩
/-! TRN_EPOCH: Table 2-6, 02_transit_and_ephemeris.md. -/
/-- Current epoch number -/
def Reg.TRN_EPOCH_EPOCH : Fld := ⟨0x10008, 0, 48, 0, .ro⟩
/-! TRN_PHASE: Table 2-7, 02_transit_and_ephemeris.md. -/
/-- Current phase -/
def Reg.TRN_PHASE_PHASE : Fld := ⟨0x10010, 0, 16, 0, .ro⟩
/-- Error e of the last accepted edge, two's complement -/
def Reg.TRN_PHASE_LAST_ERROR : Fld := ⟨0x10010, 16, 16, 0, .ro⟩
/-! TRN_PERIOD: Table 2-8, 02_transit_and_ephemeris.md. -/
/-- Period of the current epoch in ns -/
def Reg.TRN_PERIOD_PERIOD : Fld := ⟨0x10014, 0, 32, 10000000, .ro⟩
/-! TRN_DEFAULT_PERIOD: Table 2-9, 02_transit_and_ephemeris.md. -/
/-- Free-running period in ns; the reset value is 10 ms; the chart may set it; R89 applies -/
def Reg.TRN_DEFAULT_PERIOD_DEFAULT_PERIOD : Fld := ⟨0x10018, 0, 32, 10000000, .rw⟩
/-! TRN_EPOCH_SET: Table 2-10, 02_transit_and_ephemeris.md. -/
/-- Number for the next epoch (R90) -/
def Reg.TRN_EPOCH_SET_VALUE : Fld := ⟨0x10020, 0, 48, 0, .wo⟩
/-! TRN_NEXT_EPOCH: Table 2-11, 02_transit_and_ephemeris.md. -/
/-- Epoch at whose boundary NEXT_PERIOD applies; writes ignored with the in-band source -/
def Reg.TRN_NEXT_EPOCH_NEXT_EPOCH : Fld := ⟨0x10028, 0, 48, 0, .rw⟩
/-! TRN_NEXT_PERIOD: Table 2-12, 02_transit_and_ephemeris.md. -/
/-- Announced period in ns, 0 for none; writes ignored with the in-band source; R89 applies -/
def Reg.TRN_NEXT_PERIOD_NEXT_PERIOD : Fld := ⟨0x10030, 0, 32, 0, .rw⟩
/-! TRN_COUNT: Table 2-13, 02_transit_and_ephemeris.md. -/
/-- Accepted edges or messages; wraps -/
def Reg.TRN_COUNT_EDGES : Fld := ⟨0x10038, 0, 32, 0, .ro⟩
/-- Stray edges and refused messages; wraps -/
def Reg.TRN_COUNT_STRAY : Fld := ⟨0x10038, 32, 32, 0, .ro⟩
/-! TRN_INBAND: Table 2-14, 02_transit_and_ephemeris.md. -/
/-- Sender of the last accepted message -/
def Reg.TRN_INBAND_SRC_MODULE : Fld := ⟨0x10040, 0, 12, 0, .ro⟩
/-- Its HOPS on arrival -/
def Reg.TRN_INBAND_HOPS : Fld := ⟨0x10040, 16, 8, 0, .ro⟩
/-- Its PATH_DELAY on arrival, in units of 0.25 ns -/
def Reg.TRN_INBAND_PATH_DELAY : Fld := ⟨0x10040, 32, 32, 0, .ro⟩
/-! EPH_CTRL: Table 2-19, 02_transit_and_ephemeris.md. -/
/-- Writing 1 validates and arms (R107) -/
def Reg.EPH_CTRL_ARM : Fld := ⟨0x18000, 0, 1, 0, .wo⟩
/-- Writing 1 disarms (R110) -/
def Reg.EPH_CTRL_DISARM : Fld := ⟨0x18000, 1, 1, 0, .wo⟩
/-! EPH_STATUS: Table 2-20, 02_transit_and_ephemeris.md. -/
/-- Physical bank now active -/
def Reg.EPH_STATUS_ACTIVE_BANK : Fld := ⟨0x18004, 0, 1, 0, .ro⟩
/-- A swap is armed -/
def Reg.EPH_STATUS_ARMED : Fld := ⟨0x18004, 1, 1, 0, .ro⟩
/-- R112 -/
def Reg.EPH_STATUS_OVERLAP_GROUPS : Fld := ⟨0x18004, 2, 1, 0, .ro⟩
/-- R106 -/
def Reg.EPH_STATUS_WRITE_WHILE_ARMED : Fld := ⟨0x18004, 3, 1, 0, .rw1c⟩
/-- Table 2-18 -/
def Reg.EPH_STATUS_ARM_ERR : Fld := ⟨0x18004, 8, 4, 0, .ro⟩
/-- Entry or group named by ARM_ERR -/
def Reg.EPH_STATUS_BAD_ENTRY : Fld := ⟨0x18004, 16, 10, 0, .ro⟩
/-! EPH_SWAP_EPOCH: Table 2-21, 02_transit_and_ephemeris.md. -/
/-- R108; writes ignored while a swap is armed (R106) -/
def Reg.EPH_SWAP_EPOCH_SWAP_EPOCH : Fld := ⟨0x18008, 0, 48, 0, .rw⟩
/-! EPH_CYCLE: Table 2-22, 02_transit_and_ephemeris.md. -/
/-- Cycle length for the shadow bank; writes ignored while a swap is armed (R106) -/
def Reg.EPH_CYCLE_SHADOW_LEN : Fld := ⟨0x18010, 0, 7, 1, .rw⟩
/-- Cycle length in force -/
def Reg.EPH_CYCLE_ACTIVE_LEN : Fld := ⟨0x18010, 8, 7, 1, .ro⟩
/-- Cycle index of the current epoch -/
def Reg.EPH_CYCLE_CYCLE_INDEX : Fld := ⟨0x18010, 16, 6, 0, .ro⟩
/-! EPH_GRANT: Table 2-23, 02_transit_and_ephemeris.md. -/
/-- Bit c is 1 while any window of class c is open -/
def Reg.EPH_GRANT_OPEN : Fld := ⟨0x18014, 1, 7, 0, .ro⟩
/-! EPH_SWAPS: Table 2-24, 02_transit_and_ephemeris.md. -/
/-- Swaps taken; wraps -/
def Reg.EPH_SWAPS_SWAPS : Fld := ⟨0x18018, 0, 32, 0, .ro⟩
/-! EPH_OVERRUN: Table 2-25, 02_transit_and_ephemeris.md. -/
/-- R104 -/
def Reg.EPH_OVERRUN_OVERRUNS (i : Nat) : Fld := ⟨0x18040 + 4 * i, 0, 32, 0, .rc⟩
/-! EPH_STARVE: Table 2-26, 02_transit_and_ephemeris.md. -/
/-- Target-cycles starved: one for each starved target in each cycle (R105) -/
def Reg.EPH_STARVE_STARVED_CYCLES (i : Nat) : Fld := ⟨0x18060 + 4 * i, 0, 32, 0, .rc⟩
/-! CHT_CMD: Table 3-18, 03_charts.md. -/
/-- 1 ERASE_BANK, 2 PROGRAM_BANK, 3 VERIFY_BANK, 4 LOAD_FULL, 5 LOAD_PARTIAL, 6 SET_OPTION, 7 ABORT (stops an erase, program or verification; not an ap... -/
def Reg.CHT_CMD_OP : Fld := ⟨0x20000, 0, 4, 0, .wo⟩
/-- 0 bank A, 1 bank B -/
def Reg.CHT_CMD_BANK : Fld := ⟨0x20000, 4, 1, 0, .wo⟩
/-- Logical die for LOAD_PARTIAL -/
def Reg.CHT_CMD_DIE : Fld := ⟨0x20000, 8, 2, 0, .wo⟩
/-- Logical cluster for LOAD_PARTIAL -/
def Reg.CHT_CMD_CLUSTER : Fld := ⟨0x20000, 10, 5, 0, .wo⟩
/-! CHT_STATUS: Table 3-19, 03_charts.md. -/
/-- A command runs -/
def Reg.CHT_STATUS_BUSY : Fld := ⟨0x20004, 0, 1, 0, .ro⟩
/-- 0 idle, 1 verifying, 2 quiescing, 3 applying, 4 waiting for the boundary, 5 writing flash -/
def Reg.CHT_STATUS_STAGE : Fld := ⟨0x20004, 1, 3, 0, .ro⟩
/-- A command ended -/
def Reg.CHT_STATUS_DONE : Fld := ⟨0x20004, 4, 1, 0, .rw1c⟩
/-- Bank of the chart in force -/
def Reg.CHT_STATUS_IN_FORCE_BANK : Fld := ⟨0x20004, 5, 1, 0, .ro⟩
/-- The built-in chart is in force -/
def Reg.CHT_STATUS_BUILTIN : Fld := ⟨0x20004, 6, 1, 0, .ro⟩
/-- A start-up fallback was taken -/
def Reg.CHT_STATUS_FALLBACK_USED : Fld := ⟨0x20004, 7, 1, 0, .rw1c⟩
/-- Table 3-16, for the last command -/
def Reg.CHT_STATUS_ERR : Fld := ⟨0x20004, 8, 5, 0, .ro⟩
/-- Index of the failing frame, counted from 0 -/
def Reg.CHT_STATUS_ERR_FRAME : Fld := ⟨0x20004, 16, 16, 0, .ro⟩
/-! CHT_ERR_DETAIL: Table 3-20, 03_charts.md. -/
/-- Image byte offset of the first failing field -/
def Reg.CHT_ERR_DETAIL_OFFSET : Fld := ⟨0x20008, 0, 28, 0, .ro⟩
/-- Table 2-18 value for an EPHEMERIS failure; otherwise 0 -/
def Reg.CHT_ERR_DETAIL_SUBCODE : Fld := ⟨0x20008, 28, 4, 0, .ro⟩
/-! CHT_BANK_STATE: Table 3-21, 03_charts.md. -/
/-- 0 erased, 1 written and not verified (also after an erase or program cut short, R711), 2 verified, 3 failed verification; kept across every reset (... -/
def Reg.CHT_BANK_STATE_STATE_A : Fld := ⟨0x2000c, 0, 2, 0, .ro⟩
/-- As STATE_A -/
def Reg.CHT_BANK_STATE_STATE_B : Fld := ⟨0x2000c, 2, 2, 0, .ro⟩
/-! CHT_DMA_ADDR: Table 3-22, 03_charts.md. -/
/-- Host address of the data for PROGRAM_BANK or SET_OPTION; 4 KiB aligned -/
def Reg.CHT_DMA_ADDR_ADDR : Fld := ⟨0x20010, 0, 64, 0, .rw⟩
/-! CHT_DMA_LEN: Table 3-23, 03_charts.md. -/
/-- Bytes to transfer; a multiple of 4 KiB, at most 16 MiB; 4 KiB for SET_OPTION; 0 completes with no access -/
def Reg.CHT_DMA_LEN_LEN : Fld := ⟨0x20018, 0, 32, 0, .rw⟩
/-! CHT_NEXT_OFFSET: Table 3-24, 03_charts.md. -/
/-- Next offset that PROGRAM_BANK may write in the inactive bank (R135) -/
def Reg.CHT_NEXT_OFFSET_OFFSET : Fld := ⟨0x2001c, 0, 32, 0, .ro⟩
/-! CHT_AUTH_ADDR: Table 3-25, 03_charts.md. -/
/-- Host address of the authorisation block for SET_OPTION; 0 for none -/
def Reg.CHT_AUTH_ADDR_ADDR : Fld := ⟨0x20020, 0, 64, 0, .rw⟩
/-! CHT_IN_FORCE: Table 3-26, 03_charts.md. -/
/-- CHART_ID of the chart in force; 0 for the built-in chart -/
def Reg.CHT_IN_FORCE_CHART_ID : Fld := ⟨0x20028, 0, 64, 0, .ro⟩
/-! CHT_IN_FORCE_VER: Table 3-27, 03_charts.md. -/
/-- Of the chart in force -/
def Reg.CHT_IN_FORCE_VER_CHART_VERSION : Fld := ⟨0x20030, 0, 32, 0, .ro⟩
/-- Of the chart in force -/
def Reg.CHT_IN_FORCE_VER_SECURITY_VERSION : Fld := ⟨0x20030, 32, 32, 0, .ro⟩
/-! CHT_LOAD_EPOCH: Table 3-28, 03_charts.md. -/
/-- Epoch whose boundary brought the chart into force -/
def Reg.CHT_LOAD_EPOCH_EPOCH : Fld := ⟨0x20038, 0, 48, 0, .ro⟩
/-! CHT_COUNT: Table 3-29, 03_charts.md. -/
/-- Charts from a bank brought into force, at start-up and at run time; the built-in chart is not counted (R151); wraps -/
def Reg.CHT_COUNT_FULL_LOADS : Fld := ⟨0x20040, 0, 16, 0, .ro⟩
/-- Partial loads completed; wraps -/
def Reg.CHT_COUNT_PARTIAL_LOADS : Fld := ⟨0x20040, 16, 16, 0, .ro⟩
/-! CPL_COMMIT: Table 3-30, 03_charts.md. -/
/-- Writing commits the group (R165) -/
def Reg.CPL_COMMIT_GROUP : Fld := ⟨0x28000, 0, 16, 0, .wo⟩
/-! CPL_STATUS: Table 3-31, 03_charts.md. -/
/-- Group of the last commit -/
def Reg.CPL_STATUS_LAST_GROUP : Fld := ⟨0x28004, 0, 16, 0, .ro⟩
/-- 0 applied, 1 pending, 2 refused, 3 discarded by a full load -/
def Reg.CPL_STATUS_LAST_RESULT : Fld := ⟨0x28004, 16, 2, 0, .ro⟩
/-- R166; also set by R167 -/
def Reg.CPL_STATUS_WRITE_WHILE_PENDING : Fld := ⟨0x28004, 18, 1, 0, .rw1c⟩
/-- An operation is held (R168) -/
def Reg.CPL_STATUS_HOLD_ACTIVE : Fld := ⟨0x28004, 19, 1, 0, .ro⟩
/-- R169 -/
def Reg.CPL_STATUS_HOLD_TIMEOUT : Fld := ⟨0x28004, 20, 1, 0, .rw1c⟩
/-! CPL_APPLIED_EPOCH: Table 3-32, 03_charts.md. -/
/-- Epoch in which the last commit was applied -/
def Reg.CPL_APPLIED_EPOCH_EPOCH : Fld := ⟨0x28008, 0, 48, 0, .ro⟩
/-! CPL_HOLD: Table 3-33, 03_charts.md. -/
/-- Group of the oldest current hold -/
def Reg.CPL_HOLD_HOLD_GROUP : Fld := ⟨0x28010, 0, 16, 0, .ro⟩
/-- Holds begun -/
def Reg.CPL_HOLD_HOLD_COUNT : Fld := ⟨0x28010, 16, 16, 0, .rc⟩
/-! CPL_HOLD_LIMIT: Table 3-34, 03_charts.md. -/
/-- Boundaries a hold may last, 1 to 255; a write of 0 is ignored -/
def Reg.CPL_HOLD_LIMIT_LIMIT : Fld := ⟨0x28014, 0, 8, 16, .rw⟩
/-! SEQ_CORE_STATUS: Table 4-12, 04_rows_and_lanes.md. -/
/-- Table 4-13 -/
def Reg.SEQ_CORE_STATUS_STATE (i : Nat) (j : Nat) (k : Nat) : Fld := ⟨0x100800 + 262144 * i + 8192 * j + 64 * k, 0, 3, 0, .ro⟩
/-- Mode of the last beat to enter the row -/
def Reg.SEQ_CORE_STATUS_MODE (i : Nat) (j : Nat) (k : Nat) : Fld := ⟨0x100800 + 262144 * i + 8192 * j + 64 * k, 3, 2, 0, .ro⟩
/-- 0 FREE, 1 ACCUM, 2 DRAIN; 3 not used -/
def Reg.SEQ_CORE_STATUS_BANK0 (i : Nat) (j : Nat) (k : Nat) : Fld := ⟨0x100800 + 262144 * i + 8192 * j + 64 * k, 8, 2, 0, .ro⟩
/-- As BANK0 -/
def Reg.SEQ_CORE_STATUS_BANK1 (i : Nat) (j : Nat) (k : Nat) : Fld := ⟨0x100800 + 262144 * i + 8192 * j + 64 * k, 10, 2, 0, .ro⟩
/-- 0 none, 1 feeder, 2 weight, 3 drain, 4 ramp-up; others not used -/
def Reg.SEQ_CORE_STATUS_FREEZE_CAUSE (i : Nat) (j : Nat) (k : Nat) : Fld := ⟨0x100800 + 262144 * i + 8192 * j + 64 * k, 12, 3, 0, .ro⟩
/-- S, 0 to 2 -/
def Reg.SEQ_CORE_STATUS_SPARE_IN_USE (i : Nat) (j : Nat) (k : Nat) : Fld := ⟨0x100800 + 262144 * i + 8192 * j + 64 * k, 16, 2, 0, .ro⟩
/-- Retired lanes in the row, 0 to 2 -/
def Reg.SEQ_CORE_STATUS_LANES_RETIRED (i : Nat) (j : Nat) (k : Nat) : Fld := ⟨0x100800 + 262144 * i + 8192 * j + 64 * k, 18, 2, 0, .ro⟩
/-- Allowed modes from the chart -/
def Reg.SEQ_CORE_STATUS_MODES (i : Nat) (j : Nat) (k : Nat) : Fld := ⟨0x100800 + 262144 * i + 8192 * j + 64 * k, 20, 4, 0, .ro⟩
/-- From the chart -/
def Reg.SEQ_CORE_STATUS_DEFAULT_MODE (i : Nat) (j : Nat) (k : Nat) : Fld := ⟨0x100800 + 262144 * i + 8192 * j + 64 * k, 24, 2, 0, .ro⟩
/-- Physical number of the first bypassed lane -/
def Reg.SEQ_CORE_STATUS_BYP_A (i : Nat) (j : Nat) (k : Nat) : Fld := ⟨0x100800 + 262144 * i + 8192 * j + 64 * k, 32, 7, 0, .ro⟩
/-- BYP_A holds a lane -/
def Reg.SEQ_CORE_STATUS_BYP_A_V (i : Nat) (j : Nat) (k : Nat) : Fld := ⟨0x100800 + 262144 * i + 8192 * j + 64 * k, 39, 1, 0, .ro⟩
/-- Physical number of the second bypassed lane -/
def Reg.SEQ_CORE_STATUS_BYP_B (i : Nat) (j : Nat) (k : Nat) : Fld := ⟨0x100800 + 262144 * i + 8192 * j + 64 * k, 40, 7, 0, .ro⟩
/-- BYP_B holds a lane -/
def Reg.SEQ_CORE_STATUS_BYP_B_V (i : Nat) (j : Nat) (k : Nat) : Fld := ⟨0x100800 + 262144 * i + 8192 * j + 64 * k, 47, 1, 0, .ro⟩
/-- From the chart, 1 to 64 -/
def Reg.SEQ_CORE_STATUS_RAMP_LIMIT (i : Nat) (j : Nat) (k : Nat) : Fld := ⟨0x100800 + 262144 * i + 8192 * j + 64 * k, 48, 7, 64, .ro⟩
/-- From the chart -/
def Reg.SEQ_CORE_STATUS_EYE_EN (i : Nat) (j : Nat) (k : Nat) : Fld := ⟨0x100800 + 262144 * i + 8192 * j + 64 * k, 55, 1, 0, .ro⟩
/-! SEQ_CORE_FREEZE: Table 4-14, 04_rows_and_lanes.md. -/
/-- Cycles frozen by the feeder; saturates at 0xFFFF; a cycle with several causes counts in one field only (R713) -/
def Reg.SEQ_CORE_FREEZE_FEED (i : Nat) (j : Nat) (k : Nat) : Fld := ⟨0x100808 + 262144 * i + 8192 * j + 64 * k, 0, 16, 0, .rc⟩
/-- Cycles frozen by the weight front; saturates -/
def Reg.SEQ_CORE_FREEZE_WEIGHT (i : Nat) (j : Nat) (k : Nat) : Fld := ⟨0x100808 + 262144 * i + 8192 * j + 64 * k, 16, 16, 0, .rc⟩
/-- Cycles frozen by the drain; stays 0 for walks that the tensor sequencer issues (R714); saturates -/
def Reg.SEQ_CORE_FREEZE_DRAIN (i : Nat) (j : Nat) (k : Nat) : Fld := ⟨0x100808 + 262144 * i + 8192 * j + 64 * k, 32, 16, 0, .rc⟩
/-- Cycles frozen for ramp-up; saturates -/
def Reg.SEQ_CORE_FREEZE_RAMP (i : Nat) (j : Nat) (k : Nat) : Fld := ⟨0x100808 + 262144 * i + 8192 * j + 64 * k, 48, 16, 0, .rc⟩
/-! SEQ_CORE_DUMMY: Table 4-15, 04_rows_and_lanes.md. -/
/-- Lane-cycles of dummy operations; wraps -/
def Reg.SEQ_CORE_DUMMY_LANE_CYCLES (i : Nat) (j : Nat) (k : Nat) : Fld := ⟨0x100810 + 262144 * i + 8192 * j + 64 * k, 0, 48, 0, .ro⟩
/-! SEQ_CORE_ACTIVE: Table 4-16, 04_rows_and_lanes.md. -/
/-- Advancing cycles with at least one real beat in the row; wraps -/
def Reg.SEQ_CORE_ACTIVE_CYCLES (i : Nat) (j : Nat) (k : Nat) : Fld := ⟨0x100818 + 262144 * i + 8192 * j + 64 * k, 0, 48, 0, .ro⟩
/-! SEQ_CORE_ECC: Table 4-17, 04_rows_and_lanes.md. -/
/-- Corrected plates errors; saturates -/
def Reg.SEQ_CORE_ECC_PLATES_CORR (i : Nat) (j : Nat) (k : Nat) : Fld := ⟨0x100820 + 262144 * i + 8192 * j + 64 * k, 0, 16, 0, .rc⟩
/-- Corrected weight and scale register errors; saturates -/
def Reg.SEQ_CORE_ECC_WREG_CORR (i : Nat) (j : Nat) (k : Nat) : Fld := ⟨0x100820 + 262144 * i + 8192 * j + 64 * k, 16, 16, 0, .rc⟩
/-- Corrected accumulator errors; saturates -/
def Reg.SEQ_CORE_ECC_ACC_CORR (i : Nat) (j : Nat) (k : Nat) : Fld := ⟨0x100820 + 262144 * i + 8192 * j + 64 * k, 32, 16, 0, .rc⟩
/-- Uncorrectable errors of any of these; saturates -/
def Reg.SEQ_CORE_ECC_UNCORR (i : Nat) (j : Nat) (k : Nat) : Fld := ⟨0x100820 + 262144 * i + 8192 * j + 64 * k, 48, 16, 0, .rc⟩
/-! SEQ_CORE_CE: Table 4-18, 04_rows_and_lanes.md. -/
/-- The control engine is running a segment -/
def Reg.SEQ_CORE_CE_BUSY (i : Nat) (j : Nat) (k : Nat) : Fld := ⟨0x100828 + 262144 * i + 8192 * j + 64 * k, 0, 1, 0, .ro⟩
/-- 0 none, 1 illegal instruction, 2 access outside partitions, 3 instruction bound exceeded, 4 watchdog; others not used -/
def Reg.SEQ_CORE_CE_LAST_FAULT (i : Nat) (j : Nat) (k : Nat) : Fld := ⟨0x100828 + 262144 * i + 8192 * j + 64 * k, 1, 3, 0, .ro⟩
/-! SEQ_STATUS: Table 5-11, 05_tensor_sequencer.md. -/
/-- 0 idle, 1 running, 2 halted, 3 saving or restoring a context, 4 waiting for a partial chart load, 5 not in service; 6 and 7 not used -/
def Reg.SEQ_STATUS_STATE (i : Nat) (j : Nat) : Fld := ⟨0x100000 + 262144 * i + 8192 * j, 0, 3, 5, .ro⟩
/-- A condition of R264 holds now -/
def Reg.SEQ_STATUS_SEL_UNSPEC (i : Nat) (j : Nat) : Fld := ⟨0x100000 + 262144 * i + 8192 * j, 3, 1, 0, .ro⟩
/-- Macro-operations waiting; saturates at 255 -/
def Reg.SEQ_STATUS_QUEUE (i : Nat) (j : Nat) : Fld := ⟨0x100000 + 262144 * i + 8192 * j, 8, 8, 0, .ro⟩
/-! SEQ_CURRENT: Table 5-12, 05_tensor_sequencer.md. -/
/-- Macro-operation in progress; 0 for none -/
def Reg.SEQ_CURRENT_OPCODE (i : Nat) (j : Nat) : Fld := ⟨0x100008 + 262144 * i + 8192 * j, 0, 8, 0, .ro⟩
/-- Its TAG -/
def Reg.SEQ_CURRENT_TAG (i : Nat) (j : Nat) : Fld := ⟨0x100008 + 262144 * i + 8192 * j, 32, 32, 0, .ro⟩
/-! SEQ_WALK: Table 5-13, 05_tensor_sequencer.md. -/
/-- Batch of the tile in progress -/
def Reg.SEQ_WALK_BATCH (i : Nat) (j : Nat) : Fld := ⟨0x100010 + 262144 * i + 8192 * j, 0, 16, 0, .ro⟩
/-- m0 / mt -/
def Reg.SEQ_WALK_M_TILE (i : Nat) (j : Nat) : Fld := ⟨0x100010 + 262144 * i + 8192 * j, 16, 16, 0, .ro⟩
/-- n0 / 512 -/
def Reg.SEQ_WALK_N_TILE (i : Nat) (j : Nat) : Fld := ⟨0x100010 + 262144 * i + 8192 * j, 32, 16, 0, .ro⟩
/-- k0 / kt -/
def Reg.SEQ_WALK_K_TILE (i : Nat) (j : Nat) : Fld := ⟨0x100010 + 262144 * i + 8192 * j, 48, 16, 0, .ro⟩
/-! SEQ_FAULT: Table 5-14, 05_tensor_sequencer.md. -/
/-- Record holds a fault -/
def Reg.SEQ_FAULT_VALID (i : Nat) (j : Nat) : Fld := ⟨0x100018 + 262144 * i + 8192 * j, 0, 1, 0, .rw1c⟩
/-- R241 -/
def Reg.SEQ_FAULT_OVERFLOW (i : Nat) (j : Nat) : Fld := ⟨0x100018 + 262144 * i + 8192 * j, 1, 1, 0, .rw1c⟩
/-- Table 5-7 -/
def Reg.SEQ_FAULT_CODE (i : Nat) (j : Nat) : Fld := ⟨0x100018 + 262144 * i + 8192 * j, 8, 8, 0, .ro⟩
/-- Of the faulted macro-operation -/
def Reg.SEQ_FAULT_OPCODE (i : Nat) (j : Nat) : Fld := ⟨0x100018 + 262144 * i + 8192 * j, 16, 8, 0, .ro⟩
/-- Its TAG -/
def Reg.SEQ_FAULT_TAG (i : Nat) (j : Nat) : Fld := ⟨0x100018 + 262144 * i + 8192 * j, 32, 32, 0, .ro⟩
/-! SEQ_FAULT_TILE: Table 5-15, 05_tensor_sequencer.md. -/
/-- The faulted tile, laid out as SEQ_WALK; zero for faults found at decode -/
def Reg.SEQ_FAULT_TILE_TILE (i : Nat) (j : Nat) : Fld := ⟨0x100020 + 262144 * i + 8192 * j, 0, 64, 0, .ro⟩
/-! SEQ_FAULT_ACC: Table 5-16, 05_tensor_sequencer.md. -/
/-- For physical core k: bits [4k + 1:4k] bank 0, [4k + 3:4k + 2] bank 1; 0 FREE, 1 ACCUM, 2 DRAIN -/
def Reg.SEQ_FAULT_ACC_BANKS (i : Nat) (j : Nat) : Fld := ⟨0x100028 + 262144 * i + 8192 * j, 0, 36, 0, .ro⟩
/-- Live accumulator tiles the order needed; saturates at 15 -/
def Reg.SEQ_FAULT_ACC_NEEDED (i : Nat) (j : Nat) : Fld := ⟨0x100028 + 262144 * i + 8192 * j, 40, 4, 0, .ro⟩
/-- Live accumulator tiles held -/
def Reg.SEQ_FAULT_ACC_HELD (i : Nat) (j : Nat) : Fld := ⟨0x100028 + 262144 * i + 8192 * j, 44, 4, 0, .ro⟩
/-! SEQ_MACROS: Table 5-17, 05_tensor_sequencer.md. -/
/-- Macro-operations completed successfully; wraps -/
def Reg.SEQ_MACROS_COMPLETED (i : Nat) (j : Nat) : Fld := ⟨0x100030 + 262144 * i + 8192 * j, 0, 48, 0, .ro⟩
/-! SEQ_TILES: Table 5-18, 05_tensor_sequencer.md. -/
/-- Tiles executed; wraps -/
def Reg.SEQ_TILES_EXECUTED (i : Nat) (j : Nat) : Fld := ⟨0x100038 + 262144 * i + 8192 * j, 0, 48, 0, .ro⟩
/-! SEQ_SKIPPED: Table 5-19, 05_tensor_sequencer.md. -/
/-- Tiles skipped under R246; wraps -/
def Reg.SEQ_SKIPPED_SKIPPED (i : Nat) (j : Nat) : Fld := ⟨0x100040 + 262144 * i + 8192 * j, 0, 48, 0, .ro⟩
/-! SEQ_MARKS: Table 5-20, 05_tensor_sequencer.md. -/
/-- Marks taken for a pre-emption or a quiesce -/
def Reg.SEQ_MARKS_TAKEN (i : Nat) (j : Nat) : Fld := ⟨0x100048 + 262144 * i + 8192 * j, 0, 32, 0, .rc⟩
/-- Marks passed over (R273) -/
def Reg.SEQ_MARKS_PASSED (i : Nat) (j : Nat) : Fld := ⟨0x100048 + 262144 * i + 8192 * j, 32, 32, 0, .rc⟩
/-! SEQ_SAVE: Table 5-21, 05_tensor_sequencer.md. -/
/-- KiB saved at the last pre-emption, all cores -/
def Reg.SEQ_SAVE_LAST_KIB (i : Nat) (j : Nat) : Fld := ⟨0x100050 + 262144 * i + 8192 * j, 0, 24, 0, .ro⟩
/-- Cycles the save took -/
def Reg.SEQ_SAVE_LAST_CYCLES (i : Nat) (j : Nat) : Fld := ⟨0x100050 + 262144 * i + 8192 * j, 32, 32, 0, .ro⟩
/-! SEQ_HINT: Table 5-22, 05_tensor_sequencer.md. -/
/-- Residency hints ignored (R251); saturates -/
def Reg.SEQ_HINT_IGNORED (i : Nat) (j : Nat) : Fld := ⟨0x100058 + 262144 * i + 8192 * j, 0, 16, 0, .rc⟩
/-! EYE_CTRL: Table 5-23, 05_tensor_sequencer.md. -/
/-- R280 -/
def Reg.EYE_CTRL_HALT (i : Nat) (j : Nat) : Fld := ⟨0x101000 + 262144 * i + 8192 * j, 0, 1, 0, .rw⟩
/-! EYE_STATUS: Table 5-24, 05_tensor_sequencer.md. -/
/-- The cluster is halted -/
def Reg.EYE_STATUS_HALTED (i : Nat) (j : Nat) : Fld := ⟨0x101004 + 262144 * i + 8192 * j, 0, 1, 0, .ro⟩
/-- EYE_EN is set for the cluster -/
def Reg.EYE_STATUS_ENABLED (i : Nat) (j : Nat) : Fld := ⟨0x101004 + 262144 * i + 8192 * j, 1, 1, 0, .ro⟩
/-- The module holds a debug unlock -/
def Reg.EYE_STATUS_UNLOCKED (i : Nat) (j : Nat) : Fld := ⟨0x101004 + 262144 * i + 8192 * j, 2, 1, 0, .ro⟩
/-- R282 -/
def Reg.EYE_STATUS_REFUSED (i : Nat) (j : Nat) : Fld := ⟨0x101004 + 262144 * i + 8192 * j, 3, 1, 0, .rw1c⟩
/-! EYE_SELECT: Table 5-25, 05_tensor_sequencer.md. -/
/-- Physical core, 0 to 8 -/
def Reg.EYE_SELECT_CORE (i : Nat) (j : Nat) : Fld := ⟨0x101008 + 262144 * i + 8192 * j, 0, 4, 0, .rw⟩
/-- Accumulator row, 0 to 255 -/
def Reg.EYE_SELECT_ROW (i : Nat) (j : Nat) : Fld := ⟨0x101008 + 262144 * i + 8192 * j, 8, 8, 0, .rw⟩
/-! EYE_DATA: Table 5-26, 05_tensor_sequencer.md. -/
/-- FP32 bit pattern of column ℓ of the selected row (R281) -/
def Reg.EYE_DATA_VALUE (i : Nat) (j : Nat) (k : Nat) : Fld := ⟨0x101100 + 262144 * i + 8192 * j + 4 * k, 0, 32, 0, .ro⟩
/-! TIR_CMD: Table 7-8, 07_model_placement_and_tiers.md. -/
/-- Table 7-3; other values refused with ERR 0x4 -/
def Reg.TIR_CMD_OP : Fld := ⟨0xd0000, 0, 4, 0, .wo⟩
/-- 0 HBM, 1 far, 2 remote -/
def Reg.TIR_CMD_TIER : Fld := ⟨0xd0000, 4, 2, 0, .wo⟩
/-- Logical die for SET_HOME -/
def Reg.TIR_CMD_HOME : Fld := ⟨0xd0000, 6, 2, 0, .wo⟩
/-- Account -/
def Reg.TIR_CMD_ACCOUNT : Fld := ⟨0xd0000, 16, 16, 0, .wo⟩
/-! TIR_CMD_ADDR: Table 7-9, 07_model_placement_and_tiers.md. -/
/-- First page -/
def Reg.TIR_CMD_ADDR_ADDR : Fld := ⟨0xd0008, 0, 64, 0, .rw⟩
/-! TIR_CMD_ARG: Table 7-10, 07_model_placement_and_tiers.md. -/
/-- Pages -/
def Reg.TIR_CMD_ARG_COUNT : Fld := ⟨0xd0010, 0, 32, 0, .rw⟩
/-- Holder for TIER 2 -/
def Reg.TIR_CMD_ARG_MODULE : Fld := ⟨0xd0010, 32, 12, 0, .rw⟩
/-! TIR_CMD_STATUS: Table 7-11, 07_model_placement_and_tiers.md. -/
/-- A command runs -/
def Reg.TIR_CMD_STATUS_BUSY : Fld := ⟨0xd0018, 0, 1, 0, .ro⟩
/-- A command ended -/
def Reg.TIR_CMD_STATUS_DONE : Fld := ⟨0xd0018, 1, 1, 0, .rw1c⟩
/-- Table 7-4 -/
def Reg.TIR_CMD_STATUS_ERR : Fld := ⟨0xd0018, 4, 4, 0, .ro⟩
/-- Pages completed by the last command -/
def Reg.TIR_CMD_STATUS_PAGES_DONE : Fld := ⟨0xd0018, 32, 32, 0, .ro⟩
/-! TIR_WATER: Table 7-12, 07_model_placement_and_tiers.md. -/
/-- R339; frames per die -/
def Reg.TIR_WATER_LOW : Fld := ⟨0xd0020, 0, 16, 256, .rw⟩
/-- R339; a write with HIGH not above LOW is ignored -/
def Reg.TIR_WATER_HIGH : Fld := ⟨0xd0020, 16, 16, 512, .rw⟩
/-! TIR_FREE: Table 7-13, 07_model_placement_and_tiers.md. -/
/-- Bits [16d + 15:16d]: free frames of logical die d -/
def Reg.TIR_FREE_FREE : Fld := ⟨0xd0028, 0, 64, 0, .ro⟩
/-! TIR_ACCT_SEL: Table 7-14, 07_model_placement_and_tiers.md. -/
/-- Account shown by TIR_ACCT_USE and TIR_ACCT_REM -/
def Reg.TIR_ACCT_SEL_ACCOUNT : Fld := ⟨0xd0030, 0, 16, 0, .rw⟩
/-! TIR_ACCT_USE: Table 7-15, 07_model_placement_and_tiers.md. -/
/-- Pages held in HBM -/
def Reg.TIR_ACCT_USE_HBM_PAGES : Fld := ⟨0xd0038, 0, 32, 0, .ro⟩
/-- Pages held far -/
def Reg.TIR_ACCT_USE_FAR_PAGES : Fld := ⟨0xd0038, 32, 32, 0, .ro⟩
/-! TIR_ACCT_REM: Table 7-16, 07_model_placement_and_tiers.md. -/
/-- Pages held remotely -/
def Reg.TIR_ACCT_REM_REMOTE_PAGES : Fld := ⟨0xd0040, 0, 32, 0, .ro⟩
/-! TIR_COUNT: Table 7-17, 07_model_placement_and_tiers.md. -/
/-- Demand promotions; saturates -/
def Reg.TIR_COUNT_DEMAND : Fld := ⟨0xd0048, 0, 24, 0, .rc⟩
/-- Pages written to the far region; saturates -/
def Reg.TIR_COUNT_DEMOTE : Fld := ⟨0xd0048, 24, 24, 0, .rc⟩
/-- R342; saturates -/
def Reg.TIR_COUNT_DEMOTE_STOPPED : Fld := ⟨0xd0048, 48, 16, 0, .rc⟩
/-! TIR_ALM: Table 7-18, 07_model_placement_and_tiers.md. -/
/-- Pages fetched by the Almanac; saturates -/
def Reg.TIR_ALM_FETCHED : Fld := ⟨0xd0050, 0, 32, 0, .rc⟩
/-- R362; saturates -/
def Reg.TIR_ALM_LATE : Fld := ⟨0xd0050, 32, 16, 0, .rc⟩
/-- R359; saturates -/
def Reg.TIR_ALM_SKIPPED : Fld := ⟨0xd0050, 48, 16, 0, .rc⟩
/-! TIR_COUDE_SHARE: Table 7-19, 07_model_placement_and_tiers.md. -/
/-- R364; 0 to 100; a larger value is ignored -/
def Reg.TIR_COUDE_SHARE_PERCENT : Fld := ⟨0xd0058, 0, 7, 75, .rw⟩
/-! TIR_LOST: Table 7-20, 07_model_placement_and_tiers.md. -/
/-- Pages that entered STATE 5; wraps -/
def Reg.TIR_LOST_PAGES : Fld := ⟨0xd005c, 0, 32, 0, .ro⟩
/-! TIR_FAULT_ADDR: Table 7-21, 07_model_placement_and_tiers.md. -/
/-- Address of the last access ended under R328, R332, R337 or R349 -/
def Reg.TIR_FAULT_ADDR_ADDR : Fld := ⟨0xd0060, 0, 47, 0, .ro⟩
/-- Its account -/
def Reg.TIR_FAULT_ADDR_ACCOUNT : Fld := ⟨0xd0060, 47, 16, 0, .ro⟩
/-- The record holds a fault; while set, later faults leave it unchanged -/
def Reg.TIR_FAULT_ADDR_VALID : Fld := ⟨0xd0060, 63, 1, 0, .rw1c⟩
/-! TIR_FAULT_INFO: Table 7-22, 07_model_placement_and_tiers.md. -/
/-- 1 Page Not Mapped, 2 Memory Quota Exceeded, 3 Span Peer Unreachable, 4 Device Memory Lost; others not used -/
def Reg.TIR_FAULT_INFO_KIND : Fld := ⟨0xd0068, 0, 3, 0, .ro⟩
/-! TIR_MODEL_ID: Table 7-23, 07_model_placement_and_tiers.md. -/
/-- MODEL identifier of the TOPOLOGY frame -/
def Reg.TIR_MODEL_ID_MODEL (i : Nat) : Fld := ⟨0xd1000 + 32 * i, 0, 16, 0, .rw⟩
/-- Account of the layer table, Almanac and weights -/
def Reg.TIR_MODEL_ID_ACCOUNT (i : Nat) : Fld := ⟨0xd1000 + 32 * i, 16, 16, 0, .rw⟩
/-! TIR_MODEL_CTRL: Table 7-24, 07_model_placement_and_tiers.md. -/
/-- 0 EMPTY, 1 LOADING, 2 READY, 3 UNLOADING -/
def Reg.TIR_MODEL_CTRL_STATE (i : Nat) : Fld := ⟨0xd1004 + 32 * i, 0, 2, 0, .ro⟩
/-- R354; refused unless EMPTY -/
def Reg.TIR_MODEL_CTRL_LOAD (i : Nat) : Fld := ⟨0xd1004 + 32 * i, 2, 1, 0, .wo⟩
/-- R355 -/
def Reg.TIR_MODEL_CTRL_UNLOAD (i : Nat) : Fld := ⟨0xd1004 + 32 * i, 3, 1, 0, .wo⟩
/-- Table 7-4 code of the last failure -/
def Reg.TIR_MODEL_CTRL_ERR (i : Nat) : Fld := ⟨0xd1004 + 32 * i, 4, 4, 0, .ro⟩
/-- Layer-table entries read at LOAD -/
def Reg.TIR_MODEL_CTRL_LAYERS (i : Nat) : Fld := ⟨0xd1004 + 32 * i, 16, 16, 0, .ro⟩
/-! TIR_MODEL_LAYERS: Table 7-25, 07_model_placement_and_tiers.md. -/
/-- Layer table, 16-byte aligned -/
def Reg.TIR_MODEL_LAYERS_ADDR (i : Nat) : Fld := ⟨0xd1008 + 32 * i, 0, 47, 0, .rw⟩
/-- Layers, 0 to 16,384 -/
def Reg.TIR_MODEL_LAYERS_COUNT (i : Nat) : Fld := ⟨0xd1008 + 32 * i, 47, 16, 0, .rw⟩
/-! TIR_MODEL_ALMANAC: Table 7-26, 07_model_placement_and_tiers.md. -/
/-- Almanac, 32-byte aligned -/
def Reg.TIR_MODEL_ALMANAC_ADDR (i : Nat) : Fld := ⟨0xd1010 + 32 * i, 0, 47, 0, .rw⟩
/-- Entries, 0 to 8,192 -/
def Reg.TIR_MODEL_ALMANAC_COUNT (i : Nat) : Fld := ⟨0xd1010 + 32 * i, 47, 14, 0, .rw⟩
/-! TIR_ACH_CFG: Table 7-27, 07_model_placement_and_tiers.md. -/
/-- The end is enabled -/
def Reg.TIR_ACH_CFG_ENABLE (i : Nat) : Fld := ⟨0xd2000 + 32 * i, 0, 1, 0, .rw⟩
/-- 0 OUT, 1 IN -/
def Reg.TIR_ACH_CFG_DIR (i : Nat) : Fld := ⟨0xd2000 + 32 * i, 1, 1, 0, .rw⟩
/-- Logical die of this end -/
def Reg.TIR_ACH_CFG_LOCAL_DIE (i : Nat) : Fld := ⟨0xd2000 + 32 * i, 2, 2, 0, .rw⟩
/-- Logical die of the other end -/
def Reg.TIR_ACH_CFG_PEER_DIE (i : Nat) : Fld := ⟨0xd2000 + 32 * i, 4, 2, 0, .rw⟩
/-- Module of the other end -/
def Reg.TIR_ACH_CFG_PEER_MODULE (i : Nat) : Fld := ⟨0xd2000 + 32 * i, 6, 12, 0, .rw⟩
/-- 1 to 64 -/
def Reg.TIR_ACH_CFG_SLOT_COUNT (i : Nat) : Fld := ⟨0xd2000 + 32 * i, 24, 8, 1, .rw⟩
/-- Account of the slots -/
def Reg.TIR_ACH_CFG_ACCOUNT (i : Nat) : Fld := ⟨0xd2000 + 32 * i, 32, 16, 0, .rw⟩
/-- Slot size in 4 KiB units; 0 means 16,384 -/
def Reg.TIR_ACH_CFG_SLOT_UNITS (i : Nat) : Fld := ⟨0xd2000 + 32 * i, 48, 14, 1, .rw⟩
/-! TIR_ACH_BASE: Table 7-28, 07_model_placement_and_tiers.md. -/
/-- First slot, 2 MiB-aligned -/
def Reg.TIR_ACH_BASE_BASE (i : Nat) : Fld := ⟨0xd2008 + 32 * i, 0, 64, 0, .rw⟩
/-! TIR_ACH_STATUS: Table 7-29, 07_model_placement_and_tiers.md. -/
/-- 0 disabled, 1 open, 2 BROKEN; 3 not used -/
def Reg.TIR_ACH_STATUS_STATE (i : Nat) : Fld := ⟨0xd2010 + 32 * i, 0, 2, 0, .ro⟩
/-- R365 -/
def Reg.TIR_ACH_STATUS_ERR (i : Nat) : Fld := ⟨0xd2010 + 32 * i, 2, 1, 0, .ro⟩
/-- Next slot to fill (OUT) or consume (IN) -/
def Reg.TIR_ACH_STATUS_NEXT (i : Nat) : Fld := ⟨0xd2010 + 32 * i, 8, 6, 0, .ro⟩
/-- R367 retries; saturates -/
def Reg.TIR_ACH_STATUS_NOT_READY (i : Nat) : Fld := ⟨0xd2010 + 32 * i, 16, 16, 0, .rc⟩
/-- Slots moved; wraps -/
def Reg.TIR_ACH_STATUS_MOVED (i : Nat) : Fld := ⟨0xd2010 + 32 * i, 32, 32, 0, .ro⟩
/-! SQT_ENTRY: Table 8-7, 08_serving_and_scheduling.md. -/
/-- Table 8-1 -/
def Reg.SQT_ENTRY_STATE (i : Nat) : Fld := ⟨0x40000 + 8 * i, 0, 3, 0, .ro⟩
/-- Group -/
def Reg.SQT_ENTRY_GROUP (i : Nat) : Fld := ⟨0x40000 + 8 * i, 4, 3, 0, .ro⟩
/-- Stall count -/
def Reg.SQT_ENTRY_STALL (i : Nat) : Fld := ⟨0x40000 + 8 * i, 8, 8, 0, .ro⟩
/-- Tokens in the cache -/
def Reg.SQT_ENTRY_LENGTH (i : Nat) : Fld := ⟨0x40000 + 8 * i, 16, 20, 0, .ro⟩
/-- Sets held -/
def Reg.SQT_ENTRY_SETS (i : Nat) : Fld := ⟨0x40000 + 8 * i, 36, 12, 0, .ro⟩
/-- R400 -/
def Reg.SQT_ENTRY_CANCEL_PENDING (i : Nat) : Fld := ⟨0x40000 + 8 * i, 48, 1, 0, .ro⟩
/-- Prompt not yet consumed -/
def Reg.SQT_ENTRY_PREFILL (i : Nat) : Fld := ⟨0x40000 + 8 * i, 49, 1, 0, .ro⟩
/-! SQT_CTRL: Table 8-8, 08_serving_and_scheduling.md. -/
/-- R393; a write of 0 is ignored -/
def Reg.SQT_CTRL_FAIL_LIMIT : Fld := ⟨0x60000, 0, 8, 4, .rw⟩
/-! SQT_CMD: Table 8-9, 08_serving_and_scheduling.md. -/
/-- 1 CANCEL entry; 2 RESUME group (FAILS := 0; halted becomes serving); others ignored -/
def Reg.SQT_CMD_OP : Fld := ⟨0x60004, 0, 2, 0, .wo⟩
/-- For RESUME -/
def Reg.SQT_CMD_GROUP : Fld := ⟨0x60004, 2, 3, 0, .wo⟩
/-- For CANCEL -/
def Reg.SQT_CMD_ENTRY : Fld := ⟨0x60004, 16, 14, 0, .wo⟩
/-! SQT_COUNT: Table 8-10, 08_serving_and_scheduling.md. -/
/-- Entries in RUNNING -/
def Reg.SQT_COUNT_RUNNING : Fld := ⟨0x60008, 0, 16, 0, .ro⟩
/-- Entries in STALLED -/
def Reg.SQT_COUNT_STALLED : Fld := ⟨0x60008, 16, 16, 0, .ro⟩
/-- Entries in SWAPPING, SWAPPED or RETURNING -/
def Reg.SQT_COUNT_OUT : Fld := ⟨0x60008, 32, 16, 0, .ro⟩
/-- Joins waiting in all rings; saturates -/
def Reg.SQT_COUNT_WAITING : Fld := ⟨0x60008, 48, 16, 0, .ro⟩
/-! SQT_GRP_CFG: Table 8-11, 08_serving_and_scheduling.md. -/
/-- The group serves -/
def Reg.SQT_GRP_CFG_ENABLE (i : Nat) : Fld := ⟨0x60100 + 128 * i, 0, 1, 0, .rw⟩
/-- Class of step executions -/
def Reg.SQT_GRP_CFG_JOB_CLASS (i : Nat) : Fld := ⟨0x60100 + 128 * i, 4, 4, 0, .rw⟩
/-- Step program identifier -/
def Reg.SQT_GRP_CFG_PROGRAM (i : Nat) : Fld := ⟨0x60100 + 128 * i, 16, 16, 0, .rw⟩
/-- Account of the group -/
def Reg.SQT_GRP_CFG_ACCOUNT (i : Nat) : Fld := ⟨0x60100 + 128 * i, 32, 16, 0, .rw⟩
/-- Tokens per set -/
def Reg.SQT_GRP_CFG_TOKENS_PER_PAGE (i : Nat) : Fld := ⟨0x60100 + 128 * i, 48, 16, 16, .rw⟩
/-! SQT_GRP_SHAPE: Table 8-12, 08_serving_and_scheduling.md. -/
/-- 1 to 4 -/
def Reg.SQT_GRP_SHAPE_SET_PAGES (i : Nat) : Fld := ⟨0x60108 + 128 * i, 0, 3, 1, .rw⟩
/-- Bit d: logical die d holds a page of each set -/
def Reg.SQT_GRP_SHAPE_SET_DIES (i : Nat) : Fld := ⟨0x60108 + 128 * i, 4, 4, 1, .rw⟩
/-- Join ring entries, as a power of two -/
def Reg.SQT_GRP_SHAPE_JOIN_LOG2 (i : Nat) : Fld := ⟨0x60108 + 128 * i, 8, 4, 8, .rw⟩
/-- Event ring entries, as a power of two -/
def Reg.SQT_GRP_SHAPE_EVENT_LOG2 (i : Nat) : Fld := ⟨0x60108 + 128 * i, 12, 4, 8, .rw⟩
/-- Pool size in pages -/
def Reg.SQT_GRP_SHAPE_POOL_PAGES (i : Nat) : Fld := ⟨0x60108 + 128 * i, 16, 20, 0, .rw⟩
/-! SQT_GRP_KV_BASE: Table 8-13, 08_serving_and_scheduling.md. -/
/-- KV_BASE 2 MiB-aligned; the others 4 KiB-aligned -/
def Reg.SQT_GRP_KV_BASE_ADDR (i : Nat) : Fld := ⟨0x60110 + 128 * i, 0, 47, 0, .rw⟩
/-! SQT_GRP_LIST: Table 8-13, 08_serving_and_scheduling.md. -/
/-- KV_BASE 2 MiB-aligned; the others 4 KiB-aligned -/
def Reg.SQT_GRP_LIST_ADDR (i : Nat) : Fld := ⟨0x60118 + 128 * i, 0, 47, 0, .rw⟩
/-! SQT_GRP_PAGES: Table 8-13, 08_serving_and_scheduling.md. -/
/-- KV_BASE 2 MiB-aligned; the others 4 KiB-aligned -/
def Reg.SQT_GRP_PAGES_ADDR (i : Nat) : Fld := ⟨0x60120 + 128 * i, 0, 47, 0, .rw⟩
/-! SQT_GRP_JOIN: Table 8-13, 08_serving_and_scheduling.md. -/
/-- KV_BASE 2 MiB-aligned; the others 4 KiB-aligned -/
def Reg.SQT_GRP_JOIN_ADDR (i : Nat) : Fld := ⟨0x60128 + 128 * i, 0, 47, 0, .rw⟩
/-! SQT_GRP_EVENT: Table 8-13, 08_serving_and_scheduling.md. -/
/-- KV_BASE 2 MiB-aligned; the others 4 KiB-aligned -/
def Reg.SQT_GRP_EVENT_ADDR (i : Nat) : Fld := ⟨0x60130 + 128 * i, 0, 47, 0, .rw⟩
/-! SQT_GRP_LIMITS: Table 8-14, 08_serving_and_scheduling.md. -/
/-- Budget in pages -/
def Reg.SQT_GRP_LIMITS_KV_LIMIT (i : Nat) : Fld := ⟨0x60138 + 128 * i, 0, 20, 0, .rw⟩
/-- 1 to 1,024; other values ignored -/
def Reg.SQT_GRP_LIMITS_MAX_BATCH (i : Nat) : Fld := ⟨0x60138 + 128 * i, 20, 12, 256, .rw⟩
/-- Prompt tokens per step; 0 ignored -/
def Reg.SQT_GRP_LIMITS_PREFILL_CHUNK (i : Nat) : Fld := ⟨0x60138 + 128 * i, 32, 16, 512, .rw⟩
/-- Stalled builds before a swap; 0 ignored -/
def Reg.SQT_GRP_LIMITS_SWAP_AFTER (i : Nat) : Fld := ⟨0x60138 + 128 * i, 48, 8, 8, .rw⟩
/-! SQT_GRP_PTR: Table 8-15, 08_serving_and_scheduling.md. -/
/-- Next descriptor host software writes -/
def Reg.SQT_GRP_PTR_JOIN_TAIL (i : Nat) : Fld := ⟨0x60140 + 128 * i, 0, 16, 0, .rw⟩
/-- Next descriptor the builder reads -/
def Reg.SQT_GRP_PTR_JOIN_HEAD (i : Nat) : Fld := ⟨0x60140 + 128 * i, 16, 16, 0, .ro⟩
/-- Next record the builder writes -/
def Reg.SQT_GRP_PTR_EVENT_TAIL (i : Nat) : Fld := ⟨0x60140 + 128 * i, 32, 16, 0, .ro⟩
/-- Next record host software reads -/
def Reg.SQT_GRP_PTR_EVENT_HEAD (i : Nat) : Fld := ⟨0x60140 + 128 * i, 48, 16, 0, .rw⟩
/-! SQT_GRP_STATUS: Table 8-16, 08_serving_and_scheduling.md. -/
/-- 0 disabled, 1 serving, 2 halted, 3 closing -/
def Reg.SQT_GRP_STATUS_STATE (i : Nat) : Fld := ⟨0x60148 + 128 * i, 0, 2, 0, .ro⟩
/-- R377 -/
def Reg.SQT_GRP_STATUS_CFG_ERR (i : Nat) : Fld := ⟨0x60148 + 128 * i, 2, 1, 0, .rw1c⟩
/-- The step execution runs -/
def Reg.SQT_GRP_STATUS_STEP_RUNNING (i : Nat) : Fld := ⟨0x60148 + 128 * i, 3, 1, 0, .ro⟩
/-- Held pages -/
def Reg.SQT_GRP_STATUS_HELD (i : Nat) : Fld := ⟨0x60148 + 128 * i, 8, 20, 0, .ro⟩
/-- Entries in the last work list -/
def Reg.SQT_GRP_STATUS_LISTED (i : Nat) : Fld := ⟨0x60148 + 128 * i, 28, 12, 0, .ro⟩
/-- Consecutive failed steps -/
def Reg.SQT_GRP_STATUS_FAILS (i : Nat) : Fld := ⟨0x60148 + 128 * i, 40, 8, 0, .ro⟩
/-! SQT_GRP_STEPS: Table 8-17, 08_serving_and_scheduling.md. -/
/-- R381; saturates -/
def Reg.SQT_GRP_STEPS_OVERRUN (i : Nat) : Fld := ⟨0x60150 + 128 * i, 0, 16, 0, .rc⟩
/-- Builds with an empty list; saturates -/
def Reg.SQT_GRP_STEPS_EMPTY (i : Nat) : Fld := ⟨0x60150 + 128 * i, 16, 16, 0, .rc⟩
/-- Failed steps; saturates -/
def Reg.SQT_GRP_STEPS_FAILED (i : Nat) : Fld := ⟨0x60150 + 128 * i, 32, 16, 0, .rc⟩
/-- Sequences swapped out; saturates -/
def Reg.SQT_GRP_STEPS_SWAPS (i : Nat) : Fld := ⟨0x60150 + 128 * i, 48, 16, 0, .rc⟩
/-! SCH_CTRL: Table 8-18, 08_serving_and_scheduling.md. -/
/-- R406; a write of 0 is ignored; kept across a warm reset -/
def Reg.SCH_CTRL_DEFAULT_SHARE : Fld := ⟨0x70000, 0, 16, 100, .rws⟩
/-! SCH_PREEMPT_CFG: Table 8-19, 08_serving_and_scheduling.md. -/
/-- R409, in cluster-µs -/
def Reg.SCH_PREEMPT_CFG_MARGIN : Fld := ⟨0x70004, 0, 16, 1000, .rw⟩
/-- R412, in µs; 0 inherits at once -/
def Reg.SCH_PREEMPT_CFG_MAX_DEFER : Fld := ⟨0x70004, 16, 16, 500, .rw⟩
/-! SCH_STATUS: Table 8-20, 08_serving_and_scheduling.md. -/
/-- Bit c: R421 -/
def Reg.SCH_STATUS_OVERLOAD : Fld := ⟨0x70008, 0, 16, 0, .ro⟩
/-- Bit 16 + c: class c refused an execution -/
def Reg.SCH_STATUS_OVERLOAD_SEEN : Fld := ⟨0x70008, 16, 16, 0, .rw1c⟩
/-- Jobs in existence -/
def Reg.SCH_STATUS_JOBS : Fld := ⟨0x70008, 32, 13, 0, .ro⟩
/-! SCH_PREEMPT: Table 8-21, 08_serving_and_scheduling.md. -/
/-- Pre-emptions taken; saturates -/
def Reg.SCH_PREEMPT_TAKEN : Fld := ⟨0x70010, 0, 16, 0, .rc⟩
/-- R410; saturates -/
def Reg.SCH_PREEMPT_REFUSED : Fld := ⟨0x70010, 16, 16, 0, .rc⟩
/-- R412; saturates -/
def Reg.SCH_PREEMPT_INHERIT : Fld := ⟨0x70010, 32, 16, 0, .rc⟩
/-- R412; saturates -/
def Reg.SCH_PREEMPT_DEFER_LONG : Fld := ⟨0x70010, 48, 8, 0, .rc⟩
/-- R418; saturates -/
def Reg.SCH_PREEMPT_FORCED : Fld := ⟨0x70010, 56, 8, 0, .rc⟩
/-! SCH_ACCT_SEL: Table 8-22, 08_serving_and_scheduling.md. -/
/-- Account shown at 0x007_0028 and 0x007_0030 -/
def Reg.SCH_ACCT_SEL_ACCOUNT : Fld := ⟨0x70020, 0, 16, 0, .rw⟩
/-! SCH_ACCT_TIME: Table 8-23, 08_serving_and_scheduling.md. -/
/-- Engine time in 1/256 cluster-µs; wraps -/
def Reg.SCH_ACCT_TIME_TIME : Fld := ⟨0x70028, 0, 64, 0, .ro⟩
/-! SCH_ACCT_BAL: Table 8-24, 08_serving_and_scheduling.md. -/
/-- R407, in 1/256 cluster-µs, two's complement -/
def Reg.SCH_ACCT_BAL_BALANCE : Fld := ⟨0x70030, 0, 64, 0, .ro⟩
/-! SCH_CLASS: Table 8-25, 08_serving_and_scheduling.md. -/
/-- Epochs; 0 for no limit; kept across a warm reset -/
def Reg.SCH_CLASS_ADMIT_LIMIT (i : Nat) : Fld := ⟨0x70100 + 4 * i, 0, 8, 8, .rws⟩
/-- Limuc traffic class, R419; kept across a warm reset -/
def Reg.SCH_CLASS_TRAFFIC (i : Nat) : Fld := ⟨0x70100 + 4 * i, 8, 3, 0, .rws⟩
/-! SCH_BACKLOG: Table 8-26, 08_serving_and_scheduling.md. -/
/-- R420, in 1/256 epoch; saturates -/
def Reg.SCH_BACKLOG_BACKLOG (i : Nat) : Fld := ⟨0x70140 + 8 * i, 0, 24, 0, .ro⟩
/-- R421; saturates -/
def Reg.SCH_BACKLOG_REFUSED (i : Nat) : Fld := ⟨0x70140 + 8 * i, 32, 32, 0, .rc⟩
/-! SCH_SHARE: Table 8-27, 08_serving_and_scheduling.md. -/
/-- Account; kept across a warm reset -/
def Reg.SCH_SHARE_ACCOUNT (i : Nat) : Fld := ⟨0x71000 + 4 * i, 0, 16, 0, .rws⟩
/-- 1 to 65,535; 0 marks the entry unused; kept across a warm reset -/
def Reg.SCH_SHARE_SHARE (i : Nat) : Fld := ⟨0x71000 + 4 * i, 16, 16, 0, .rws⟩
/-! SCH_SEM: Table 8-28, 08_serving_and_scheduling.md. -/
/-- The semaphore has an owner -/
def Reg.SCH_SEM_HELD (i : Nat) : Fld := ⟨0x74000 + 4 * i, 0, 1, 0, .ro⟩
/-- At least one job waits -/
def Reg.SCH_SEM_WAITERS (i : Nat) : Fld := ⟨0x74000 + 4 * i, 1, 1, 0, .ro⟩
/-- Job number of the owner -/
def Reg.SCH_SEM_OWNER (i : Nat) : Fld := ⟨0x74000 + 4 * i, 4, 12, 0, .ro⟩
/-! CAT_CMD: Table 9-10, 09_catalogue_search.md. -/
/-- 1 ATTACH, 2 STAGE, 3 UNSTAGE, 4 DETACH, 5 DELETE; others refused with ERR 0xC -/
def Reg.CAT_CMD_OP : Fld := ⟨0x80000, 0, 4, 0, .wo⟩
/-- Catalogue -/
def Reg.CAT_CMD_CAT : Fld := ⟨0x80000, 8, 8, 0, .wo⟩
/-- Account, for ATTACH -/
def Reg.CAT_CMD_ACCOUNT : Fld := ⟨0x80000, 16, 16, 0, .wo⟩
/-! CAT_CMD_ADDR: Table 9-11, 09_catalogue_search.md. -/
/-- ATTACH, STAGE: image base; DELETE: item ID -/
def Reg.CAT_CMD_ADDR_ADDR : Fld := ⟨0x80008, 0, 64, 0, .rw⟩
/-! CAT_CMD_AUX: Table 9-13, 09_catalogue_search.md. -/
/-- ATTACH: control area base, 2 MiB-aligned; STAGE: SWAP_EPOCH in [47:0] -/
def Reg.CAT_CMD_AUX_AUX : Fld := ⟨0x80010, 0, 64, 0, .rw⟩
/-! CAT_CMD_ARG: Table 9-14, 09_catalogue_search.md. -/
/-- ATTACH: control area size, 1 to 1,024 pages of 2 MiB -/
def Reg.CAT_CMD_ARG_CTRL_PAGES : Fld := ⟨0x80018, 0, 11, 1, .rw⟩
/-- ATTACH: journal records, 2^10 to 2^15 -/
def Reg.CAT_CMD_ARG_JOURNAL_LOG2 : Fld := ⟨0x80018, 12, 4, 12, .rw⟩
/-! CAT_CMD_STATUS: Table 9-15, 09_catalogue_search.md. -/
/-- A command runs -/
def Reg.CAT_CMD_STATUS_BUSY : Fld := ⟨0x80020, 0, 1, 0, .ro⟩
/-- A command ended -/
def Reg.CAT_CMD_STATUS_DONE : Fld := ⟨0x80020, 1, 1, 0, .rw1c⟩
/-- Table 9-16 -/
def Reg.CAT_CMD_STATUS_ERR : Fld := ⟨0x80020, 4, 4, 0, .ro⟩
/-! CAT_SEL: Table 9-17, 09_catalogue_search.md. -/
/-- Catalogue shown at 0x008_0030 to 0x008_0058 -/
def Reg.CAT_SEL_CAT : Fld := ⟨0x80028, 0, 8, 0, .rw⟩
/-! CAT_STATE: Table 9-18, 09_catalogue_search.md. -/
/-- 0 DETACHED, 1 ATTACHING, 2 SERVING, 3 DETACHING -/
def Reg.CAT_STATE_STATE : Fld := ⟨0x80030, 0, 2, 0, .ro⟩
/-- KIND of the generation in force; 0 when DETACHED -/
def Reg.CAT_STATE_KIND : Fld := ⟨0x80030, 2, 2, 0, .ro⟩
/-- A staged image exists -/
def Reg.CAT_STATE_STAGED : Fld := ⟨0x80030, 4, 1, 0, .ro⟩
/-- R436 -/
def Reg.CAT_STATE_OLD_BUSY : Fld := ⟨0x80030, 5, 1, 0, .ro⟩
/-- R438 -/
def Reg.CAT_STATE_PAGES_LOST : Fld := ⟨0x80030, 6, 1, 0, .ro⟩
/-- Account -/
def Reg.CAT_STATE_ACCOUNT : Fld := ⟨0x80030, 16, 16, 0, .ro⟩
/-- Batches running on the catalogue -/
def Reg.CAT_STATE_RUNNING : Fld := ⟨0x80030, 32, 12, 0, .ro⟩
/-- Free snapshot copies; saturates -/
def Reg.CAT_STATE_COPIES_FREE : Fld := ⟨0x80030, 44, 20, 0, .ro⟩
/-! CAT_GEN: Table 9-19, 09_catalogue_search.md. -/
/-- Generation in force; 0 when none -/
def Reg.CAT_GEN_GENERATION : Fld := ⟨0x80038, 0, 64, 0, .ro⟩
/-! CAT_STAGED_GEN: Table 9-20, 09_catalogue_search.md. -/
/-- Staged generation; 0 when none -/
def Reg.CAT_STAGED_GEN_GENERATION : Fld := ⟨0x80040, 0, 64, 0, .ro⟩
/-! CAT_IN_FORCE_EPOCH: Table 9-21, 09_catalogue_search.md. -/
/-- Epoch in which the generation in force came into force -/
def Reg.CAT_IN_FORCE_EPOCH_EPOCH : Fld := ⟨0x80048, 0, 48, 0, .ro⟩
/-! CAT_DELETES: Table 9-22, 09_catalogue_search.md. -/
/-- Deletes accepted; wraps -/
def Reg.CAT_DELETES_ACCEPTED : Fld := ⟨0x80050, 0, 32, 0, .ro⟩
/-- Deletes accepted in the current epoch; saturates -/
def Reg.CAT_DELETES_PENDING : Fld := ⟨0x80050, 32, 16, 0, .ro⟩
/-- Journal records in use; saturates -/
def Reg.CAT_DELETES_JOURNAL : Fld := ⟨0x80050, 48, 16, 0, .ro⟩
/-! CAT_QUERIES: Table 9-23, 09_catalogue_search.md. -/
/-- Queries completed on the catalogue; wraps -/
def Reg.CAT_QUERIES_QUERIES : Fld := ⟨0x80058, 0, 48, 0, .ro⟩
/-! CAT_SWEEPS: Table 9-24, 09_catalogue_search.md. -/
/-- Sweeps started; saturates -/
def Reg.CAT_SWEEPS_STARTED : Fld := ⟨0x80060, 0, 32, 0, .rc⟩
/-- Sweeps split under R452; saturates -/
def Reg.CAT_SWEEPS_SPLIT : Fld := ⟨0x80060, 32, 16, 0, .rc⟩
/-- Sweeps that waited for a window; saturates -/
def Reg.CAT_SWEEPS_HELD : Fld := ⟨0x80060, 48, 16, 0, .rc⟩
/-! CAT_CODE_READS: Table 9-25, 09_catalogue_search.md. -/
/-- Code reads (R450); wraps -/
def Reg.CAT_CODE_READS_READS : Fld := ⟨0x80068, 0, 48, 0, .ro⟩
/-! MED_CTRL: Table 10-11, 10_flash_media.md. -/
/-- R480 -/
def Reg.MED_CTRL_DETOUR_EN : Fld := ⟨0x90000, 0, 1, 1, .rw⟩
/-- Table 10-4 -/
def Reg.MED_CTRL_ERASE_SUSPEND_READ : Fld := ⟨0x90000, 1, 1, 1, .rw⟩
/-! MED_REFRESH: Table 10-12, 10_flash_media.md. -/
/-- R487, in bits; a write above 300 is ignored -/
def Reg.MED_REFRESH_STRONG : Fld := ⟨0x90004, 0, 16, 150, .rw⟩
/-- R487, in bits; a write above 130 is ignored -/
def Reg.MED_REFRESH_LIGHT : Fld := ⟨0x90004, 16, 16, 60, .rw⟩
/-! MED_ERASE: Table 10-13, 10_flash_media.md. -/
/-- R499, programmed bits per page -/
def Reg.MED_ERASE_THRESHOLD : Fld := ⟨0x90008, 0, 16, 64, .rw⟩
/-- R498 and R499; saturates -/
def Reg.MED_ERASE_REERASED : Fld := ⟨0x90008, 16, 16, 0, .rc⟩
/-! MED_SLOT_ECC: Table 10-14, 10_flash_media.md. -/
/-- Codewords with bits corrected; saturates -/
def Reg.MED_SLOT_ECC_CORRECTED (i : Nat) : Fld := ⟨0x90100 + 16 * i, 0, 32, 0, .rc⟩
/-- Codewords recovered at step 2; saturates -/
def Reg.MED_SLOT_ECC_RETRIED (i : Nat) : Fld := ⟨0x90100 + 16 * i, 32, 16, 0, .rc⟩
/-- Codewords recovered at step 3; saturates -/
def Reg.MED_SLOT_ECC_SOFT (i : Nat) : Fld := ⟨0x90100 + 16 * i, 48, 16, 0, .rc⟩
/-- Codewords recovered at step 4; saturates -/
def Reg.MED_SLOT_ECC_REBUILT (i : Nat) : Fld := ⟨0x90100 + 16 * i, 64, 16, 0, .rc⟩
/-- Step 5; saturates -/
def Reg.MED_SLOT_ECC_UNRECOVERED (i : Nat) : Fld := ⟨0x90100 + 16 * i, 80, 16, 0, .rc⟩
/-- R487; saturates -/
def Reg.MED_SLOT_ECC_REFRESHED (i : Nat) : Fld := ⟨0x90100 + 16 * i, 96, 16, 0, .rc⟩
/-- Highest corrected bit count since last read -/
def Reg.MED_SLOT_ECC_MAX_BITS (i : Nat) : Fld := ⟨0x90100 + 16 * i, 112, 16, 0, .rc⟩
/-! MED_SLOT_READ: Table 10-15, 10_flash_media.md. -/
/-- Codewords delivered by detour; saturates -/
def Reg.MED_SLOT_READ_DETOURS (i : Nat) : Fld := ⟨0x90200 + 8 * i, 0, 32, 0, .rc⟩
/-- Foreground reads that waited because R480 did not allow a detour; saturates -/
def Reg.MED_SLOT_READ_WAITED (i : Nat) : Fld := ⟨0x90200 + 8 * i, 32, 16, 0, .rc⟩
/-- Erase suspends for reads; saturates -/
def Reg.MED_SLOT_READ_SUSPENDS (i : Nat) : Fld := ⟨0x90200 + 8 * i, 48, 16, 0, .rc⟩
/-! MED_SLOT_STATUS: Table 10-16, 10_flash_media.md. -/
/-- A cartridge is fitted -/
def Reg.MED_SLOT_STATUS_PRESENT (i : Nat) : Fld := ⟨0x90300 + 8 * i, 0, 1, 0, .ro⟩
/-- Its load switch is on -/
def Reg.MED_SLOT_STATUS_POWERED (i : Nat) : Fld := ⟨0x90300 + 8 * i, 1, 1, 0, .ro⟩
/-- 0 none, 1 active, 2 parked spare, 3 retired -/
def Reg.MED_SLOT_STATUS_ROLE (i : Nat) : Fld := ⟨0x90300 + 8 * i, 2, 2, 0, .ro⟩
/-- Bit 16 + g: a die of group g is PROGRAMMING -/
def Reg.MED_SLOT_STATUS_PROGRAMMING (i : Nat) : Fld := ⟨0x90300 + 8 * i, 16, 16, 0, .ro⟩
/-- Bit 32 + g: a die of group g is ERASING -/
def Reg.MED_SLOT_STATUS_ERASING (i : Nat) : Fld := ⟨0x90300 + 8 * i, 32, 16, 0, .ro⟩
/-- Bit 48 + g: a die of group g is ERASE_SUSPENDED -/
def Reg.MED_SLOT_STATUS_SUSPENDED (i : Nat) : Fld := ⟨0x90300 + 8 * i, 48, 16, 0, .ro⟩
/-! MED_HBM: Table 10-17, 10_flash_media.md. -/
/-- Codewords corrected; saturates -/
def Reg.MED_HBM_CORRECTED (i : Nat) : Fld := ⟨0x90400 + 8 * i, 0, 32, 0, .rc⟩
/-- Uncorrectable codewords; saturates -/
def Reg.MED_HBM_UNCORR (i : Nat) : Fld := ⟨0x90400 + 8 * i, 32, 16, 0, .rc⟩
/-- Repairs applied at the last cold reset (R496) -/
def Reg.MED_HBM_PPR (i : Nat) : Fld := ⟨0x90400 + 8 * i, 48, 16, 0, .ro⟩
/-! MED_HBM_SPARE: Table 10-18, 10_flash_media.md. -/
/-- Spare units left in the stack's pool -/
def Reg.MED_HBM_SPARE_SPARE_LEFT (i : Nat) : Fld := ⟨0x90440 + 4 * i, 0, 19, 262144, .ro⟩
/-! MED_HBM_RETIRE: Table 10-19, 10_flash_media.md. -/
/-- R493; a write of 0 is ignored -/
def Reg.MED_HBM_RETIRE_THRESHOLD : Fld := ⟨0x90460, 0, 8, 4, .rw⟩
/-! MED_DIAG_CMD: Table 10-20, 10_flash_media.md. -/
/-- 1 RAW_READ: the undecoded 18,592-byte page at ADDR's SLOT to PAGE, as a background read; others ignored -/
def Reg.MED_DIAG_CMD_OP : Fld := ⟨0x90500, 0, 2, 0, .wo⟩
/-! MED_DIAG_ADDR: Table 10-20, 10_flash_media.md. -/
/-- Table 10-1; CW ignored -/
def Reg.MED_DIAG_ADDR_ADDR : Fld := ⟨0x90508, 0, 64, 0, .rw⟩
/-! MED_DIAG_BUF: Table 10-20, 10_flash_media.md. -/
/-- Host address, 4 KiB-aligned -/
def Reg.MED_DIAG_BUF_BUF : Fld := ⟨0x90510, 0, 64, 0, .rw⟩
/-! MED_DIAG_STATUS: Table 10-20, 10_flash_media.md. -/
/-- A raw read runs -/
def Reg.MED_DIAG_STATUS_BUSY : Fld := ⟨0x90518, 0, 1, 0, .ro⟩
/-- A raw read ended -/
def Reg.MED_DIAG_STATUS_DONE : Fld := ⟨0x90518, 1, 1, 0, .rw1c⟩
/-- 0 none; 1 address out of range or cartridge not powered; 2 block in erase (R477); 3 host DMA error; 4 already busy -/
def Reg.MED_DIAG_STATUS_ERR : Fld := ⟨0x90518, 4, 4, 0, .ro⟩
/-! FTL_STATUS: Table 11-6, 11_translation_layer.md. -/
/-- 0 normal, 1 read-only media state (R548), 2 restoring; 3 not used -/
def Reg.FTL_STATUS_MEDIA : Fld := ⟨0xa0000, 0, 2, 2, .ro⟩
/-- The last restore followed a power loss -/
def Reg.FTL_STATUS_AFTER_LOSS : Fld := ⟨0xa0000, 2, 1, 0, .ro⟩
/-- SPARE_PCT at or below 10 -/
def Reg.FTL_STATUS_WARN10 : Fld := ⟨0xa0000, 3, 1, 0, .ro⟩
/-- At or below 5 -/
def Reg.FTL_STATUS_WARN5 : Fld := ⟨0xa0000, 4, 1, 0, .ro⟩
/-- At or below 2 -/
def Reg.FTL_STATUS_WARN2 : Fld := ⟨0xa0000, 5, 1, 0, .ro⟩
/-- R541 -/
def Reg.FTL_STATUS_SPARE_PCT : Fld := ⟨0xa0000, 8, 7, 0, .ro⟩
/-! FTL_SPARE: Table 11-7, 11_translation_layer.md. -/
/-- R541 -/
def Reg.FTL_SPARE_SPARE : Fld := ⟨0xa0008, 0, 32, 0, .ro⟩
/-- R541 -/
def Reg.FTL_SPARE_SPARE_FORMAT : Fld := ⟨0xa0008, 32, 32, 0, .ro⟩
/-! FTL_GC_WEIGHTS: Table 11-8, 11_translation_layer.md. -/
/-- R528 -/
def Reg.FTL_GC_WEIGHTS_AGE_W : Fld := ⟨0xa0010, 0, 8, 4, .rw⟩
/-- R528 -/
def Reg.FTL_GC_WEIGHTS_WEAR_W : Fld := ⟨0xa0010, 8, 8, 8, .rw⟩
/-! FTL_MERGE: Table 11-9, 11_translation_layer.md. -/
/-- R523, sectors; writes of 0 or above 122,880 are ignored -/
def Reg.FTL_MERGE_MERGE_AT : Fld := ⟨0xa0014, 0, 17, 8192, .rw⟩
/-! FTL_FAR_LIMIT: Table 11-10, 11_translation_layer.md. -/
/-- Far stripes; a write below the far stripes in use, or one that would make SPARE negative, is ignored -/
def Reg.FTL_FAR_LIMIT_LIMIT : Fld := ⟨0xa0018, 0, 20, 4096, .rw⟩
/-! FTL_SPARE_CTRL: Table 11-11, 11_translation_layer.md. -/
/-- R544; writes above 100 are ignored -/
def Reg.FTL_SPARE_CTRL_BRING_PCT : Fld := ⟨0xa0020, 0, 7, 15, .rw⟩
/-- Writing 1 starts a migration; ignored without a parked spare or while one runs -/
def Reg.FTL_SPARE_CTRL_BRING_IN : Fld := ⟨0xa0020, 7, 1, 0, .wo⟩
/-- R544, mean ERASES -/
def Reg.FTL_SPARE_CTRL_WEAR_LIMIT : Fld := ⟨0xa0020, 8, 12, 2700, .rw⟩
/-! FTL_MIGRATE: Table 11-12, 11_translation_layer.md. -/
/-- A migration runs -/
def Reg.FTL_MIGRATE_ACTIVE : Fld := ⟨0xa0028, 0, 1, 0, .ro⟩
/-- R546 -/
def Reg.FTL_MIGRATE_NO_WINDOW : Fld := ⟨0xa0028, 1, 1, 0, .ro⟩
/-- Source slot -/
def Reg.FTL_MIGRATE_SOURCE : Fld := ⟨0xa0028, 4, 4, 0, .ro⟩
/-- Spare slot -/
def Reg.FTL_MIGRATE_TARGET : Fld := ⟨0xa0028, 8, 4, 0, .ro⟩
/-- Entries still naming the source -/
def Reg.FTL_MIGRATE_REMAINING : Fld := ⟨0xa0028, 16, 17, 0, .ro⟩
/-! FTL_BANK_SLOT: Table 11-13, 11_translation_layer.md. -/
/-- Bits [4b + 3:4b]: slot bound to bank b -/
def Reg.FTL_BANK_SLOT_SLOTS : Fld := ⟨0xa0030, 0, 32, 1985229328, .ro⟩
/-! FTL_GC_COUNT: Table 11-14, 11_translation_layer.md. -/
/-- Copies committed, of every kind; saturates -/
def Reg.FTL_GC_COUNT_COPIES : Fld := ⟨0xa0040, 0, 24, 0, .rc⟩
/-- Merges committed; saturates -/
def Reg.FTL_GC_COUNT_MERGES : Fld := ⟨0xa0040, 24, 16, 0, .rc⟩
/-- R533; saturates -/
def Reg.FTL_GC_COUNT_RESTARTS : Fld := ⟨0xa0040, 40, 12, 0, .rc⟩
/-- R534 and R535; saturates -/
def Reg.FTL_GC_COUNT_ABANDONED : Fld := ⟨0xa0040, 52, 12, 0, .rc⟩
/-! FTL_WRITTEN: Table 11-15, 11_translation_layer.md. -/
/-- Sectors written by hosts; wraps -/
def Reg.FTL_WRITTEN_SECTORS : Fld := ⟨0xa0048, 0, 64, 0, .ro⟩
/-! FTL_PROGRAMMED: Table 11-16, 11_translation_layer.md. -/
/-- Sectors programmed for any reason, parity and journal included; wraps -/
def Reg.FTL_PROGRAMMED_SECTORS : Fld := ⟨0xa0050, 0, 64, 0, .ro⟩
/-! FTL_LOG: Table 11-17, 11_translation_layer.md. -/
/-- 2,048 less stripes holding ROLE 2 -/
def Reg.FTL_LOG_LOG_FREE : Fld := ⟨0xa0058, 0, 12, 2048, .ro⟩
/-- Log-index fill, percent -/
def Reg.FTL_LOG_INDEX_PCT : Fld := ⟨0xa0058, 12, 7, 0, .ro⟩
/-! FTL_DISCARD: Table 11-18, 11_translation_layer.md. -/
/-- Secure discards completed; saturates -/
def Reg.FTL_DISCARD_SECURE_DONE : Fld := ⟨0xa0060, 0, 16, 0, .rc⟩
/-- R551; saturates -/
def Reg.FTL_DISCARD_UNERASED : Fld := ⟨0xa0060, 16, 16, 0, .rc⟩
/-! FTL_SLOT_WEAR: Table 11-19, 11_translation_layer.md. -/
/-- Mean ERASES of the slot's non-retired stripes -/
def Reg.FTL_SLOT_WEAR_MEAN_ERASES (i : Nat) : Fld := ⟨0xa0100 + 16 * i, 0, 16, 0, .ro⟩
/-- Highest ERASES -/
def Reg.FTL_SLOT_WEAR_MAX_ERASES (i : Nat) : Fld := ⟨0xa0100 + 16 * i, 16, 16, 0, .ro⟩
/-- Lowest ERASES -/
def Reg.FTL_SLOT_WEAR_MIN_ERASES (i : Nat) : Fld := ⟨0xa0100 + 16 * i, 32, 16, 0, .ro⟩
/-- FREE stripes -/
def Reg.FTL_SLOT_WEAR_FREE (i : Nat) : Fld := ⟨0xa0100 + 16 * i, 64, 17, 0, .ro⟩
/-- RETIRED stripes -/
def Reg.FTL_SLOT_WEAR_RETIRED (i : Nat) : Fld := ⟨0xa0100 + 16 * i, 96, 16, 0, .ro⟩
/-- Spare die-blocks left in all groups -/
def Reg.FTL_SLOT_WEAR_SPARE_BLOCKS (i : Nat) : Fld := ⟨0xa0100 + 16 * i, 112, 16, 0, .ro⟩
/-! FTL_STRIPE_SEL: Table 11-20, 11_translation_layer.md. -/
/-- Stripe shown at FTL_STRIPE -/
def Reg.FTL_STRIPE_SEL_INDEX : Fld := ⟨0xa0200, 0, 19, 0, .rw⟩
/-! FTL_STRIPE: Table 11-21, 11_translation_layer.md. -/
/-- Entry INDEX, laid out as Table 11-2 -/
def Reg.FTL_STRIPE_ENTRY : Fld := ⟨0xa0240, 0, 512, 0, .ro⟩
/-! SPN_STATUS: Table 13-14, 13_span_and_twin.md. -/
/-- Module number from the chart -/
def Reg.SPN_STATUS_MODULE : Fld := ⟨0xb0000, 0, 12, 0, .ro⟩
/-- 0 outside any span, 1 member, 2 span master, 3 standby -/
def Reg.SPN_STATUS_ROLE_NOW : Fld := ⟨0xb0000, 12, 2, 0, .ro⟩
/-- Current span master -/
def Reg.SPN_STATUS_MASTER : Fld := ⟨0xb0000, 16, 12, 0, .ro⟩
/-- 0 outside, 1 joining, 2 member, 3 refused as duplicate, 4 refused as full, 5 no master; 6 and 7 not used -/
def Reg.SPN_STATUS_STATE : Fld := ⟨0xb0000, 28, 3, 0, .ro⟩
/-- R639 -/
def Reg.SPN_STATUS_TERM : Fld := ⟨0xb0000, 32, 16, 0, .ro⟩
/-- Members in the directory -/
def Reg.SPN_STATUS_MEMBERS : Fld := ⟨0xb0000, 48, 13, 0, .ro⟩
/-! SPN_CTRL: Table 13-15, 13_span_and_twin.md. -/
/-- R644; ignored except on the standby -/
def Reg.SPN_CTRL_TAKEOVER : Fld := ⟨0xb0008, 0, 1, 0, .wo⟩
/-! SPN_TIMING: Table 13-16, 13_span_and_twin.md. -/
/-- Heartbeat interval in µs; writes below 100 are ignored -/
def Reg.SPN_TIMING_HB_INTERVAL : Fld := ⟨0xb000c, 0, 16, 1000, .rw⟩
/-- R642, R644; a write of 0 is ignored -/
def Reg.SPN_TIMING_HB_MISS : Fld := ⟨0xb000c, 16, 4, 3, .rw⟩
/-! SPN_TIMEOUT: Table 13-17, 13_span_and_twin.md. -/
/-- R624, R625, in units of 100 µs; a write of 0 is ignored -/
def Reg.SPN_TIMEOUT_TIMEOUT : Fld := ⟨0xb0010, 0, 16, 100, .rw⟩
/-! SPN_LINK: Table 13-18, 13_span_and_twin.md. -/
/-- 0 DISABLED, 1 DETECT, 2 TRAIN, 3 ACTIVE, 4 RECOVER -/
def Reg.SPN_LINK_STATE (i : Nat) : Fld := ⟨0xb0100 + 32 * i, 0, 3, 0, .ro⟩
/-- 0 down, 1 half, 2 full -/
def Reg.SPN_LINK_WIDTH (i : Nat) : Fld := ⟨0xb0100 + 32 * i, 3, 2, 0, .ro⟩
/-- Bit 5 + p: physical lane p retired -/
def Reg.SPN_LINK_RETIRED (i : Nat) : Fld := ⟨0xb0100 + 32 * i, 5, 9, 0, .ro⟩
/-- From INIT -/
def Reg.SPN_LINK_PEER_MODULE (i : Nat) : Fld := ⟨0xb0100 + 32 * i, 16, 12, 0, .ro⟩
/-- From INIT -/
def Reg.SPN_LINK_PEER_LINK (i : Nat) : Fld := ⟨0xb0100 + 32 * i, 28, 3, 0, .ro⟩
/-- R617, in units of 0.25 ns -/
def Reg.SPN_LINK_DELAY (i : Nat) : Fld := ⟨0xb0100 + 32 * i, 32, 32, 0, .ro⟩
/-- Blocks corrected; saturates -/
def Reg.SPN_LINK_FEC_CORRECTED (i : Nat) : Fld := ⟨0xb0100 + 32 * i, 64, 32, 0, .rc⟩
/-- Replays; saturates -/
def Reg.SPN_LINK_REPLAYS (i : Nat) : Fld := ⟨0xb0100 + 32 * i, 96, 16, 0, .rc⟩
/-- R614; saturates -/
def Reg.SPN_LINK_LANE_FAULTS (i : Nat) : Fld := ⟨0xb0100 + 32 * i, 112, 16, 0, .rc⟩
/-- Non-idle flits sent; wraps -/
def Reg.SPN_LINK_FLITS_TX (i : Nat) : Fld := ⟨0xb0100 + 32 * i, 128, 32, 0, .ro⟩
/-- Non-idle flits received; wraps -/
def Reg.SPN_LINK_FLITS_RX (i : Nat) : Fld := ⟨0xb0100 + 32 * i, 160, 32, 0, .ro⟩
/-- R622, R628, R631; saturates -/
def Reg.SPN_LINK_DISCARDED (i : Nat) : Fld := ⟨0xb0100 + 32 * i, 192, 16, 0, .rc⟩
/-- R627; saturates -/
def Reg.SPN_LINK_UNREACHABLE (i : Nat) : Fld := ⟨0xb0100 + 32 * i, 208, 16, 0, .rc⟩
/-! SPN_CLASS: Table 13-19, 13_span_and_twin.md. -/
/-- Flits outstanding (R633) -/
def Reg.SPN_CLASS_IN_FLIGHT (i : Nat) : Fld := ⟨0xb0200 + 8 * i, 0, 16, 0, .ro⟩
/-- 16 × CREDITS[c] -/
def Reg.SPN_CLASS_ALLOWANCE (i : Nat) : Fld := ⟨0xb0200 + 8 * i, 16, 16, 0, .ro⟩
/-- R625; saturates -/
def Reg.SPN_CLASS_TIMEOUTS (i : Nat) : Fld := ⟨0xb0200 + 8 * i, 32, 16, 0, .rc⟩
/-- R624 retries; saturates -/
def Reg.SPN_CLASS_NOT_READY (i : Nat) : Fld := ⟨0xb0200 + 8 * i, 48, 16, 0, .rc⟩
/-! SPN_PEER_SEL: Table 13-20, 13_span_and_twin.md. -/
/-- Module shown by SPN_PEER -/
def Reg.SPN_PEER_SEL_MODULE : Fld := ⟨0xb0300, 0, 12, 0, .rw⟩
/-! SPN_PEER: Table 13-21, 13_span_and_twin.md. -/
/-- 0 absent, 1 member, 2 lost -/
def Reg.SPN_PEER_STATE : Fld := ⟨0xb0308, 0, 2, 0, .ro⟩
/-- Epoch of its last change -/
def Reg.SPN_PEER_EPOCH : Fld := ⟨0xb0308, 16, 48, 0, .ro⟩
/-! TWN_STATUS: Table 13-22, 13_span_and_twin.md. -/
/-- 0 OFF, 1 SEEKING, 2 HELD, 3 RESYNC, 4 PAIRED, 5 SOLO, 6 DETACHED, 7 SPLIT -/
def Reg.TWN_STATUS_STATE : Fld := ⟨0xb8000, 0, 3, 0, .ro⟩
/-- SOLO and feeding a resync -/
def Reg.TWN_STATUS_FEEDING : Fld := ⟨0xb8000, 3, 1, 0, .ro⟩
/-- Link 6 ACTIVE to the partner -/
def Reg.TWN_STATUS_LINK6_UP : Fld := ⟨0xb8000, 4, 1, 0, .ro⟩
/-- Link 7 ACTIVE to the partner -/
def Reg.TWN_STATUS_LINK7_UP : Fld := ⟨0xb8000, 5, 1, 0, .ro⟩
/-- R616 -/
def Reg.TWN_STATUS_WRONG_PEER : Fld := ⟨0xb8000, 6, 1, 0, .rw1c⟩
/-- R649 -/
def Reg.TWN_STATUS_EPH_MISMATCH : Fld := ⟨0xb8000, 7, 1, 0, .ro⟩
/-- The module entered SOLO by FORCE_SOLO -/
def Reg.TWN_STATUS_FORCED : Fld := ⟨0xb8000, 8, 1, 0, .ro⟩
/-- TWIN_PARTNER -/
def Reg.TWN_STATUS_PARTNER : Fld := ⟨0xb8000, 16, 12, 0, .ro⟩
/-! TWN_CMD: Table 13-23, 13_span_and_twin.md. -/
/-- 1 DETACH, 2 REJOIN, 3 FORCE_SOLO, 4 PICK; others ignored -/
def Reg.TWN_CMD_OP : Fld := ⟨0xb8008, 0, 3, 0, .wo⟩
/-! TWN_CMD_STATUS: Table 13-24, 13_span_and_twin.md. -/
/-- A command runs -/
def Reg.TWN_CMD_STATUS_BUSY : Fld := ⟨0xb800c, 0, 1, 0, .ro⟩
/-- A command ended -/
def Reg.TWN_CMD_STATUS_DONE : Fld := ⟨0xb800c, 1, 1, 0, .rw1c⟩
/-- 0 none; 1 not allowed in this state; 2 twin links down; 3 pairing not enabled; 4 refused by the partner -/
def Reg.TWN_CMD_STATUS_ERR : Fld := ⟨0xb800c, 4, 4, 0, .ro⟩
/-! TWN_PAIR_GEN: Table 13-25, 13_span_and_twin.md. -/
/-- R650; restored from the journal at start-up -/
def Reg.TWN_PAIR_GEN_GEN : Fld := ⟨0xb8010, 0, 48, 0, .ro⟩
/-! TWN_DIRTY: Table 13-26, 13_span_and_twin.md. -/
/-- Units set in this module's bitmap -/
def Reg.TWN_DIRTY_DIRTY : Fld := ⟨0xb8018, 0, 20, 0, .ro⟩
/-- Units still to copy in the resync under way -/
def Reg.TWN_DIRTY_RESYNC_LEFT : Fld := ⟨0xb8018, 20, 20, 0, .ro⟩
/-! TWN_MIRROR: Table 13-27, 13_span_and_twin.md. -/
/-- Round trip of the last mirror, in ns; saturates -/
def Reg.TWN_MIRROR_LAST_NS : Fld := ⟨0xb8020, 0, 16, 0, .ro⟩
/-- Longest round trip; saturates -/
def Reg.TWN_MIRROR_MAX_NS : Fld := ⟨0xb8020, 16, 16, 0, .rc⟩
/-- Commands mirrored; wraps -/
def Reg.TWN_MIRROR_MIRRORED : Fld := ⟨0xb8020, 32, 32, 0, .ro⟩
/-! TWN_ACK_TIMEOUT: Table 13-28, 13_span_and_twin.md. -/
/-- µs; a write of 0 is ignored -/
def Reg.TWN_ACK_TIMEOUT_TIMEOUT : Fld := ⟨0xb8028, 0, 16, 1000, .rw⟩
/-! TWN_DIRTY_SEL: Table 13-29, 13_span_and_twin.md. -/
/-- Word w, 0 to 8,191 -/
def Reg.TWN_DIRTY_SEL_WORD : Fld := ⟨0xb8030, 0, 13, 0, .rw⟩
/-! TWN_DIRTY_WORD: Table 13-29, 13_span_and_twin.md. -/
/-- Bit i: unit 64w + i set -/
def Reg.TWN_DIRTY_WORD_BITS : Fld := ⟨0xb8038, 0, 64, 0, .ro⟩
/-! TWN_PEER_SEL: Table 13-30, 13_span_and_twin.md. -/
/-- Partner's sequence-table entry -/
def Reg.TWN_PEER_SEL_ENTRY : Fld := ⟨0xb8040, 0, 14, 0, .rw⟩
/-! TWN_PEER_ENTRY: Table 13-30, 13_span_and_twin.md. -/
/-- That entry, laid out as Table 8-7, from the last TWIN_CKPT -/
def Reg.TWN_PEER_ENTRY_ENTRY : Fld := ⟨0xb8048, 0, 64, 0, .ro⟩
/-! TWN_PEER_CKPT: Table 13-30, 13_span_and_twin.md. -/
/-- Epoch of the partner's last TWIN_CKPT -/
def Reg.TWN_PEER_CKPT_EPOCH : Fld := ⟨0xb8050, 0, 48, 0, .ro⟩
/-! SVC_STATUS: Table 14-13, 14_startup_service_and_lifetime.md. -/
/-- 0 starting, 1 restoring map, 2 ready, 3 warm reset, 4 power-loss sequence, 5 out of service, 6 refurbishment -/
def Reg.SVC_STATUS_STAGE : Fld := ⟨0x0, 0, 3, 0, .ro⟩
/-- 1 while the standby service processor runs (R45) -/
def Reg.SVC_STATUS_SP : Fld := ⟨0x0, 3, 1, 0, .ro⟩
/-- R669 -/
def Reg.SVC_STATUS_WITHDRAW : Fld := ⟨0x0, 4, 1, 0, .ro⟩
/-- A debug unlock is held -/
def Reg.SVC_STATUS_DEBUG : Fld := ⟨0x0, 5, 1, 0, .ro⟩
/-- Factory option values in use (R139) -/
def Reg.SVC_STATUS_OPT_FACTORY : Fld := ⟨0x0, 6, 1, 0, .ro⟩
/-! SVC_RESET: Table 14-13, 14_startup_service_and_lifetime.md. -/
/-- 1 warm, 2 cold -/
def Reg.SVC_RESET_KIND : Fld := ⟨0x4, 0, 2, 0, .wo⟩
/-- Must be 0xA5C3, or the write is ignored -/
def Reg.SVC_RESET_KEY : Fld := ⟨0x4, 16, 16, 0, .wo⟩
/-! SVC_LOCK: Table 14-13, 14_startup_service_and_lifetime.md. -/
/-- Locks every RWL field, this one included, until cold reset -/
def Reg.SVC_LOCK_LOCK : Fld := ⟨0x8, 0, 1, 0, .rwl⟩
/-! SVC_CTRL: Table 14-13, 14_startup_service_and_lifetime.md. -/
/-- Table 14-4 -/
def Reg.SVC_CTRL_LOCATE : Fld := ⟨0xc, 0, 1, 0, .rw⟩
/-! SVC_UPTIME: Table 14-13, 14_startup_service_and_lifetime.md. -/
/-- ms since P54 came in range -/
def Reg.SVC_UPTIME_MS : Fld := ⟨0x10, 0, 64, 0, .ro⟩
/-! SVC_MILESTONE: Table 14-13, 14_startup_service_and_lifetime.md. -/
/-- Time of chart in force, ms after P54 -/
def Reg.SVC_MILESTONE_CHART_MS : Fld := ⟨0x18, 0, 16, 0, .ro⟩
/-- End of self-test -/
def Reg.SVC_MILESTONE_SELFTEST_MS : Fld := ⟨0x18, 16, 16, 0, .ro⟩
/-- End of map restore -/
def Reg.SVC_MILESTONE_RESTORE_MS : Fld := ⟨0x18, 32, 16, 0, .ro⟩
/-- NVMe controller able to report ready -/
def Reg.SVC_MILESTONE_READY_MS : Fld := ⟨0x18, 48, 16, 0, .ro⟩
/-! SVC_REFURB: Table 14-13, 14_startup_service_and_lifetime.md. -/
/-- 1 BEGIN, 2 RETEST, 3 END -/
def Reg.SVC_REFURB_OP : Fld := ⟨0x20, 0, 2, 0, .wo⟩
/-- Refurbishment active -/
def Reg.SVC_REFURB_ACTIVE : Fld := ⟨0x20, 2, 1, 0, .ro⟩
/-- RETEST running -/
def Reg.SVC_REFURB_BUSY : Fld := ⟨0x20, 3, 1, 0, .ro⟩
/-- 0 none, 1 R704 not met, 2 not active, 3 out of order -/
def Reg.SVC_REFURB_ERR : Fld := ⟨0x20, 4, 4, 0, .ro⟩
/-- Units cleared by RETEST -/
def Reg.SVC_REFURB_CLEARED : Fld := ⟨0x20, 8, 16, 0, .ro⟩
/-! IDN_SERIAL: Table 14-14, 14_startup_service_and_lifetime.md. -/
/-- Module serial, ASCII -/
def Reg.IDN_SERIAL_SERIAL : Fld := ⟨0x1000, 0, 128, 0, .ro⟩
/-! IDN_STEPPING: Table 14-14, 14_startup_service_and_lifetime.md. -/
/-- Stepping code of the compute dies, as Table 3-1 -/
def Reg.IDN_STEPPING_COMPUTE : Fld := ⟨0x1010, 0, 8, 0, .ro⟩
/-- Stepping code of the hub dies -/
def Reg.IDN_STEPPING_HUB : Fld := ⟨0x1010, 8, 8, 0, .ro⟩
/-! IDN_BAY: Table 14-14, 14_startup_service_and_lifetime.md. -/
/-- R677 -/
def Reg.IDN_BAY_BAY : Fld := ⟨0x1018, 0, 8, 0, .ro⟩
/-- R677 -/
def Reg.IDN_BAY_TWIN_BAY : Fld := ⟨0x1018, 8, 8, 0, .ro⟩
/-- R677 -/
def Reg.IDN_BAY_MODULE_HINT : Fld := ⟨0x1018, 16, 12, 0, .ro⟩
/-- Bay memory read and CRC good -/
def Reg.IDN_BAY_VALID : Fld := ⟨0x1018, 28, 1, 0, .ro⟩
/-- R678 -/
def Reg.IDN_BAY_MOVED : Fld := ⟨0x1018, 29, 1, 0, .rw1c⟩
/-! IDN_LOG_TOTAL: Table 14-14, 14_startup_service_and_lifetime.md. -/
/-- Log-book records ever written -/
def Reg.IDN_LOG_TOTAL_TOTAL : Fld := ⟨0x1020, 0, 64, 0, .ro⟩
/-! IDN_LOG_SEL: Table 14-14, 14_startup_service_and_lifetime.md. -/
/-- Record shown: 0 newest, up to 8,063 -/
def Reg.IDN_LOG_SEL_BACK : Fld := ⟨0x1028, 0, 13, 0, .rw⟩
/-! IDN_LOG_DATA: Table 14-14, 14_startup_service_and_lifetime.md. -/
/-- Table 14-9; zero beyond the records held -/
def Reg.IDN_LOG_DATA_RECORD : Fld := ⟨0x1030, 0, 256, 0, .ro⟩
/-! IDN_CART: Table 14-14, 14_startup_service_and_lifetime.md. -/
/-- Cartridge serial; zero when empty -/
def Reg.IDN_CART_SERIAL (i : Nat) : Fld := ⟨0x1100 + 32 * i, 0, 128, 0, .ro⟩
/-- From the current counter record -/
def Reg.IDN_CART_TOTAL_ERASES (i : Nat) : Fld := ⟨0x1100 + 32 * i, 128, 64, 0, .ro⟩
/-! PWR_DOMAIN_REQ: Table 14-15, 14_startup_service_and_lifetime.md. -/
/-- Domain, Table 1-13 -/
def Reg.PWR_DOMAIN_REQ_DOMAIN : Fld := ⟨0xc0000, 0, 5, 0, .wo⟩
/-- 1 on, 0 off -/
def Reg.PWR_DOMAIN_REQ_ON : Fld := ⟨0xc0000, 5, 1, 0, .wo⟩
/-! PWR_DOMAIN_STATUS: Table 14-15, 14_startup_service_and_lifetime.md. -/
/-- Bit n: domain n on -/
def Reg.PWR_DOMAIN_STATUS_ON : Fld := ⟨0xc0008, 0, 30, 0, .ro⟩
/-- 0 none, 1 R55, 2 R56, 3 R58, 4 R59, 5 not switchable, 6 busy -/
def Reg.PWR_DOMAIN_STATUS_ERR : Fld := ⟨0xc0008, 32, 4, 0, .ro⟩
/-- 0 none, 1 cartridge active (R694), 2 slot empty -/
def Reg.PWR_DOMAIN_STATUS_SLOT_ERR : Fld := ⟨0xc0008, 36, 4, 0, .ro⟩
/-! PWR_SLOT_CTRL: Table 14-15, 14_startup_service_and_lifetime.md. -/
/-- Slot -/
def Reg.PWR_SLOT_CTRL_SLOT : Fld := ⟨0xc0010, 0, 4, 0, .wo⟩
/-- Load switch -/
def Reg.PWR_SLOT_CTRL_ON : Fld := ⟨0xc0010, 4, 1, 0, .wo⟩
/-! PWR_THERMAL: Table 14-15, 14_startup_service_and_lifetime.md. -/
/-- Table 14-12 -/
def Reg.PWR_THERMAL_STEP : Fld := ⟨0xc0020, 0, 3, 0, .ro⟩
/-- Bit 0 sensor, 1 inlet, 2 flow, 3 power cap, 4 cartridge hold (R693) -/
def Reg.PWR_THERMAL_CAUSE : Fld := ⟨0xc0020, 8, 8, 0, .ro⟩
/-- 1/64 °C -/
def Reg.PWR_THERMAL_HOTTEST : Fld := ⟨0xc0020, 16, 16, 0, .ro⟩
/-- 1/64 °C -/
def Reg.PWR_THERMAL_INLET : Fld := ⟨0xc0020, 32, 16, 0, .ro⟩
/-- mL/min -/
def Reg.PWR_THERMAL_FLOW : Fld := ⟨0xc0020, 48, 16, 0, .ro⟩
/-! PWR_INPUT: Table 14-15, 14_startup_service_and_lifetime.md. -/
/-- 10 mV units -/
def Reg.PWR_INPUT_VOLTS : Fld := ⟨0xc0028, 0, 16, 0, .ro⟩
/-- 10 ms mean -/
def Reg.PWR_INPUT_WATTS : Fld := ⟨0xc0028, 16, 16, 0, .ro⟩
/-- Highest 1 ms mean since read -/
def Reg.PWR_INPUT_PEAK : Fld := ⟨0xc0028, 32, 16, 0, .rc⟩
/-! PWR_ENERGY: Table 14-15, 14_startup_service_and_lifetime.md. -/
/-- Lifetime input energy, Wh -/
def Reg.PWR_ENERGY_WH : Fld := ⟨0xc0030, 0, 64, 0, .ro⟩
/-! PWR_CAP: Table 14-15, 14_startup_service_and_lifetime.md. -/
/-- 600 to 1,250 W; other values ignored -/
def Reg.PWR_CAP_CAP_W : Fld := ⟨0xc0038, 0, 16, 1250, .rwl⟩
/-! PWR_HOLDUP: Table 14-15, 14_startup_service_and_lifetime.md. -/
/-- Last measurement, 10 mJ units -/
def Reg.PWR_HOLDUP_ENERGY : Fld := ⟨0xc0040, 0, 16, 0, .ro⟩
/-- Below 16 J (R21) -/
def Reg.PWR_HOLDUP_LOW : Fld := ⟨0xc0040, 16, 1, 0, .ro⟩
/-! PWR_TEMP_SEL: Table 14-15, 14_startup_service_and_lifetime.md. -/
/-- 0–127 compute die 32d + n; 128–135 HBM stacks; 136–139 hubs; 140–148 cartridges; 149 inlet; 150 outlet -/
def Reg.PWR_TEMP_SEL_SENSOR : Fld := ⟨0xc0048, 0, 8, 0, .rw⟩
/-! PWR_TEMP: Table 14-15, 14_startup_service_and_lifetime.md. -/
/-- 1/64 °C, calibrated -/
def Reg.PWR_TEMP_VALUE : Fld := ⟨0xc004c, 0, 16, 0, .ro⟩
/-! CAL_CMD: Table 14-15, 14_startup_service_and_lifetime.md. -/
/-- 1 EXPORT, 2 WRITE -/
def Reg.CAL_CMD_OP : Fld := ⟨0xc8000, 0, 2, 0, .wo⟩
/-! CAL_DMA_ADDR: Table 14-15, 14_startup_service_and_lifetime.md. -/
/-- Host address, 4 KiB-aligned -/
def Reg.CAL_DMA_ADDR_ADDR : Fld := ⟨0xc8008, 0, 64, 0, .rw⟩
/-! CAL_STATUS: Table 14-15, 14_startup_service_and_lifetime.md. -/
/-- A command runs -/
def Reg.CAL_STATUS_BUSY : Fld := ⟨0xc8010, 0, 1, 0, .ro⟩
/-- A command ended -/
def Reg.CAL_STATUS_DONE : Fld := ⟨0xc8010, 1, 1, 0, .rw1c⟩
/-- 0 none, 1 MAGIC or CRC, 2 serial, 3 range, 4 factory signature, 5 SVC_LOCK set, 6 DMA error, 7 configuration flash failure, 8 busy -/
def Reg.CAL_STATUS_ERR : Fld := ⟨0xc8010, 4, 4, 0, .ro⟩
/-- Lifetime calibration overwrites -/
def Reg.CAL_STATUS_OVERWRITES : Fld := ⟨0xc8010, 8, 16, 0, .ro⟩
/-! CAL_ORIGIN: Table 14-15, 14_startup_service_and_lifetime.md. -/
/-- 0 factory, 1 user -/
def Reg.CAL_ORIGIN_ORIGIN : Fld := ⟨0xc8014, 0, 1, 0, .ro⟩
/-! SCB_CMD: Table 10-21, 10_flash_media.md. -/
/-- 1 START, 2 STOP -/
def Reg.SCB_CMD_OP (i : Nat) : Fld := ⟨0x98000 + 64 * i, 0, 2, 0, .wo⟩
/-- 0 flash stripes, 1 HBM -/
def Reg.SCB_CMD_KIND (i : Nat) : Fld := ⟨0x98000 + 64 * i, 2, 1, 0, .wo⟩
/-! SCB_START: Table 10-21, 10_flash_media.md. -/
/-- Stripe index, or 2 MiB unit of local offset -/
def Reg.SCB_START_FIRST (i : Nat) : Fld := ⟨0x98008 + 64 * i, 0, 48, 0, .rw⟩
/-! SCB_COUNT: Table 10-21, 10_flash_media.md. -/
/-- Stripes or 2 MiB units -/
def Reg.SCB_COUNT_COUNT (i : Nat) : Fld := ⟨0x98010 + 64 * i, 0, 32, 0, .rw⟩
/-! SCB_STATUS: Table 10-21, 10_flash_media.md. -/
/-- Scrub running -/
def Reg.SCB_STATUS_BUSY (i : Nat) : Fld := ⟨0x98018 + 64 * i, 0, 1, 0, .ro⟩
/-- Scrub ended -/
def Reg.SCB_STATUS_DONE (i : Nat) : Fld := ⟨0x98018 + 64 * i, 1, 1, 0, .rw1c⟩
/-- Ended by STOP -/
def Reg.SCB_STATUS_STOPPED (i : Nat) : Fld := ⟨0x98018 + 64 * i, 2, 1, 0, .rw1c⟩
/-- 0 none, 1 range invalid, 2 context busy -/
def Reg.SCB_STATUS_ERR (i : Nat) : Fld := ⟨0x98018 + 64 * i, 4, 4, 0, .ro⟩
/-! SCB_SUM0: Table 10-21, 10_flash_media.md. -/
/-- Table 10-10; saturates -/
def Reg.SCB_SUM0_CLEAN (i : Nat) : Fld := ⟨0x98020 + 64 * i, 0, 48, 0, .ro⟩
/-- Table 10-10 -/
def Reg.SCB_SUM0_MAX_BITS (i : Nat) : Fld := ⟨0x98020 + 64 * i, 48, 16, 0, .ro⟩
/-! SCB_SUM1: Table 10-21, 10_flash_media.md. -/
/-- Saturates -/
def Reg.SCB_SUM1_CORRECTED (i : Nat) : Fld := ⟨0x98028 + 64 * i, 0, 32, 0, .ro⟩
/-- Saturates -/
def Reg.SCB_SUM1_UNCORR (i : Nat) : Fld := ⟨0x98028 + 64 * i, 32, 16, 0, .ro⟩
/-- Saturates -/
def Reg.SCB_SUM1_RETIRED (i : Nat) : Fld := ⟨0x98028 + 64 * i, 48, 16, 0, .ro⟩
/-! SCB_SUM2: Table 10-21, 10_flash_media.md. -/
/-- — -/
def Reg.SCB_SUM2_EPOCHS (i : Nat) : Fld := ⟨0x98030 + 64 * i, 0, 32, 0, .ro⟩
/-- Saturates -/
def Reg.SCB_SUM2_SKIPPED (i : Nat) : Fld := ⟨0x98030 + 64 * i, 32, 32, 0, .ro⟩

/-- The register map, part 0. -/
def Reg.map0 : List RegD := [
  ⟨"SVC_DIE_MAP", 0x8000, [], 32,
    [Reg.SVC_DIE_MAP_DIE_PRESENT, Reg.SVC_DIE_MAP_DIE_INSERVICE, Reg.SVC_DIE_MAP_LOG_OF_PHYS, Reg.SVC_DIE_MAP_ACTIVE_DIES]⟩,
  ⟨"SVC_CLU_MAP", 0x8010, [(4, 8)], 64,
    [Reg.SVC_CLU_MAP_CLU_INSERVICE 0, Reg.SVC_CLU_MAP_CLU_RETIRED 0]⟩,
  ⟨"SVC_CORE_MAP", 0x8100, [(4, 128), (26, 4)], 32,
    [Reg.SVC_CORE_MAP_CORE_INSERVICE 0 0, Reg.SVC_CORE_MAP_CORE_RETIRED 0 0]⟩,
  ⟨"SVC_HIER_FAULT", 0x8400, [], 64,
    [Reg.SVC_HIER_FAULT_VALID, Reg.SVC_HIER_FAULT_OVERFLOW, Reg.SVC_HIER_FAULT_LEVEL, Reg.SVC_HIER_FAULT_DIE, Reg.SVC_HIER_FAULT_CLUSTER, Reg.SVC_HIER_FAULT_CORE, Reg.SVC_HIER_FAULT_LANE, Reg.SVC_HIER_FAULT_KIND, Reg.SVC_HIER_FAULT_ACTION]⟩,
  ⟨"SVC_HIER_FAULT_EPOCH", 0x8408, [], 64,
    [Reg.SVC_HIER_FAULT_EPOCH_EPOCH]⟩,
  ⟨"TRN_CTRL", 0x10000, [], 32,
    [Reg.TRN_CTRL_SOURCE, Reg.TRN_CTRL_EDGE, Reg.TRN_CTRL_REACQUIRE]⟩,
  ⟨"TRN_STATUS", 0x10004, [], 32,
    [Reg.TRN_STATUS_STATE, Reg.TRN_STATUS_SOURCE_USED, Reg.TRN_STATUS_HOLDOVER_EPOCHS, Reg.TRN_STATUS_ACQ_TIMEOUT, Reg.TRN_STATUS_EPOCH_STEP, Reg.TRN_STATUS_EPOCH_REFUSED, Reg.TRN_STATUS_PERIOD_REFUSED, Reg.TRN_STATUS_LOST_LOCK, Reg.TRN_STATUS_EPOCH_RESHAPED]⟩,
  ⟨"TRN_EPOCH", 0x10008, [], 64,
    [Reg.TRN_EPOCH_EPOCH]⟩,
  ⟨"TRN_PHASE", 0x10010, [], 32,
    [Reg.TRN_PHASE_PHASE, Reg.TRN_PHASE_LAST_ERROR]⟩,
  ⟨"TRN_PERIOD", 0x10014, [], 32,
    [Reg.TRN_PERIOD_PERIOD]⟩,
  ⟨"TRN_DEFAULT_PERIOD", 0x10018, [], 32,
    [Reg.TRN_DEFAULT_PERIOD_DEFAULT_PERIOD]⟩,
  ⟨"TRN_EPOCH_SET", 0x10020, [], 64,
    [Reg.TRN_EPOCH_SET_VALUE]⟩,
  ⟨"TRN_NEXT_EPOCH", 0x10028, [], 64,
    [Reg.TRN_NEXT_EPOCH_NEXT_EPOCH]⟩,
  ⟨"TRN_NEXT_PERIOD", 0x10030, [], 32,
    [Reg.TRN_NEXT_PERIOD_NEXT_PERIOD]⟩,
  ⟨"TRN_COUNT", 0x10038, [], 64,
    [Reg.TRN_COUNT_EDGES, Reg.TRN_COUNT_STRAY]⟩,
  ⟨"TRN_INBAND", 0x10040, [], 64,
    [Reg.TRN_INBAND_SRC_MODULE, Reg.TRN_INBAND_HOPS, Reg.TRN_INBAND_PATH_DELAY]⟩,
  ⟨"EPH_CTRL", 0x18000, [], 32,
    [Reg.EPH_CTRL_ARM, Reg.EPH_CTRL_DISARM]⟩,
  ⟨"EPH_STATUS", 0x18004, [], 32,
    [Reg.EPH_STATUS_ACTIVE_BANK, Reg.EPH_STATUS_ARMED, Reg.EPH_STATUS_OVERLAP_GROUPS, Reg.EPH_STATUS_WRITE_WHILE_ARMED, Reg.EPH_STATUS_ARM_ERR, Reg.EPH_STATUS_BAD_ENTRY]⟩,
  ⟨"EPH_SWAP_EPOCH", 0x18008, [], 64,
    [Reg.EPH_SWAP_EPOCH_SWAP_EPOCH]⟩,
  ⟨"EPH_CYCLE", 0x18010, [], 32,
    [Reg.EPH_CYCLE_SHADOW_LEN, Reg.EPH_CYCLE_ACTIVE_LEN, Reg.EPH_CYCLE_CYCLE_INDEX]⟩]
/-- The register map, part 1. -/
def Reg.map1 : List RegD := [
  ⟨"EPH_GRANT", 0x18014, [], 32,
    [Reg.EPH_GRANT_OPEN]⟩,
  ⟨"EPH_SWAPS", 0x18018, [], 32,
    [Reg.EPH_SWAPS_SWAPS]⟩,
  ⟨"EPH_OVERRUN", 0x18040, [(7, 4)], 32,
    [Reg.EPH_OVERRUN_OVERRUNS 0]⟩,
  ⟨"EPH_STARVE", 0x18060, [(4, 4)], 32,
    [Reg.EPH_STARVE_STARVED_CYCLES 0]⟩,
  ⟨"CHT_CMD", 0x20000, [], 32,
    [Reg.CHT_CMD_OP, Reg.CHT_CMD_BANK, Reg.CHT_CMD_DIE, Reg.CHT_CMD_CLUSTER]⟩,
  ⟨"CHT_STATUS", 0x20004, [], 32,
    [Reg.CHT_STATUS_BUSY, Reg.CHT_STATUS_STAGE, Reg.CHT_STATUS_DONE, Reg.CHT_STATUS_IN_FORCE_BANK, Reg.CHT_STATUS_BUILTIN, Reg.CHT_STATUS_FALLBACK_USED, Reg.CHT_STATUS_ERR, Reg.CHT_STATUS_ERR_FRAME]⟩,
  ⟨"CHT_ERR_DETAIL", 0x20008, [], 32,
    [Reg.CHT_ERR_DETAIL_OFFSET, Reg.CHT_ERR_DETAIL_SUBCODE]⟩,
  ⟨"CHT_BANK_STATE", 0x2000c, [], 32,
    [Reg.CHT_BANK_STATE_STATE_A, Reg.CHT_BANK_STATE_STATE_B]⟩,
  ⟨"CHT_DMA_ADDR", 0x20010, [], 64,
    [Reg.CHT_DMA_ADDR_ADDR]⟩,
  ⟨"CHT_DMA_LEN", 0x20018, [], 32,
    [Reg.CHT_DMA_LEN_LEN]⟩,
  ⟨"CHT_NEXT_OFFSET", 0x2001c, [], 32,
    [Reg.CHT_NEXT_OFFSET_OFFSET]⟩,
  ⟨"CHT_AUTH_ADDR", 0x20020, [], 64,
    [Reg.CHT_AUTH_ADDR_ADDR]⟩,
  ⟨"CHT_IN_FORCE", 0x20028, [], 64,
    [Reg.CHT_IN_FORCE_CHART_ID]⟩,
  ⟨"CHT_IN_FORCE_VER", 0x20030, [], 64,
    [Reg.CHT_IN_FORCE_VER_CHART_VERSION, Reg.CHT_IN_FORCE_VER_SECURITY_VERSION]⟩,
  ⟨"CHT_LOAD_EPOCH", 0x20038, [], 64,
    [Reg.CHT_LOAD_EPOCH_EPOCH]⟩,
  ⟨"CHT_COUNT", 0x20040, [], 32,
    [Reg.CHT_COUNT_FULL_LOADS, Reg.CHT_COUNT_PARTIAL_LOADS]⟩,
  ⟨"CPL_COMMIT", 0x28000, [], 32,
    [Reg.CPL_COMMIT_GROUP]⟩,
  ⟨"CPL_STATUS", 0x28004, [], 32,
    [Reg.CPL_STATUS_LAST_GROUP, Reg.CPL_STATUS_LAST_RESULT, Reg.CPL_STATUS_WRITE_WHILE_PENDING, Reg.CPL_STATUS_HOLD_ACTIVE, Reg.CPL_STATUS_HOLD_TIMEOUT]⟩,
  ⟨"CPL_APPLIED_EPOCH", 0x28008, [], 64,
    [Reg.CPL_APPLIED_EPOCH_EPOCH]⟩,
  ⟨"CPL_HOLD", 0x28010, [], 32,
    [Reg.CPL_HOLD_HOLD_GROUP, Reg.CPL_HOLD_HOLD_COUNT]⟩]
/-- The register map, part 2. -/
def Reg.map2 : List RegD := [
  ⟨"CPL_HOLD_LIMIT", 0x28014, [], 32,
    [Reg.CPL_HOLD_LIMIT_LIMIT]⟩,
  ⟨"SEQ_CORE_STATUS", 0x100800, [(4, 262144), (26, 8192), (9, 64)], 64,
    [Reg.SEQ_CORE_STATUS_STATE 0 0 0, Reg.SEQ_CORE_STATUS_MODE 0 0 0, Reg.SEQ_CORE_STATUS_BANK0 0 0 0, Reg.SEQ_CORE_STATUS_BANK1 0 0 0, Reg.SEQ_CORE_STATUS_FREEZE_CAUSE 0 0 0, Reg.SEQ_CORE_STATUS_SPARE_IN_USE 0 0 0, Reg.SEQ_CORE_STATUS_LANES_RETIRED 0 0 0, Reg.SEQ_CORE_STATUS_MODES 0 0 0, Reg.SEQ_CORE_STATUS_DEFAULT_MODE 0 0 0, Reg.SEQ_CORE_STATUS_BYP_A 0 0 0, Reg.SEQ_CORE_STATUS_BYP_A_V 0 0 0, Reg.SEQ_CORE_STATUS_BYP_B 0 0 0, Reg.SEQ_CORE_STATUS_BYP_B_V 0 0 0, Reg.SEQ_CORE_STATUS_RAMP_LIMIT 0 0 0, Reg.SEQ_CORE_STATUS_EYE_EN 0 0 0]⟩,
  ⟨"SEQ_CORE_FREEZE", 0x100808, [(4, 262144), (26, 8192), (9, 64)], 64,
    [Reg.SEQ_CORE_FREEZE_FEED 0 0 0, Reg.SEQ_CORE_FREEZE_WEIGHT 0 0 0, Reg.SEQ_CORE_FREEZE_DRAIN 0 0 0, Reg.SEQ_CORE_FREEZE_RAMP 0 0 0]⟩,
  ⟨"SEQ_CORE_DUMMY", 0x100810, [(4, 262144), (26, 8192), (9, 64)], 64,
    [Reg.SEQ_CORE_DUMMY_LANE_CYCLES 0 0 0]⟩,
  ⟨"SEQ_CORE_ACTIVE", 0x100818, [(4, 262144), (26, 8192), (9, 64)], 64,
    [Reg.SEQ_CORE_ACTIVE_CYCLES 0 0 0]⟩,
  ⟨"SEQ_CORE_ECC", 0x100820, [(4, 262144), (26, 8192), (9, 64)], 64,
    [Reg.SEQ_CORE_ECC_PLATES_CORR 0 0 0, Reg.SEQ_CORE_ECC_WREG_CORR 0 0 0, Reg.SEQ_CORE_ECC_ACC_CORR 0 0 0, Reg.SEQ_CORE_ECC_UNCORR 0 0 0]⟩,
  ⟨"SEQ_CORE_CE", 0x100828, [(4, 262144), (26, 8192), (9, 64)], 32,
    [Reg.SEQ_CORE_CE_BUSY 0 0 0, Reg.SEQ_CORE_CE_LAST_FAULT 0 0 0]⟩,
  ⟨"SEQ_STATUS", 0x100000, [(4, 262144), (26, 8192)], 32,
    [Reg.SEQ_STATUS_STATE 0 0, Reg.SEQ_STATUS_SEL_UNSPEC 0 0, Reg.SEQ_STATUS_QUEUE 0 0]⟩,
  ⟨"SEQ_CURRENT", 0x100008, [(4, 262144), (26, 8192)], 64,
    [Reg.SEQ_CURRENT_OPCODE 0 0, Reg.SEQ_CURRENT_TAG 0 0]⟩,
  ⟨"SEQ_WALK", 0x100010, [(4, 262144), (26, 8192)], 64,
    [Reg.SEQ_WALK_BATCH 0 0, Reg.SEQ_WALK_M_TILE 0 0, Reg.SEQ_WALK_N_TILE 0 0, Reg.SEQ_WALK_K_TILE 0 0]⟩,
  ⟨"SEQ_FAULT", 0x100018, [(4, 262144), (26, 8192)], 64,
    [Reg.SEQ_FAULT_VALID 0 0, Reg.SEQ_FAULT_OVERFLOW 0 0, Reg.SEQ_FAULT_CODE 0 0, Reg.SEQ_FAULT_OPCODE 0 0, Reg.SEQ_FAULT_TAG 0 0]⟩,
  ⟨"SEQ_FAULT_TILE", 0x100020, [(4, 262144), (26, 8192)], 64,
    [Reg.SEQ_FAULT_TILE_TILE 0 0]⟩,
  ⟨"SEQ_FAULT_ACC", 0x100028, [(4, 262144), (26, 8192)], 64,
    [Reg.SEQ_FAULT_ACC_BANKS 0 0, Reg.SEQ_FAULT_ACC_NEEDED 0 0, Reg.SEQ_FAULT_ACC_HELD 0 0]⟩,
  ⟨"SEQ_MACROS", 0x100030, [(4, 262144), (26, 8192)], 64,
    [Reg.SEQ_MACROS_COMPLETED 0 0]⟩,
  ⟨"SEQ_TILES", 0x100038, [(4, 262144), (26, 8192)], 64,
    [Reg.SEQ_TILES_EXECUTED 0 0]⟩,
  ⟨"SEQ_SKIPPED", 0x100040, [(4, 262144), (26, 8192)], 64,
    [Reg.SEQ_SKIPPED_SKIPPED 0 0]⟩,
  ⟨"SEQ_MARKS", 0x100048, [(4, 262144), (26, 8192)], 64,
    [Reg.SEQ_MARKS_TAKEN 0 0, Reg.SEQ_MARKS_PASSED 0 0]⟩,
  ⟨"SEQ_SAVE", 0x100050, [(4, 262144), (26, 8192)], 64,
    [Reg.SEQ_SAVE_LAST_KIB 0 0, Reg.SEQ_SAVE_LAST_CYCLES 0 0]⟩,
  ⟨"SEQ_HINT", 0x100058, [(4, 262144), (26, 8192)], 32,
    [Reg.SEQ_HINT_IGNORED 0 0]⟩,
  ⟨"EYE_CTRL", 0x101000, [(4, 262144), (26, 8192)], 32,
    [Reg.EYE_CTRL_HALT 0 0]⟩]
/-- The register map, part 3. -/
def Reg.map3 : List RegD := [
  ⟨"EYE_STATUS", 0x101004, [(4, 262144), (26, 8192)], 32,
    [Reg.EYE_STATUS_HALTED 0 0, Reg.EYE_STATUS_ENABLED 0 0, Reg.EYE_STATUS_UNLOCKED 0 0, Reg.EYE_STATUS_REFUSED 0 0]⟩,
  ⟨"EYE_SELECT", 0x101008, [(4, 262144), (26, 8192)], 32,
    [Reg.EYE_SELECT_CORE 0 0, Reg.EYE_SELECT_ROW 0 0]⟩,
  ⟨"EYE_DATA", 0x101100, [(4, 262144), (26, 8192), (64, 4)], 32,
    [Reg.EYE_DATA_VALUE 0 0 0]⟩,
  ⟨"TIR_CMD", 0xd0000, [], 32,
    [Reg.TIR_CMD_OP, Reg.TIR_CMD_TIER, Reg.TIR_CMD_HOME, Reg.TIR_CMD_ACCOUNT]⟩,
  ⟨"TIR_CMD_ADDR", 0xd0008, [], 64,
    [Reg.TIR_CMD_ADDR_ADDR]⟩,
  ⟨"TIR_CMD_ARG", 0xd0010, [], 64,
    [Reg.TIR_CMD_ARG_COUNT, Reg.TIR_CMD_ARG_MODULE]⟩,
  ⟨"TIR_CMD_STATUS", 0xd0018, [], 64,
    [Reg.TIR_CMD_STATUS_BUSY, Reg.TIR_CMD_STATUS_DONE, Reg.TIR_CMD_STATUS_ERR, Reg.TIR_CMD_STATUS_PAGES_DONE]⟩,
  ⟨"TIR_WATER", 0xd0020, [], 32,
    [Reg.TIR_WATER_LOW, Reg.TIR_WATER_HIGH]⟩,
  ⟨"TIR_FREE", 0xd0028, [], 64,
    [Reg.TIR_FREE_FREE]⟩,
  ⟨"TIR_ACCT_SEL", 0xd0030, [], 32,
    [Reg.TIR_ACCT_SEL_ACCOUNT]⟩,
  ⟨"TIR_ACCT_USE", 0xd0038, [], 64,
    [Reg.TIR_ACCT_USE_HBM_PAGES, Reg.TIR_ACCT_USE_FAR_PAGES]⟩,
  ⟨"TIR_ACCT_REM", 0xd0040, [], 32,
    [Reg.TIR_ACCT_REM_REMOTE_PAGES]⟩,
  ⟨"TIR_COUNT", 0xd0048, [], 64,
    [Reg.TIR_COUNT_DEMAND, Reg.TIR_COUNT_DEMOTE, Reg.TIR_COUNT_DEMOTE_STOPPED]⟩,
  ⟨"TIR_ALM", 0xd0050, [], 64,
    [Reg.TIR_ALM_FETCHED, Reg.TIR_ALM_LATE, Reg.TIR_ALM_SKIPPED]⟩,
  ⟨"TIR_COUDE_SHARE", 0xd0058, [], 32,
    [Reg.TIR_COUDE_SHARE_PERCENT]⟩,
  ⟨"TIR_LOST", 0xd005c, [], 32,
    [Reg.TIR_LOST_PAGES]⟩,
  ⟨"TIR_FAULT_ADDR", 0xd0060, [], 64,
    [Reg.TIR_FAULT_ADDR_ADDR, Reg.TIR_FAULT_ADDR_ACCOUNT, Reg.TIR_FAULT_ADDR_VALID]⟩,
  ⟨"TIR_FAULT_INFO", 0xd0068, [], 32,
    [Reg.TIR_FAULT_INFO_KIND]⟩,
  ⟨"TIR_MODEL_ID", 0xd1000, [(128, 32)], 32,
    [Reg.TIR_MODEL_ID_MODEL 0, Reg.TIR_MODEL_ID_ACCOUNT 0]⟩,
  ⟨"TIR_MODEL_CTRL", 0xd1004, [(128, 32)], 32,
    [Reg.TIR_MODEL_CTRL_STATE 0, Reg.TIR_MODEL_CTRL_LOAD 0, Reg.TIR_MODEL_CTRL_UNLOAD 0, Reg.TIR_MODEL_CTRL_ERR 0, Reg.TIR_MODEL_CTRL_LAYERS 0]⟩]
/-- The register map, part 4. -/
def Reg.map4 : List RegD := [
  ⟨"TIR_MODEL_LAYERS", 0xd1008, [(128, 32)], 64,
    [Reg.TIR_MODEL_LAYERS_ADDR 0, Reg.TIR_MODEL_LAYERS_COUNT 0]⟩,
  ⟨"TIR_MODEL_ALMANAC", 0xd1010, [(128, 32)], 64,
    [Reg.TIR_MODEL_ALMANAC_ADDR 0, Reg.TIR_MODEL_ALMANAC_COUNT 0]⟩,
  ⟨"TIR_ACH_CFG", 0xd2000, [(64, 32)], 64,
    [Reg.TIR_ACH_CFG_ENABLE 0, Reg.TIR_ACH_CFG_DIR 0, Reg.TIR_ACH_CFG_LOCAL_DIE 0, Reg.TIR_ACH_CFG_PEER_DIE 0, Reg.TIR_ACH_CFG_PEER_MODULE 0, Reg.TIR_ACH_CFG_SLOT_COUNT 0, Reg.TIR_ACH_CFG_ACCOUNT 0, Reg.TIR_ACH_CFG_SLOT_UNITS 0]⟩,
  ⟨"TIR_ACH_BASE", 0xd2008, [(64, 32)], 64,
    [Reg.TIR_ACH_BASE_BASE 0]⟩,
  ⟨"TIR_ACH_STATUS", 0xd2010, [(64, 32)], 64,
    [Reg.TIR_ACH_STATUS_STATE 0, Reg.TIR_ACH_STATUS_ERR 0, Reg.TIR_ACH_STATUS_NEXT 0, Reg.TIR_ACH_STATUS_NOT_READY 0, Reg.TIR_ACH_STATUS_MOVED 0]⟩,
  ⟨"SQT_ENTRY", 0x40000, [(16384, 8)], 64,
    [Reg.SQT_ENTRY_STATE 0, Reg.SQT_ENTRY_GROUP 0, Reg.SQT_ENTRY_STALL 0, Reg.SQT_ENTRY_LENGTH 0, Reg.SQT_ENTRY_SETS 0, Reg.SQT_ENTRY_CANCEL_PENDING 0, Reg.SQT_ENTRY_PREFILL 0]⟩,
  ⟨"SQT_CTRL", 0x60000, [], 32,
    [Reg.SQT_CTRL_FAIL_LIMIT]⟩,
  ⟨"SQT_CMD", 0x60004, [], 32,
    [Reg.SQT_CMD_OP, Reg.SQT_CMD_GROUP, Reg.SQT_CMD_ENTRY]⟩,
  ⟨"SQT_COUNT", 0x60008, [], 64,
    [Reg.SQT_COUNT_RUNNING, Reg.SQT_COUNT_STALLED, Reg.SQT_COUNT_OUT, Reg.SQT_COUNT_WAITING]⟩,
  ⟨"SQT_GRP_CFG", 0x60100, [(8, 128)], 64,
    [Reg.SQT_GRP_CFG_ENABLE 0, Reg.SQT_GRP_CFG_JOB_CLASS 0, Reg.SQT_GRP_CFG_PROGRAM 0, Reg.SQT_GRP_CFG_ACCOUNT 0, Reg.SQT_GRP_CFG_TOKENS_PER_PAGE 0]⟩,
  ⟨"SQT_GRP_SHAPE", 0x60108, [(8, 128)], 64,
    [Reg.SQT_GRP_SHAPE_SET_PAGES 0, Reg.SQT_GRP_SHAPE_SET_DIES 0, Reg.SQT_GRP_SHAPE_JOIN_LOG2 0, Reg.SQT_GRP_SHAPE_EVENT_LOG2 0, Reg.SQT_GRP_SHAPE_POOL_PAGES 0]⟩,
  ⟨"SQT_GRP_KV_BASE", 0x60110, [(8, 128)], 64,
    [Reg.SQT_GRP_KV_BASE_ADDR 0]⟩,
  ⟨"SQT_GRP_LIST", 0x60118, [(8, 128)], 64,
    [Reg.SQT_GRP_LIST_ADDR 0]⟩,
  ⟨"SQT_GRP_PAGES", 0x60120, [(8, 128)], 64,
    [Reg.SQT_GRP_PAGES_ADDR 0]⟩,
  ⟨"SQT_GRP_JOIN", 0x60128, [(8, 128)], 64,
    [Reg.SQT_GRP_JOIN_ADDR 0]⟩,
  ⟨"SQT_GRP_EVENT", 0x60130, [(8, 128)], 64,
    [Reg.SQT_GRP_EVENT_ADDR 0]⟩,
  ⟨"SQT_GRP_LIMITS", 0x60138, [(8, 128)], 64,
    [Reg.SQT_GRP_LIMITS_KV_LIMIT 0, Reg.SQT_GRP_LIMITS_MAX_BATCH 0, Reg.SQT_GRP_LIMITS_PREFILL_CHUNK 0, Reg.SQT_GRP_LIMITS_SWAP_AFTER 0]⟩,
  ⟨"SQT_GRP_PTR", 0x60140, [(8, 128)], 64,
    [Reg.SQT_GRP_PTR_JOIN_TAIL 0, Reg.SQT_GRP_PTR_JOIN_HEAD 0, Reg.SQT_GRP_PTR_EVENT_TAIL 0, Reg.SQT_GRP_PTR_EVENT_HEAD 0]⟩,
  ⟨"SQT_GRP_STATUS", 0x60148, [(8, 128)], 64,
    [Reg.SQT_GRP_STATUS_STATE 0, Reg.SQT_GRP_STATUS_CFG_ERR 0, Reg.SQT_GRP_STATUS_STEP_RUNNING 0, Reg.SQT_GRP_STATUS_HELD 0, Reg.SQT_GRP_STATUS_LISTED 0, Reg.SQT_GRP_STATUS_FAILS 0]⟩,
  ⟨"SQT_GRP_STEPS", 0x60150, [(8, 128)], 64,
    [Reg.SQT_GRP_STEPS_OVERRUN 0, Reg.SQT_GRP_STEPS_EMPTY 0, Reg.SQT_GRP_STEPS_FAILED 0, Reg.SQT_GRP_STEPS_SWAPS 0]⟩]
/-- The register map, part 5. -/
def Reg.map5 : List RegD := [
  ⟨"SCH_CTRL", 0x70000, [], 32,
    [Reg.SCH_CTRL_DEFAULT_SHARE]⟩,
  ⟨"SCH_PREEMPT_CFG", 0x70004, [], 32,
    [Reg.SCH_PREEMPT_CFG_MARGIN, Reg.SCH_PREEMPT_CFG_MAX_DEFER]⟩,
  ⟨"SCH_STATUS", 0x70008, [], 64,
    [Reg.SCH_STATUS_OVERLOAD, Reg.SCH_STATUS_OVERLOAD_SEEN, Reg.SCH_STATUS_JOBS]⟩,
  ⟨"SCH_PREEMPT", 0x70010, [], 64,
    [Reg.SCH_PREEMPT_TAKEN, Reg.SCH_PREEMPT_REFUSED, Reg.SCH_PREEMPT_INHERIT, Reg.SCH_PREEMPT_DEFER_LONG, Reg.SCH_PREEMPT_FORCED]⟩,
  ⟨"SCH_ACCT_SEL", 0x70020, [], 32,
    [Reg.SCH_ACCT_SEL_ACCOUNT]⟩,
  ⟨"SCH_ACCT_TIME", 0x70028, [], 64,
    [Reg.SCH_ACCT_TIME_TIME]⟩,
  ⟨"SCH_ACCT_BAL", 0x70030, [], 64,
    [Reg.SCH_ACCT_BAL_BALANCE]⟩,
  ⟨"SCH_CLASS", 0x70100, [(16, 4)], 32,
    [Reg.SCH_CLASS_ADMIT_LIMIT 0, Reg.SCH_CLASS_TRAFFIC 0]⟩,
  ⟨"SCH_BACKLOG", 0x70140, [(16, 8)], 64,
    [Reg.SCH_BACKLOG_BACKLOG 0, Reg.SCH_BACKLOG_REFUSED 0]⟩,
  ⟨"SCH_SHARE", 0x71000, [(1024, 4)], 32,
    [Reg.SCH_SHARE_ACCOUNT 0, Reg.SCH_SHARE_SHARE 0]⟩,
  ⟨"SCH_SEM", 0x74000, [(1024, 4)], 32,
    [Reg.SCH_SEM_HELD 0, Reg.SCH_SEM_WAITERS 0, Reg.SCH_SEM_OWNER 0]⟩,
  ⟨"CAT_CMD", 0x80000, [], 32,
    [Reg.CAT_CMD_OP, Reg.CAT_CMD_CAT, Reg.CAT_CMD_ACCOUNT]⟩,
  ⟨"CAT_CMD_ADDR", 0x80008, [], 64,
    [Reg.CAT_CMD_ADDR_ADDR]⟩,
  ⟨"CAT_CMD_AUX", 0x80010, [], 64,
    [Reg.CAT_CMD_AUX_AUX]⟩,
  ⟨"CAT_CMD_ARG", 0x80018, [], 32,
    [Reg.CAT_CMD_ARG_CTRL_PAGES, Reg.CAT_CMD_ARG_JOURNAL_LOG2]⟩,
  ⟨"CAT_CMD_STATUS", 0x80020, [], 32,
    [Reg.CAT_CMD_STATUS_BUSY, Reg.CAT_CMD_STATUS_DONE, Reg.CAT_CMD_STATUS_ERR]⟩,
  ⟨"CAT_SEL", 0x80028, [], 32,
    [Reg.CAT_SEL_CAT]⟩,
  ⟨"CAT_STATE", 0x80030, [], 64,
    [Reg.CAT_STATE_STATE, Reg.CAT_STATE_KIND, Reg.CAT_STATE_STAGED, Reg.CAT_STATE_OLD_BUSY, Reg.CAT_STATE_PAGES_LOST, Reg.CAT_STATE_ACCOUNT, Reg.CAT_STATE_RUNNING, Reg.CAT_STATE_COPIES_FREE]⟩,
  ⟨"CAT_GEN", 0x80038, [], 64,
    [Reg.CAT_GEN_GENERATION]⟩,
  ⟨"CAT_STAGED_GEN", 0x80040, [], 64,
    [Reg.CAT_STAGED_GEN_GENERATION]⟩]
/-- The register map, part 6. -/
def Reg.map6 : List RegD := [
  ⟨"CAT_IN_FORCE_EPOCH", 0x80048, [], 64,
    [Reg.CAT_IN_FORCE_EPOCH_EPOCH]⟩,
  ⟨"CAT_DELETES", 0x80050, [], 64,
    [Reg.CAT_DELETES_ACCEPTED, Reg.CAT_DELETES_PENDING, Reg.CAT_DELETES_JOURNAL]⟩,
  ⟨"CAT_QUERIES", 0x80058, [], 64,
    [Reg.CAT_QUERIES_QUERIES]⟩,
  ⟨"CAT_SWEEPS", 0x80060, [], 64,
    [Reg.CAT_SWEEPS_STARTED, Reg.CAT_SWEEPS_SPLIT, Reg.CAT_SWEEPS_HELD]⟩,
  ⟨"CAT_CODE_READS", 0x80068, [], 64,
    [Reg.CAT_CODE_READS_READS]⟩,
  ⟨"MED_CTRL", 0x90000, [], 32,
    [Reg.MED_CTRL_DETOUR_EN, Reg.MED_CTRL_ERASE_SUSPEND_READ]⟩,
  ⟨"MED_REFRESH", 0x90004, [], 32,
    [Reg.MED_REFRESH_STRONG, Reg.MED_REFRESH_LIGHT]⟩,
  ⟨"MED_ERASE", 0x90008, [], 32,
    [Reg.MED_ERASE_THRESHOLD, Reg.MED_ERASE_REERASED]⟩,
  ⟨"MED_SLOT_ECC", 0x90100, [(9, 16)], 128,
    [Reg.MED_SLOT_ECC_CORRECTED 0, Reg.MED_SLOT_ECC_RETRIED 0, Reg.MED_SLOT_ECC_SOFT 0, Reg.MED_SLOT_ECC_REBUILT 0, Reg.MED_SLOT_ECC_UNRECOVERED 0, Reg.MED_SLOT_ECC_REFRESHED 0, Reg.MED_SLOT_ECC_MAX_BITS 0]⟩,
  ⟨"MED_SLOT_READ", 0x90200, [(9, 8)], 64,
    [Reg.MED_SLOT_READ_DETOURS 0, Reg.MED_SLOT_READ_WAITED 0, Reg.MED_SLOT_READ_SUSPENDS 0]⟩,
  ⟨"MED_SLOT_STATUS", 0x90300, [(9, 8)], 64,
    [Reg.MED_SLOT_STATUS_PRESENT 0, Reg.MED_SLOT_STATUS_POWERED 0, Reg.MED_SLOT_STATUS_ROLE 0, Reg.MED_SLOT_STATUS_PROGRAMMING 0, Reg.MED_SLOT_STATUS_ERASING 0, Reg.MED_SLOT_STATUS_SUSPENDED 0]⟩,
  ⟨"MED_HBM", 0x90400, [(8, 8)], 64,
    [Reg.MED_HBM_CORRECTED 0, Reg.MED_HBM_UNCORR 0, Reg.MED_HBM_PPR 0]⟩,
  ⟨"MED_HBM_SPARE", 0x90440, [(8, 4)], 32,
    [Reg.MED_HBM_SPARE_SPARE_LEFT 0]⟩,
  ⟨"MED_HBM_RETIRE", 0x90460, [], 32,
    [Reg.MED_HBM_RETIRE_THRESHOLD]⟩,
  ⟨"MED_DIAG_CMD", 0x90500, [], 32,
    [Reg.MED_DIAG_CMD_OP]⟩,
  ⟨"MED_DIAG_ADDR", 0x90508, [], 64,
    [Reg.MED_DIAG_ADDR_ADDR]⟩,
  ⟨"MED_DIAG_BUF", 0x90510, [], 64,
    [Reg.MED_DIAG_BUF_BUF]⟩,
  ⟨"MED_DIAG_STATUS", 0x90518, [], 32,
    [Reg.MED_DIAG_STATUS_BUSY, Reg.MED_DIAG_STATUS_DONE, Reg.MED_DIAG_STATUS_ERR]⟩,
  ⟨"FTL_STATUS", 0xa0000, [], 32,
    [Reg.FTL_STATUS_MEDIA, Reg.FTL_STATUS_AFTER_LOSS, Reg.FTL_STATUS_WARN10, Reg.FTL_STATUS_WARN5, Reg.FTL_STATUS_WARN2, Reg.FTL_STATUS_SPARE_PCT]⟩,
  ⟨"FTL_SPARE", 0xa0008, [], 64,
    [Reg.FTL_SPARE_SPARE, Reg.FTL_SPARE_SPARE_FORMAT]⟩]
/-- The register map, part 7. -/
def Reg.map7 : List RegD := [
  ⟨"FTL_GC_WEIGHTS", 0xa0010, [], 32,
    [Reg.FTL_GC_WEIGHTS_AGE_W, Reg.FTL_GC_WEIGHTS_WEAR_W]⟩,
  ⟨"FTL_MERGE", 0xa0014, [], 32,
    [Reg.FTL_MERGE_MERGE_AT]⟩,
  ⟨"FTL_FAR_LIMIT", 0xa0018, [], 32,
    [Reg.FTL_FAR_LIMIT_LIMIT]⟩,
  ⟨"FTL_SPARE_CTRL", 0xa0020, [], 32,
    [Reg.FTL_SPARE_CTRL_BRING_PCT, Reg.FTL_SPARE_CTRL_BRING_IN, Reg.FTL_SPARE_CTRL_WEAR_LIMIT]⟩,
  ⟨"FTL_MIGRATE", 0xa0028, [], 64,
    [Reg.FTL_MIGRATE_ACTIVE, Reg.FTL_MIGRATE_NO_WINDOW, Reg.FTL_MIGRATE_SOURCE, Reg.FTL_MIGRATE_TARGET, Reg.FTL_MIGRATE_REMAINING]⟩,
  ⟨"FTL_BANK_SLOT", 0xa0030, [], 32,
    [Reg.FTL_BANK_SLOT_SLOTS]⟩,
  ⟨"FTL_GC_COUNT", 0xa0040, [], 64,
    [Reg.FTL_GC_COUNT_COPIES, Reg.FTL_GC_COUNT_MERGES, Reg.FTL_GC_COUNT_RESTARTS, Reg.FTL_GC_COUNT_ABANDONED]⟩,
  ⟨"FTL_WRITTEN", 0xa0048, [], 64,
    [Reg.FTL_WRITTEN_SECTORS]⟩,
  ⟨"FTL_PROGRAMMED", 0xa0050, [], 64,
    [Reg.FTL_PROGRAMMED_SECTORS]⟩,
  ⟨"FTL_LOG", 0xa0058, [], 32,
    [Reg.FTL_LOG_LOG_FREE, Reg.FTL_LOG_INDEX_PCT]⟩,
  ⟨"FTL_DISCARD", 0xa0060, [], 32,
    [Reg.FTL_DISCARD_SECURE_DONE, Reg.FTL_DISCARD_UNERASED]⟩,
  ⟨"FTL_SLOT_WEAR", 0xa0100, [(9, 16)], 128,
    [Reg.FTL_SLOT_WEAR_MEAN_ERASES 0, Reg.FTL_SLOT_WEAR_MAX_ERASES 0, Reg.FTL_SLOT_WEAR_MIN_ERASES 0, Reg.FTL_SLOT_WEAR_FREE 0, Reg.FTL_SLOT_WEAR_RETIRED 0, Reg.FTL_SLOT_WEAR_SPARE_BLOCKS 0]⟩,
  ⟨"FTL_STRIPE_SEL", 0xa0200, [], 32,
    [Reg.FTL_STRIPE_SEL_INDEX]⟩,
  ⟨"FTL_STRIPE", 0xa0240, [], 512,
    [Reg.FTL_STRIPE_ENTRY]⟩,
  ⟨"SPN_STATUS", 0xb0000, [], 64,
    [Reg.SPN_STATUS_MODULE, Reg.SPN_STATUS_ROLE_NOW, Reg.SPN_STATUS_MASTER, Reg.SPN_STATUS_STATE, Reg.SPN_STATUS_TERM, Reg.SPN_STATUS_MEMBERS]⟩,
  ⟨"SPN_CTRL", 0xb0008, [], 32,
    [Reg.SPN_CTRL_TAKEOVER]⟩,
  ⟨"SPN_TIMING", 0xb000c, [], 32,
    [Reg.SPN_TIMING_HB_INTERVAL, Reg.SPN_TIMING_HB_MISS]⟩,
  ⟨"SPN_TIMEOUT", 0xb0010, [], 32,
    [Reg.SPN_TIMEOUT_TIMEOUT]⟩,
  ⟨"SPN_LINK", 0xb0100, [(8, 32)], 256,
    [Reg.SPN_LINK_STATE 0, Reg.SPN_LINK_WIDTH 0, Reg.SPN_LINK_RETIRED 0, Reg.SPN_LINK_PEER_MODULE 0, Reg.SPN_LINK_PEER_LINK 0, Reg.SPN_LINK_DELAY 0, Reg.SPN_LINK_FEC_CORRECTED 0, Reg.SPN_LINK_REPLAYS 0, Reg.SPN_LINK_LANE_FAULTS 0, Reg.SPN_LINK_FLITS_TX 0, Reg.SPN_LINK_FLITS_RX 0, Reg.SPN_LINK_DISCARDED 0, Reg.SPN_LINK_UNREACHABLE 0]⟩,
  ⟨"SPN_CLASS", 0xb0200, [(8, 8)], 64,
    [Reg.SPN_CLASS_IN_FLIGHT 0, Reg.SPN_CLASS_ALLOWANCE 0, Reg.SPN_CLASS_TIMEOUTS 0, Reg.SPN_CLASS_NOT_READY 0]⟩]
/-- The register map, part 8. -/
def Reg.map8 : List RegD := [
  ⟨"SPN_PEER_SEL", 0xb0300, [], 32,
    [Reg.SPN_PEER_SEL_MODULE]⟩,
  ⟨"SPN_PEER", 0xb0308, [], 64,
    [Reg.SPN_PEER_STATE, Reg.SPN_PEER_EPOCH]⟩,
  ⟨"TWN_STATUS", 0xb8000, [], 32,
    [Reg.TWN_STATUS_STATE, Reg.TWN_STATUS_FEEDING, Reg.TWN_STATUS_LINK6_UP, Reg.TWN_STATUS_LINK7_UP, Reg.TWN_STATUS_WRONG_PEER, Reg.TWN_STATUS_EPH_MISMATCH, Reg.TWN_STATUS_FORCED, Reg.TWN_STATUS_PARTNER]⟩,
  ⟨"TWN_CMD", 0xb8008, [], 32,
    [Reg.TWN_CMD_OP]⟩,
  ⟨"TWN_CMD_STATUS", 0xb800c, [], 32,
    [Reg.TWN_CMD_STATUS_BUSY, Reg.TWN_CMD_STATUS_DONE, Reg.TWN_CMD_STATUS_ERR]⟩,
  ⟨"TWN_PAIR_GEN", 0xb8010, [], 64,
    [Reg.TWN_PAIR_GEN_GEN]⟩,
  ⟨"TWN_DIRTY", 0xb8018, [], 64,
    [Reg.TWN_DIRTY_DIRTY, Reg.TWN_DIRTY_RESYNC_LEFT]⟩,
  ⟨"TWN_MIRROR", 0xb8020, [], 64,
    [Reg.TWN_MIRROR_LAST_NS, Reg.TWN_MIRROR_MAX_NS, Reg.TWN_MIRROR_MIRRORED]⟩,
  ⟨"TWN_ACK_TIMEOUT", 0xb8028, [], 32,
    [Reg.TWN_ACK_TIMEOUT_TIMEOUT]⟩,
  ⟨"TWN_DIRTY_SEL", 0xb8030, [], 32,
    [Reg.TWN_DIRTY_SEL_WORD]⟩,
  ⟨"TWN_DIRTY_WORD", 0xb8038, [], 64,
    [Reg.TWN_DIRTY_WORD_BITS]⟩,
  ⟨"TWN_PEER_SEL", 0xb8040, [], 32,
    [Reg.TWN_PEER_SEL_ENTRY]⟩,
  ⟨"TWN_PEER_ENTRY", 0xb8048, [], 64,
    [Reg.TWN_PEER_ENTRY_ENTRY]⟩,
  ⟨"TWN_PEER_CKPT", 0xb8050, [], 64,
    [Reg.TWN_PEER_CKPT_EPOCH]⟩,
  ⟨"SVC_STATUS", 0x0, [], 32,
    [Reg.SVC_STATUS_STAGE, Reg.SVC_STATUS_SP, Reg.SVC_STATUS_WITHDRAW, Reg.SVC_STATUS_DEBUG, Reg.SVC_STATUS_OPT_FACTORY]⟩,
  ⟨"SVC_RESET", 0x4, [], 32,
    [Reg.SVC_RESET_KIND, Reg.SVC_RESET_KEY]⟩,
  ⟨"SVC_LOCK", 0x8, [], 32,
    [Reg.SVC_LOCK_LOCK]⟩,
  ⟨"SVC_CTRL", 0xc, [], 32,
    [Reg.SVC_CTRL_LOCATE]⟩,
  ⟨"SVC_UPTIME", 0x10, [], 64,
    [Reg.SVC_UPTIME_MS]⟩,
  ⟨"SVC_MILESTONE", 0x18, [], 64,
    [Reg.SVC_MILESTONE_CHART_MS, Reg.SVC_MILESTONE_SELFTEST_MS, Reg.SVC_MILESTONE_RESTORE_MS, Reg.SVC_MILESTONE_READY_MS]⟩]
/-- The register map, part 9. -/
def Reg.map9 : List RegD := [
  ⟨"SVC_REFURB", 0x20, [], 32,
    [Reg.SVC_REFURB_OP, Reg.SVC_REFURB_ACTIVE, Reg.SVC_REFURB_BUSY, Reg.SVC_REFURB_ERR, Reg.SVC_REFURB_CLEARED]⟩,
  ⟨"IDN_SERIAL", 0x1000, [], 128,
    [Reg.IDN_SERIAL_SERIAL]⟩,
  ⟨"IDN_STEPPING", 0x1010, [], 32,
    [Reg.IDN_STEPPING_COMPUTE, Reg.IDN_STEPPING_HUB]⟩,
  ⟨"IDN_BAY", 0x1018, [], 64,
    [Reg.IDN_BAY_BAY, Reg.IDN_BAY_TWIN_BAY, Reg.IDN_BAY_MODULE_HINT, Reg.IDN_BAY_VALID, Reg.IDN_BAY_MOVED]⟩,
  ⟨"IDN_LOG_TOTAL", 0x1020, [], 64,
    [Reg.IDN_LOG_TOTAL_TOTAL]⟩,
  ⟨"IDN_LOG_SEL", 0x1028, [], 32,
    [Reg.IDN_LOG_SEL_BACK]⟩,
  ⟨"IDN_LOG_DATA", 0x1030, [], 256,
    [Reg.IDN_LOG_DATA_RECORD]⟩,
  ⟨"IDN_CART", 0x1100, [(9, 32)], 192,
    [Reg.IDN_CART_SERIAL 0, Reg.IDN_CART_TOTAL_ERASES 0]⟩,
  ⟨"PWR_DOMAIN_REQ", 0xc0000, [], 32,
    [Reg.PWR_DOMAIN_REQ_DOMAIN, Reg.PWR_DOMAIN_REQ_ON]⟩,
  ⟨"PWR_DOMAIN_STATUS", 0xc0008, [], 64,
    [Reg.PWR_DOMAIN_STATUS_ON, Reg.PWR_DOMAIN_STATUS_ERR, Reg.PWR_DOMAIN_STATUS_SLOT_ERR]⟩,
  ⟨"PWR_SLOT_CTRL", 0xc0010, [], 32,
    [Reg.PWR_SLOT_CTRL_SLOT, Reg.PWR_SLOT_CTRL_ON]⟩,
  ⟨"PWR_THERMAL", 0xc0020, [], 64,
    [Reg.PWR_THERMAL_STEP, Reg.PWR_THERMAL_CAUSE, Reg.PWR_THERMAL_HOTTEST, Reg.PWR_THERMAL_INLET, Reg.PWR_THERMAL_FLOW]⟩,
  ⟨"PWR_INPUT", 0xc0028, [], 64,
    [Reg.PWR_INPUT_VOLTS, Reg.PWR_INPUT_WATTS, Reg.PWR_INPUT_PEAK]⟩,
  ⟨"PWR_ENERGY", 0xc0030, [], 64,
    [Reg.PWR_ENERGY_WH]⟩,
  ⟨"PWR_CAP", 0xc0038, [], 32,
    [Reg.PWR_CAP_CAP_W]⟩,
  ⟨"PWR_HOLDUP", 0xc0040, [], 32,
    [Reg.PWR_HOLDUP_ENERGY, Reg.PWR_HOLDUP_LOW]⟩,
  ⟨"PWR_TEMP_SEL", 0xc0048, [], 32,
    [Reg.PWR_TEMP_SEL_SENSOR]⟩,
  ⟨"PWR_TEMP", 0xc004c, [], 32,
    [Reg.PWR_TEMP_VALUE]⟩,
  ⟨"CAL_CMD", 0xc8000, [], 32,
    [Reg.CAL_CMD_OP]⟩,
  ⟨"CAL_DMA_ADDR", 0xc8008, [], 64,
    [Reg.CAL_DMA_ADDR_ADDR]⟩]
/-- The register map, part 10. -/
def Reg.map10 : List RegD := [
  ⟨"CAL_STATUS", 0xc8010, [], 32,
    [Reg.CAL_STATUS_BUSY, Reg.CAL_STATUS_DONE, Reg.CAL_STATUS_ERR, Reg.CAL_STATUS_OVERWRITES]⟩,
  ⟨"CAL_ORIGIN", 0xc8014, [], 32,
    [Reg.CAL_ORIGIN_ORIGIN]⟩,
  ⟨"SCB_CMD", 0x98000, [(4, 64)], 32,
    [Reg.SCB_CMD_OP 0, Reg.SCB_CMD_KIND 0]⟩,
  ⟨"SCB_START", 0x98008, [(4, 64)], 64,
    [Reg.SCB_START_FIRST 0]⟩,
  ⟨"SCB_COUNT", 0x98010, [(4, 64)], 32,
    [Reg.SCB_COUNT_COUNT 0]⟩,
  ⟨"SCB_STATUS", 0x98018, [(4, 64)], 32,
    [Reg.SCB_STATUS_BUSY 0, Reg.SCB_STATUS_DONE 0, Reg.SCB_STATUS_STOPPED 0, Reg.SCB_STATUS_ERR 0]⟩,
  ⟨"SCB_SUM0", 0x98020, [(4, 64)], 64,
    [Reg.SCB_SUM0_CLEAN 0, Reg.SCB_SUM0_MAX_BITS 0]⟩,
  ⟨"SCB_SUM1", 0x98028, [(4, 64)], 64,
    [Reg.SCB_SUM1_CORRECTED 0, Reg.SCB_SUM1_UNCORR 0, Reg.SCB_SUM1_RETIRED 0]⟩,
  ⟨"SCB_SUM2", 0x98030, [(4, 64)], 64,
    [Reg.SCB_SUM2_EPOCHS 0, Reg.SCB_SUM2_SKIPPED 0]⟩]
/-- The whole register map. -/
def Reg.map : List RegD :=
  Reg.map0 ++ Reg.map1 ++ Reg.map2 ++ Reg.map3 ++ Reg.map4 ++ Reg.map5 ++ Reg.map6 ++ Reg.map7 ++ Reg.map8 ++ Reg.map9 ++ Reg.map10

/-- The place of `x` in an array of `count` elements `stride` bytes apart, or nothing. -/
def RegD.index (count stride x : Nat) : Option (Nat × Nat) :=
  if x / stride < count then some (x / stride, x % stride) else none

/-- The byte offset inside a register of address `a`, or nothing when the register does not hold `a`.
A register answers for its first `width` bits of each array element. -/
def RegD.offsetOf (r : RegD) (a : Nat) : Option Nat :=
  if a < r.base then none
  else
    let x := r.dims.foldl (fun o d => o.bind fun x => (RegD.index d.1 d.2 x).map (·.2)) (some (a - r.base))
    x.bind fun x => if x < r.width / 8 then some x else none

/-- The register that holds address `a` and the address of that element's first byte. -/
def Reg.find (a : Nat) : Option (RegD × Nat) :=
  Reg.map.findSome? fun r => (RegD.offsetOf r a).map fun x => (r, a - x)

/-- The fields of a register element at address `base`. -/
def RegD.at (r : RegD) (base : Nat) : List Fld := r.fields.map fun f => { f with addr := base }

end Sys2Proof.Machine
end

