-- ==== Sys2Proof/Machine/Table.lean ====
section
/-! DEFINITION. Sparse tables in one canonical form: keys strictly rising, and no entry equal to the
default that an unlisted key reads as. Equal tables are equal lists. -/
namespace Sys2Proof.Machine

/-- A sparse table: pairs of a key and a value, sorted by key. -/
abbrev Table (α : Type) := List (Nat × α)

/-- What key `k` reads as: its first entry; `d` is the default of an unlisted key. -/
def Table.get {α : Type} (d : α) : Table α → Nat → α
  | [], _ => d
  | (a, x) :: t, k => if k = a then x else Table.get d t k

/-- The entries of the other keys. -/
def Table.drop {α : Type} (k : Nat) (t : Table α) : Table α := t.filter fun p => p.1 != k

/-- Put an entry before the first greater key. -/
def Table.insert {α : Type} (k : Nat) (v : α) : Table α → Table α
  | [] => [(k, v)]
  | (a, x) :: t => if k < a then (k, v) :: (a, x) :: t else (a, x) :: Table.insert k v t

/-- Write `v` at key `k`; writing the default removes the entry. -/
def Table.set {α : Type} [DecidableEq α] (d : α) (t : Table α) (k : Nat) (v : α) : Table α :=
  if v = d then Table.drop k t else Table.insert k v (Table.drop k t)

/-- Change what key `k` holds by a function. -/
def Table.modify {α : Type} [DecidableEq α] (d : α) (t : Table α) (k : Nat) (f : α → α) : Table α :=
  Table.set d t k (f (Table.get d t k))

/-- Every listed key is above `lo` and the keys rise strictly. -/
def Table.sortedAbove {α : Type} : Option Nat → Table α → Bool
  | _, [] => true
  | none, (a, _) :: t => Table.sortedAbove (some a) t
  | some b, (a, _) :: t => decide (b < a) && Table.sortedAbove (some a) t

/-- The canonical form: strictly rising keys, no entry equal to the default. -/
def Table.wf {α : Type} [DecidableEq α] (d : α) (t : Table α) : Bool :=
  Table.sortedAbove none t && t.all (fun p => decide (p.2 ≠ d))

/-- Device-virtual memory (R325): bytes under the key account * 2^47 + address. -/
abbrev Memory := Table (BitVec 8)

/-- What a byte nothing has written reads as: zero (R329: a page mapped for the first time reads as zeros). -/
def Memory.unlisted : BitVec 8 := 0

/-- The canonical form of a memory. -/
def Memory.wf (m : Memory) : Bool := Table.wf Memory.unlisted m

/-- Read one byte. -/
def Memory.read (m : Memory) (k : Nat) : BitVec 8 := Table.get Memory.unlisted m k

/-- Write one byte. -/
def Memory.write (m : Memory) (k : Nat) (v : BitVec 8) : Memory := Table.set Memory.unlisted m k v

/-- Read `n` bytes from a key upwards. -/
def Memory.readBytes (m : Memory) : Nat → Nat → List (BitVec 8)
  | _, 0 => []
  | k, n + 1 => Memory.read m k :: Memory.readBytes m (k + 1) n

/-- Write bytes from a key upwards. -/
def Memory.writeBytes (m : Memory) : Nat → List (BitVec 8) → Memory
  | _, [] => m
  | k, b :: t => Memory.writeBytes (Memory.write m k b) (k + 1) t

end Sys2Proof.Machine
end

