-- ==== Sys2Proof/Machine/StateCat.lean ====
section
/-! DEFINITION. The state of the catalogues that no register field holds. -/
namespace Sys2Proof.Machine

/-- A generation of a catalogue: image base address, and the epoch in which it came into force. -/
structure CatGen where
  addr : Nat
  since : Nat
  deriving DecidableEq, Repr

/-- A snapshot copy of a bitmap page (R432): generation's image, page, stamp, and its place in the control area. -/
structure CatCopy where
  image : Nat
  page : Nat
  stamp : Nat
  slot : Nat
  deriving DecidableEq, Repr

/-- States of a catalogue (Table 9-4). -/
inductive CatState where
  | detached | attaching | serving | detaching
  deriving DecidableEq, Repr

def CatState.code : CatState → Nat
  | .detached => 0 | .attaching => 1 | .serving => 2 | .detaching => 3

/-- A sweep that has been planned and has not started (R449): its job, cluster, groups, codes and bytes a code, and whether it
has been counted as held and as split. -/
structure Sweep where
  job : Nat
  d : Nat
  c : Nat
  list : Nat
  groups : Nat
  /-- Its queries, 64 to a group. -/
  members : List Nat
  codes : Nat
  bytes : Nat
  held : Bool
  split : Bool
  deriving DecidableEq, Repr

/-- A running batch: its job and its snapshot epoch (R431); what the Finder has found, each query with its lists in order (R448), once it has
run; the clusters that run its GRAPH queries; the queries whose selection ran in part under a condition of R264; how many queries have no
result block yet. -/
structure CatBatch where
  job : Nat
  epoch : Nat
  found : Option (List (Nat × List Nat))
  places : List (Nat × Nat)
  unordered : List Nat
  left : Nat
  deriving DecidableEq, Repr

structure CatSt where
  state : CatState
  acct : Nat
  /-- The image that ATTACH pinned and its pages, until its generation comes into force (Table 9-4). -/
  coming : Option (Nat × Nat)
  ctrl : Nat
  ctrlPages : Nat
  journalLog2 : Nat
  gen : Option CatGen
  staged : Option (Nat × Nat)
  old : Option CatGen
  /-- Item IDs and ordinals of the deletes accepted in the current epoch. -/
  pending : List (Nat × Nat)
  /-- Journal records, oldest first: item ID and accept epoch (R429, R432). -/
  journal : List (Nat × Nat)
  copies : List CatCopy
  batches : List CatBatch
  sweeps : List Sweep
  /-- Pieces of sweeps that run under a CATALOGUE_SWEEP window: the epoch, and the phase at which their estimate ends (R104, R452). -/
  running : List (Nat × Nat)
  accepted : Nat
  queries : Nat
  deriving DecidableEq, Repr

def CatSt.init : CatSt :=
  { state := .detached, acct := 0, coming := none, ctrl := 0, ctrlPages := 0, journalLog2 := 0, gen := none, staged := none
    old := none, pending := [], journal := [], copies := [], batches := [], sweeps := [], running := [], accepted := 0, queries := 0 }

end Sys2Proof.Machine
end

