-- ==== Sys2Proof/Machine/StateService.lean ====
section
/-! DEFINITION. The state of the service logic that no register field holds: power, retirement list, log book,
identity memories, calibration, vendor logs. -/
namespace Sys2Proof.Machine

/-- An entry of the hierarchy fault log (Table 12-10), laid out as SVC_HIER_FAULT. -/
structure HierRec where
  unit : UnitAddr
  kind : Nat
  action : Nat
  epoch : Nat
  seq : Nat
  deriving DecidableEq, Repr

/-- An entry of the transit and schedule log (Table 12-11). -/
structure TrnRec where
  event : Nat
  cls : Nat
  epoch : Nat
  status : Nat
  phase : Nat
  period : Nat
  deriving DecidableEq, Repr

/-- A log-book record (Table 14-9). -/
structure LogRec where
  kind : Nat
  epoch : Nat
  time : Nat
  poh : Nat
  data : Nat
  chain : Nat
  deriving DecidableEq, Repr

/-- The lifetime totals the module counts (Table 14-8). -/
inductive Total where
  | pohHours | energyWh | coldResets | powerLosses | lanes | cores | clusters | diesLost | hbmUnits | ppr | limucLanes
  | phases | flashBlocks | migrations | cartridges | calibrations | refurbishments
  deriving DecidableEq, Repr

def Total.index : Total → Nat
  | .pohHours => 0 | .energyWh => 1 | .coldResets => 2 | .powerLosses => 3 | .lanes => 4 | .cores => 5 | .clusters => 6
  | .diesLost => 7 | .hbmUnits => 8 | .ppr => 9 | .limucLanes => 10 | .phases => 11 | .flashBlocks => 12
  | .migrations => 13 | .cartridges => 14 | .calibrations => 15 | .refurbishments => 16

/-- The calibration set in force, as far as it is not reserved (Table 14-11). -/
structure CalSet where
  origin : Nat
  serial : Nat
  sensorOffset : List Int
  pmGain : List Nat
  transitDelay : Int
  limucPreset : List Nat
  pciePreset : List Nat
  /-- r and s of FACTORY_SIG as one number; zero in a user set (R684). -/
  factorySig : Nat
  deriving DecidableEq, Repr

/-- The factory calibration set the model starts from: all values zero (assumption log entry 3). -/
def CalSet.factory : CalSet :=
  { origin := 0, serial := 0, sensorOffset := [], pmGain := [], transitDelay := 0, limucPreset := [], pciePreset := []
    factorySig := 0 }

/-- An option record (Table 3-14). -/
structure OptRec where
  sequence : Nat
  chartBank : Nat
  fallback : Nat
  personality : Nat
  pcieMaxRate : Nat
  clocking : Nat
  mgmtBus : Nat
  fwBank : Nat
  debugPolicy : Nat
  ownerState : Nat
  ownerKeyId : Nat
  ownerKeyHash : Nat
  minSecurity : Nat
  /-- The record's 4,096 bytes as stored; none for the factory values, which no stored record holds. -/
  raw : List Byte
  deriving DecidableEq, Repr

/-- Service state. -/
structure SvcSt where
  /-- P54 is within range (R54). -/
  p54 : Bool
  /-- The power-up timeline has begun since P54 came within range (R660). -/
  started : Bool
  /-- The hold-up bank is charged (R23). -/
  charged : Bool
  /-- Map restore has ended since the last cold start (R661). -/
  mapRestored : Bool
  /-- Power-on self-test has ended since the last cold start (R664). -/
  selfTested : Bool
  /-- A controller has reported ready since the last reset (R264). -/
  reported : Bool
  /-- Off after thermal step 5, until P54 has been absent for 1 s (R692). -/
  thermalOff : Bool
  /-- The module lost power without a clean shutdown since its last start (R661, Table 14-10). -/
  lossPending : Bool
  /-- Hold-up energy in mJ that the last power-loss sequence used, and the THERMAL record of a step 5, both written at the next start. -/
  lossUsed : Nat
  thermalRec : Option Nat
  /-- Reset of any kind awaiting (R667): a warm reset requested before the module was ready. -/
  warmDeferred : Bool
  /-- Domains being switched, with the state they go to (R718). -/
  busy : List (Nat × Bool)
  retired : List UnitAddr
  /-- Spares brought in, kept beside the retirement list (R50). -/
  broughtIn : List UnitAddr
  /-- Faults acted on in this epoch (R46). -/
  epochFaults : List UnitAddr
  /-- Bring-ins due at the next boundary, as (die, cluster) (R41, R47). -/
  bringIns : List (Nat × Nat)
  /-- Cluster being loaded by a partial load (R48). -/
  loading : Option (Nat × Nat)
  failedLinks : List Nat
  /-- Rails that have lost their redundant phase (R40). -/
  weakRails : List Nat
  hierLog : List HierRec
  hierTotal : Nat
  trnLog : List TrnRec
  trnTotal : Nat
  /-- Vendor event kinds posted and not yet re-enabled (R605). -/
  posted : List Nat
  logBook : List LogRec
  logTotal : Nat
  logDropped : Nat
  totals : Table Nat
  serial : Nat
  stepCompute : Nat
  stepHub : Nat
  /-- Steppings and manufacture date in the module identity memory (Table 14-5): compute dies 0 to 3, then hub dies 0 and 1. -/
  dieSteps : List Nat
  madeOn : Nat
  lastBay : Option BayId
  /-- What the sled's bay identity memory was last read to hold (R677). -/
  bay : Option BayId
  cartIds : Table (Option CartId)
  /-- Roles of the nine slots when the module last lost power or was reset cold. -/
  roles : List Nat
  cal : CalSet
  /-- Sensor offsets and gains accepted and waiting for the next boundary (R685). -/
  calPending : Option CalSet
  nonce : Option Nat
  /-- Package sensors in 1/64 degree, by the numbers of PWR_TEMP_SEL. -/
  sensors : Table Nat
  cartHold : List Nat
  safeToRemove : Bool
  /-- The NVMe Timestamp in ms. -/
  timestamp : Nat
  poh : Nat
  energy24h : Nat
  /-- The vendor root public key of the package ROM (R116): X in the low 384 bits, Y above. -/
  vendorKey : Nat
  /-- Units that RETEST left retired; none before a RETEST has ended in this refurbishment (R705, R706). -/
  retestStill : Option Nat
  /-- Which of the free contents SRAM had after the last reset (the model's own field). -/
  sram : Nat
  deriving DecidableEq, Repr

/-- The cartridge as shipped: serial and characterisation not stated by the spec (assumption log entry 3). -/
def CartId.shipped : CartId :=
  { serial := 0, good := true, badBlocks := [], seq := 0, totalErases := 0, failedBlocks := 0, retiredStripes := 0
    powerOnHours := 0, lastSlot := 0, lastRole := 0, lastModule := 0, offsets := [], counters := [] }

def SvcSt.init : SvcSt :=
  { p54 := false, started := false, charged := false, mapRestored := false, selfTested := false, reported := false, thermalOff := false
    lossPending := false, lossUsed := 0, thermalRec := none, warmDeferred := false, busy := [], retired := [], epochFaults := [], bringIns := []
    loading := none, failedLinks := [], weakRails := [], hierLog := [], hierTotal := 0, trnLog := [], trnTotal := 0
    posted := [], logBook := [], logTotal := 0, logDropped := 0, totals := [], serial := 0, stepCompute := 0
    stepHub := 0, dieSteps := [0, 0, 0, 0, 0, 0], madeOn := 0, lastBay := none
    bay := none, broughtIn := []
    cartIds := (List.range 9).map (fun i => (i, some .shipped))
    roles := [1, 1, 1, 1, 1, 1, 1, 1, 2]
    cal := .factory, calPending := none, nonce := none, sensors := [], cartHold := [], safeToRemove := false
    timestamp := 0, poh := 0, energy24h := 0, vendorKey := Config.vendorKey, retestStill := none, sram := 0 }

end Sys2Proof.Machine
end

