-- ==== Sys2Proof/Machine/StateChart.lean ====
section
/-! DEFINITION. The parsed chart, the configuration store and the loader's and coupler's state. -/
namespace Sys2Proof.Machine

/-- A plates partition (Table 3-7). -/
structure Part where
  base : Nat
  size : Nat
  use : Nat
  deriving DecidableEq, Repr

/-- One set of a PLATES frame. -/
structure PlateSet where
  mask : Nat
  parts : List Part
  deriving DecidableEq, Repr

/-- A PERSONALITY payload (Table 3-6): modes and default mode of each logical core. -/
structure Personality where
  ramp : Nat
  eye : Bool
  cores : List (Nat × Nat)
  deriving DecidableEq, Repr

/-- Where a frame applies (Table 3-3). -/
structure Scope where
  level : Nat
  die : Nat
  cluster : Nat
  deriving DecidableEq, Repr

/-- A layer entry of TOPOLOGY (Table 3-5). -/
structure LayerEnt where
  model : Nat
  first : Nat
  last : Nat
  die : Nat
  flags : Nat
  deriving DecidableEq, Repr

/-- A ROUTE entry (Table 3-9). -/
structure RouteEnt where
  srcDie : Nat
  srcCluster : Nat
  dstDie : Nat
  dstCluster : Nat
  dir : Nat
  vc : Nat
  share : Nat
  deriving DecidableEq, Repr

/-- A SPAN payload (Table 3-10); the route table as 16-bit entries by destination. -/
structure SpanCfg where
  module : Nat
  role : Nat
  linkEnable : Nat
  master : Nat
  standby : Nat
  spanSize : Nat
  transitFwd : Nat
  twin : Bool
  partner : Nat
  credits : List Nat
  routes : Table Nat
  deriving DecidableEq, Repr

/-- A chart without a SPAN frame: outside any span, every link disabled (R127). -/
def SpanCfg.outside : SpanCfg :=
  { module := 0, role := 0, linkEnable := 0, master := 0, standby := 0, spanSize := 1, transitFwd := 0, twin := false
    partner := 0, credits := [], routes := [] }

/-- A quota of REGIONS (Table 3-12). -/
structure Quota where
  acct : Nat
  tier : Nat
  dflt : Bool
  limit : Nat
  guarantee : Nat
  deriving DecidableEq, Repr

/-- What a chart fixes once its frames are read. -/
structure Chart where
  dieCount : Nat
  chartId : Nat
  version : Nat
  security : Nat
  /-- SHA-384 of the header bytes 0x00 to 0xFF (SPDM measurement 3). -/
  headerHash : Nat
  roles : List (Nat × Nat)
  layers : List LayerEnt
  personalities : List (Scope × Personality)
  plates : List (Scope × List PlateSet)
  routes : List RouteEnt
  span : SpanCfg
  cycleLen : Nat
  period : Nat
  ephemeris : List Nat
  ecc : Nat
  quotas : List Quota
  offMask : Nat
  coupled : List (Nat × Nat)
  deriving DecidableEq, Repr

/-- The module's default regions: namespaces strong, the others light, no quotas (R129). -/
def Chart.defaultEcc : Nat := 0x0E

/-- A chart bank: its bytes on each configuration flash die (erased bytes read 0xFF), the next offset that may be written, and whether an
erase or program was cut short (R135, R136, R711). -/
structure BankStore where
  copy0 : Table Byte
  copy1 : Table Byte
  next : Nat
  broken : Bool
  deriving DecidableEq, Repr

def BankStore.init : BankStore := ⟨[], [], 0, false⟩

/-- A long CHT_CMD operation under way: an erase or a program of a bank, with the configuration flash die that is busy (R136), or a verification,
of a VERIFY_BANK or of a LOAD_FULL. -/
inductive ChartOp where
  | erase (bank die : Nat)
  | program (bank die : Nat) (data : List Byte)
  | verify (bank : Nat) (load : Bool)
  deriving DecidableEq, Repr

/-- The option ring of one configuration flash die: two halves of 1,024 records, newest first, and the half that is being filled (Table 3-13,
R140). -/
structure OptRing where
  half0 : List OptRec
  half1 : List OptRec
  cur : Nat
  deriving DecidableEq, Repr

def OptRing.init : OptRing := ⟨[], [], 0⟩

/-- A staged copy of one coupled field (R164). -/
structure Staged where
  group : Nat
  fld : Fld
  value : Nat
  deriving DecidableEq, Repr

/-- What an operation held under R168 was: a build, a LOAD or an UNLOAD, an enable, the copy, the arrival or the credit of a slot, an Almanac
trigger with its value, a swap-out, or an execution that waits to be bound to a channel. -/
inductive HeldOp where
  | build (group : Nat)
  | modelLoad (slot : Nat)
  | modelUnload (slot : Nat)
  | fire (slot trigger at_ : Nat)
  | channel (ch : Nat)
  | copy (ch slot tc : Nat)
  | credit (ch slot : Nat)
  | arrival (ch slot : Nat)
  | swapOut (entry : Nat)
  | job (j : Nat)
  | lost (ch : Nat)
  deriving DecidableEq, Repr

/-- A hold of a legacy direct group and the boundaries it has lasted (R168, R169). -/
structure Hold where
  group : Nat
  op : HeldOp
  age : Nat
  deriving DecidableEq, Repr

structure ChartSt where
  bankA : BankStore
  bankB : BankStore
  /-- The option rings of dies 0 and 1 (R137, R138). -/
  ring0 : OptRing
  ring1 : OptRing
  /-- The option record in force, and SHA-384 of its bytes (SPDM measurement 4). -/
  opt : OptRec
  /-- The chart in force, unless none is or the built-in chart is. -/
  chart : Option Chart
  /-- The chart that has been verified and is quiescing, applying or waiting for its boundary; its bank. -/
  next : Option (Chart × Nat)
  /-- The built-in chart waits for the next boundary (R151). -/
  nextBuiltin : Bool
  op : Option ChartOp
  /-- Partial loads due at the next boundary on host request, as logical (die, cluster) (R159). -/
  partials : List (Nat × Nat)
  /-- Compute admission is closed (R145). -/
  closed : Bool
  staged : List Staged
  commits : List Nat
  /-- Legacy write counts, by field key (R167). -/
  counts : Table Nat
  holds : List Hold
  /-- Charts brought into force since power-up (R717). -/
  generation : Nat
  deriving DecidableEq, Repr

/-- The factory option record (Table 3-14). -/
def OptRec.factory : OptRec :=
  { sequence := 1, chartBank := 0, fallback := 1, personality := 0, pcieMaxRate := 0, clocking := 0, mgmtBus := 0
    fwBank := 0, debugPolicy := 0, ownerState := 0, ownerKeyId := 0, ownerKeyHash := 0, minSecurity := 0, raw := [] }

def ChartSt.init : ChartSt :=
  { bankA := .init, bankB := .init, ring0 := .init, ring1 := .init, opt := .factory, chart := none, next := none, nextBuiltin := false
    op := none, partials := [], closed := false, staged := [], commits := [], counts := [], holds := []
    generation := 0 }

end Sys2Proof.Machine
end

