-- ==== Sys2Proof/Machine/StateCompute.lean ====
section
/-! DEFINITION. The state of cores, clusters and the tier engine that no register field holds. -/
namespace Sys2Proof.Machine

/-- The state of an accumulator bank (Table 4-10), numbered as SEQ_CORE_STATUS.BANK0. -/
inductive BankState where
  | free | accum | drain
  deriving DecidableEq, Repr

def BankState.code : BankState → Nat
  | .free => 0 | .accum => 1 | .drain => 2

/-- An accumulator bank: its state, the rows and lanes its pass writes, the next row the drain reads, the macro-operation that owns it
(`MacroEntry.seq`). -/
structure Bank where
  state : BankState
  rows : Nat
  lanes : Nat
  next : Nat
  owner : Nat
  deriving DecidableEq, Repr

def Bank.init : Bank := ⟨.free, 0, 0, 0, 0⟩

/-- What a weight slot holds for one pass: the generation of stationary operands its bytes belong to, whose lowest bit is the tag
(R191), its 32 bytes, and the scale-register bytes written with them (R194). -/
structure WGen where
  gen : Nat
  data : BitVec 256
  scale0 : Nat
  scale1 : Nat
  deriving DecidableEq, Repr

/-- A weight slot and its scale bytes (R170); `old` is what the beats that have passed it were computed with, the latest first, until their row
totals are written (R188). -/
structure WSlot where
  now : WGen
  old : List WGen
  deriving DecidableEq, Repr

def WSlot.init : WSlot := ⟨⟨0, 0, 0, 0⟩, []⟩

/-- A macro-operation in the macro queue: its descriptor, its job, its account, and the model's own number of it in its cluster, given when it is
taken (0 until then). -/
structure MacroEntry where
  desc : BitVec 1024
  job : Nat
  acct : Nat
  seq : Nat
  deriving DecidableEq, Repr

/-- What the beats of a pass in the row are: a macro-operation's own; dummy beats since their macro-operation ended early (R201); dummy beats of
a gap (R197). -/
inductive BeatKind where
  | real | ended | gap
  deriving DecidableEq, Repr

/-- A pass in a core's row, and the macro-operation it belongs to. -/
structure RowPass where
  pass : Pass
  entry : MacroEntry
  /-- Advancing cycle in which its first beat entered physical lane 0 (R189). -/
  start : Nat
  /-- Cycles in which its beats enter. -/
  count : Nat
  /-- Generation of its stationary operands; the lowest bit is its tag. -/
  gen : Nat
  bank : Nat
  kind : BeatKind
  /-- Row totals written so far, by logical lane. -/
  done : Table Nat
  deriving DecidableEq, Repr

/-- Are its beats dummy beats? -/
def RowPass.dummy (q : RowPass) : Bool := q.kind != .real

/-- A row the drain has read and not yet written: row number, the mode and the macro-operation of its pass, its columns (R209). -/
structure DrainedRow where
  row : Nat
  entry : MacroEntry
  mode : Nat
  values : List F32
  deriving DecidableEq, Repr

/-- A control engine's own state (R221): 32 scalar registers of 64 bits, 32 vector registers of 512 bits, 16 KiB of instructions. -/
structure CeSt where
  scalar : Table Nat
  vector : Table Nat
  code : Memory
  deriving DecidableEq, Repr

def CeSt.init : CeSt := ⟨[], [], []⟩

/-- What a physical core holds (Table 4-1), beyond its registers. -/
structure CoreSt where
  /-- Advancing cycles so far (R171). -/
  cycle : Nat
  /-- Generation of stationary operands of the newest pass; the lowest bit is its tag (R191). -/
  gen : Nat
  /-- Passes in the row, the newest first, with those whose beats, slots or drain still matter. -/
  passes : List RowPass
  /-- The pass due at physical lane 0 while the row is frozen (R193, R714). -/
  due : Option Pass
  /-- The next pass carries a new tag and loads its weights: a context was restored (R277). -/
  reload : Bool
  /-- Weight slots with their scale bytes, by physical lane * 128 + slot. -/
  slots : Table WSlot
  /-- Sink registers, by physical lane (R170). -/
  sinks : Table F32
  /-- Accumulator file, by row * 64 + column. -/
  acc : Table F32
  bank0 : Bank
  bank1 : Bank
  plates : Memory
  /-- The pass that holds the banks is wide (R206). -/
  wide : Bool
  /-- Frozen cycles of the freeze under way. -/
  frozen : Nat
  /-- Lanes doing dummy operations, and lanes that hold beats, in the freeze under way. -/
  dummy : Nat
  holding : Nat
  /-- The frozen cycle of the freeze under way in which the dummy lanes last fell (R199). -/
  fallen : Nat
  /-- The feeder has stopped sending dummy beats in the gap under way (R197). -/
  gapEnded : Bool
  drained : List DrainedRow
  /-- The drain-output partition: where the next row goes, and the bytes not yet transferred on (R209, R227). -/
  outAt : Nat
  outUsed : Nat
  ce : CeSt
  /-- The job whose context occupies the pre-emption save area (R275, R278). -/
  saveOwner : Option Nat
  /-- The test signature register (R217). -/
  signature : Nat
  /-- Lanes retired at run time and not yet bypassed (R210). -/
  waiting : List Nat
  /-- Words with an uncorrectable error that wait for their pattern test, until the row is empty (R215): storage, lane, place, whether the
  test will fail. -/
  errors : List (CoreStorage × Nat × Nat × Bool)
  /-- The next self-test segment, 0 to 7 (R219). -/
  segment : Nat
  /-- Epoch and end phase of the window in which the last segment began (R216). -/
  tested : Option (Nat × Nat)
  /-- The rows of its accumulator file written since the chart came into force, a bit each (R281). -/
  accRows : Nat
  /-- Which of the free contents its SRAM had when its quadrant was last switched on; 0: at the last reset (the model's own field). -/
  fill : Nat
  /-- The place whose free contents it holds, plus 1, when it has moved; 0: its own (the model's own field). -/
  origin : Nat
  deriving DecidableEq, Repr

def CoreSt.init : CoreSt :=
  { cycle := 0, gen := 0, passes := [], due := none, reload := false, slots := [], sinks := [], acc := [], bank0 := .init, bank1 := .init
    plates := [], wide := false, frozen := 0, dummy := 0, holding := 0, fallen := 0, gapEnded := false, drained := [], outAt := 0, outUsed := 0
    ce := .init, saveOwner := none, signature := 0, waiting := [], errors := [], segment := 0, tested := none, accRows := 0, fill := 0, origin := 0 }

/-- An open chain: M, N and format of the chained output, which the cores' chain buffers or chain areas hold (R253 to R256), and the rows and
columns that each batch wrote of it (R246). -/
structure Chain where
  job : Nat
  m : Nat
  n : Nat
  fmt : Fmt
  ext : List (Nat × Nat)
  deriving DecidableEq, Repr

/-- The macro-operation in progress: what completing it still has to do (R230, R314). -/
structure MacroRun where
  entry : MacroEntry
  /-- Elements converted and clamped, and the largest magnitude entering conversion (R314). -/
  converted : Nat
  clamped : Nat
  amax : F32
  /-- The chain it opens when it completes (R253). -/
  chain : Option Chain
  /-- What its first tile found of the scale block it uses: is it carried, and the EXP of its roll (R315); none before its first tile. -/
  block : Option (Bool × Int)
  /-- Where batches of C may overlap: (batch, address, bytes) of each piece written so far (R240, R716). -/
  wrote : List (Nat × Nat × Nat)
  /-- The bytes it has changed, by key, as they were before it (R232). -/
  old : List (Nat × BitVec 8)
  /-- Its output for the chain so far, which takes the chain buffers' place of what it consumes when its walk ends (R254): core, offset, bytes. -/
  chainOut : List (Nat × Nat × List (BitVec 8))
  /-- Tiles of its walk so far, and the marks that it has reached (R272). -/
  tiles : Nat
  marks : Nat
  /-- Its glue segment has made its writes. -/
  glueDone : Bool
  deriving DecidableEq, Repr

def MacroRun.begin (e : MacroEntry) : MacroRun := ⟨e, 0, 0, F32.zero, none, none, [], [], [], 0, 0, false⟩

/-- What a context save keeps of a logical core: the numbers of the partitions saved and their bytes, whether they went to its save area, its
control engine's registers (R274, R275). -/
structure SavedCore where
  parts : List (Nat × Nat)
  inArea : Bool
  ce : CeSt
  deriving DecidableEq, Repr

/-- A context save under way: the job, and its cores. -/
structure Saving where
  job : Nat
  cores : List SavedCore
  deriving DecidableEq, Repr

/-- What a physical cluster and its tensor sequencer hold, beyond their registers. -/
structure ClusterSt where
  queue : List MacroEntry
  cur : Option MacroRun
  /-- Macro-operations before `cur` that have not completed, oldest first; none where `cur` is none (R229 to R232). -/
  early : List MacroRun
  /-- How many macro-operations the sequencer has taken: the model's own numbers of them. -/
  issued : Nat
  chain : Option Chain
  store : Memory
  /-- Issue is held until a spare is in service (R41). -/
  held : Bool
  /-- Epoch of the last macro-operation that ended with Compute Hardware Fault (R264). -/
  hwFault : Option Nat
  /-- The physical cores of the cluster on which a self-test segment runs (R264). -/
  selfTest : List Nat
  /-- The job that holds the cluster, and its account. -/
  job : Option Nat
  acct : Nat
  /-- A pre-emption of the running job is requested (R409), or a quiesce is under way (R145). -/
  preempt : Bool
  /-- The job that requested it, unless its window was lost. -/
  preemptBy : Option Nat
  quiesce : Bool
  /-- A context save is under way (R274, R275). -/
  saving : Option Saving
  /-- Which of the free contents its store had when its quadrant was last switched on; 0: at the last reset (the model's own field). -/
  fill : Nat
  /-- The place whose free contents it holds, plus 1, when it has moved; 0: its own (the model's own field). -/
  origin : Nat
  deriving DecidableEq, Repr

def ClusterSt.init : ClusterSt :=
  { queue := [], cur := none, early := [], issued := 0, chain := none, store := [], held := false, hwFault := none, selfTest := []
    job := none, acct := 0, preempt := false, preemptBy := none, quiesce := false, saving := none, fill := 0, origin := 0 }

/-- The tier STATE of a page (Table 7-1). -/
inductive PageState where
  | unmapped | hbm | far | remote | moving | lost
  deriving DecidableEq, Repr

def PageState.code : PageState → Nat
  | .unmapped => 0 | .hbm => 1 | .far => 2 | .remote => 3 | .moving => 4 | .lost => 5

/-- A tier map entry (Table 7-1), with what the tier engine keeps beside it. -/
structure Page where
  state : PageState
  pin : Bool
  dirty : Bool
  farCopy : Bool
  home : Nat
  access : Nat
  frame : Nat
  pdie : Nat
  rpage : Nat
  module : Nat
  /-- Already counted in ACCESS since the last boundary (R338). -/
  touched : Bool
  /-- A far write of the page is under way (R340). -/
  farWrite : Bool
  /-- The page is to leave HBM: it is evicted, moved or swapped out, and its frame is free when its far write has ended (R336, R340). -/
  leaving : Bool
  /-- HOME has been given by the page's first promotion or by command (R335). -/
  homed : Bool
  /-- A page in STATE 4 whose bytes come from its holder (R350). -/
  fetching : Bool
  deriving DecidableEq, Repr

def Page.none : Page :=
  { state := .unmapped, pin := false, dirty := false, farCopy := false, home := 0, access := 0, frame := 0, pdie := 0
    rpage := 0, module := 0, touched := false, farWrite := false, leaving := false, homed := false, fetching := false }

/-- Who accesses pages: a macro-operation by its cluster and its number there, a job as a whole, the host, a serving group's step builder, a model
slot, or the tier engine for a page that it brings in. -/
inductive Reader where
  | walk (d c seq : Nat)
  | job (j : Nat)
  | host
  | group (g : Nat)
  | model (n : Nat)
  | page
  deriving DecidableEq, Repr

/-- What an access waits for: a page on its way to HBM (R328, R337), or the bytes of a remote range from their holders (R347). -/
inductive WaitFor where
  | page (p : Nat)
  | lines (addr n : Nat)
  deriving DecidableEq, Repr

/-- Who a Coudé path request serves, in the order of R363. -/
inductive CoudeClass where
  | demand | almanac | command
  deriving DecidableEq, Repr

/-- A request waiting on the Coudé path: the page and its class, or the Memory Copy whose flash sources it brings (R593). -/
structure CoudeReq where
  acct : Nat
  page : Nat
  cls : CoudeClass
  /-- The fetch number of the Memory Copy whose flash source it reads (R593). -/
  copy : Option Nat
  deriving DecidableEq, Repr

/-- An Almanac entry as read at LOAD (Table 7-6). -/
structure AlmEntry where
  kind : Nat
  trigger : Nat
  atLayer : Nat
  atPhase : Nat
  needLayer : Nat
  addr : Nat
  pages : Nat
  experts : Nat
  predict : Nat
  deriving DecidableEq, Repr

/-- A model-table slot: the Almanac and the layers read at LOAD (R353, R354), and whether that reading still waits for pages. -/
structure ModelSt where
  almanac : List AlmEntry
  layers : List (Nat × Nat)
  reading : Bool
  /-- Its tables have been read. -/
  known : Bool
  deriving DecidableEq, Repr

def ModelSt.init : ModelSt := ⟨[], [], false, false⟩

/-- The state of an activation slot (Table 7-7); one IN_FLIGHT keeps the traffic class of its copy, and whether a piece of it has failed. -/
inductive AchSlot where
  | free | filling | inFlight (tc : Nat) (failed : Bool) | ready | consuming | broken
  deriving DecidableEq, Repr

/-- An activation channel: its slots, the next slot to consume, and the offsets of the pieces that have come of each slot that arrives (R367). -/
structure AchSt where
  slots : List AchSlot
  take : Nat
  got : Table (List Nat)
  deriving DecidableEq, Repr

def AchSt.init : AchSt := ⟨[], 0, []⟩

/-- A tier command under way (R350): operation, tier, home, account, first address, pages, holder, pages done. -/
structure TierCmd where
  op : Nat
  tier : Nat
  home : Nat
  acct : Nat
  addr : Nat
  count : Nat
  module : Nat
  done : Nat
  /-- It waits for the answer of a holder (R346). -/
  asked : Bool
  deriving DecidableEq, Repr

/-- The tier engine's state that no register holds. -/
structure TierSt where
  /-- Tier maps of all accounts, by account * 2^26 + page (R327). -/
  map : Table Page
  /-- System frames held on each physical die (R330). -/
  sysFrames : Table Nat
  coude : List CoudeReq
  /-- Promotions that wait for the frame of a page that leaves (R336, R340), in the order of their requests. -/
  waiting : List CoudeReq
  /-- Which page waits for the far write of which page, whose frame it is to have (R336): their keys. -/
  victims : List (Nat × Nat)
  /-- Frames that far writes have freed for the pages that waited for them: page, die and frame. -/
  frames : List (Nat × Nat × Nat)
  /-- Pages to be pinned when they reach HBM: page, HOME, and whether the page moves to that die (R354, R366, R371). -/
  pins : List (Nat × Nat × Bool)
  /-- Accesses whose wait for a demand promotion TIR_ALM.LATE has counted (R362): who, and the page. -/
  late : List (Reader × Nat)
  cmd : Option TierCmd
  models : Table ModelSt
  channels : Table AchSt
  /-- The key of far pages and spilled HBM contents (R596), a free value. -/
  spillKey : Nat
  deriving DecidableEq, Repr

def TierSt.init : TierSt := { map := [], sysFrames := [], coude := [], waiting := [], victims := [], frames := [], pins := [], late := [], cmd := none, models := [], channels := [], spillKey := 0 }

end Sys2Proof.Machine
end

