-- ==== Sys2Proof/Machine/StateFlash.lean ====
section
/-! DEFINITION. The state of the flash dies, die-blocks, HBM units and scrub contexts that no register field holds. -/
namespace Sys2Proof.Machine

/-- The state of a flash die (Table 10-3). -/
inductive DieOp where
  | idle
  | programming (block row : Nat)
  | erasing (block : Nat)
  /-- Erase-suspended: at its window's end, or for reads, so many of which it has served (R475, R482). -/
  | suspended (block : Nat) (reads : Option Nat)
  deriving DecidableEq, Repr

/-- A die-block. -/
structure BlkSt where
  /-- Page rows programmed since the last erase. -/
  rows : Nat
  /-- The erased-state check of R499 has passed since the last erase. -/
  checked : Bool
  /-- Half-erased: it waits for its re-erase (R499). -/
  reerase : Bool
  /-- Re-erased after a failed check: a second failure marks it failed (R499). -/
  again : Bool
  /-- An ERASE_INTENT without a later ERASE_DONE (R497, R498). -/
  intent : Bool
  failed : Bool
  /-- A retirement candidate (R488). -/
  candidate : Bool
  deriving DecidableEq, Repr

def BlkSt.init : BlkSt :=
  { rows := 0, checked := false, reerase := false, again := false, intent := false, failed := false, candidate := false }

/-- The place of a die-block: slot, die of the cartridge (16 channel + die), block (R467, R468). -/
structure BlkAddr where
  slot : Nat
  die : Nat
  block : Nat
  deriving DecidableEq, Repr

/-- Keys of a die and of a die-block. -/
def dieKey (slot die : Nat) : Nat := slot * 128 + die
def BlkAddr.key (a : BlkAddr) : Nat := dieKey a.slot a.die * 8448 + a.block
/-- The place that a key names. -/
def BlkAddr.ofKey (k : Nat) : BlkAddr := ⟨k / 8448 / 128, k / 8448 % 128, k % 8448⟩

/-- A read waiting at its die (R479, R482): its place, its number of codewords, who reads. -/
structure DieRead where
  blk : BlkAddr
  row : Nat
  cws : Nat
  origin : Origin
  deriving DecidableEq, Repr

/-- A flash channel: the host and Coudé reads that wait for it with what their dies have read, oldest first, and the transfers that each path
has been granted of the 64 under way while both wait (R364). -/
structure ChanSt where
  queue : List DieRead
  host : Nat
  coude : Nat
  deriving DecidableEq, Repr

def ChanSt.init : ChanSt := ⟨[], 0, 0⟩

/-- A scrub context (R500 to R504). -/
structure Scrub where
  kind : Nat
  first : Nat
  count : Nat
  /-- Stripes or 2 MiB units finished. -/
  done : Nat
  deriving DecidableEq, Repr

def Scrub.init : Scrub := ⟨0, 0, 0, 0⟩

structure FlashSt where
  dies : Table DieOp
  blocks : Table BlkSt
  /-- Reads that wait at a die, oldest first. -/
  waiting : List DieRead
  /-- Channels, by 8 * slot + channel. -/
  channels : Table ChanSt
  /-- Program sequence number of the hub (Table 10-6). -/
  programSeq : Nat
  scrubs : Table Scrub
  /-- Diagnostic raw read under way, and whether the host's DMA takes it. -/
  raw : Option (BlkAddr × Bool)
  /-- HBM units retired and remapped (R493), and those whose row is repaired (R496). -/
  hbmRetired : List HbmUnit
  /-- Corrected errors of a unit since cold reset (R493), as pairs. -/
  hbmErrors : List (HbmUnit × Nat)
  /-- Refreshes due: stripe and data sector (R487). -/
  refresh : List (Nat × Nat)
  /-- What reads of MED_SLOT_ECC have taken out and cleared since cold reset, by field key (Table 12-12). -/
  eccRead : Table Nat
  deriving DecidableEq, Repr

def FlashSt.init : FlashSt :=
  { dies := [], blocks := [], waiting := [], channels := [], programSeq := 0, scrubs := [], raw := none, hbmRetired := [], hbmErrors := []
    refresh := [], eccRead := [] }

end Sys2Proof.Machine
end

