-- ==== Sys2Proof/Machine/StateFtl.lean ====
section
/-! DEFINITION. The translation layer's tables: stripes, logical map, log index, far page map, copies, journal. -/
namespace Sys2Proof.Machine

/-- Stripe states (Table 11-2). -/
inductive StripeState where
  | free | opened | sealed | stale | erasing | retired
  deriving DecidableEq, Repr

def StripeState.code : StripeState → Nat
  | .free => 0 | .opened => 1 | .sealed => 2 | .stale => 3 | .erasing => 4 | .retired => 5

/-- A stripe-table entry (Table 11-2); `light` is CLASS; `erased` marks the groups erased in the erase under way. -/
structure Stripe where
  state : StripeState
  light : Bool
  role : Nat
  slot : Nat
  parity : Nat
  failed : Nat
  erases : Nat
  rows : Nat
  owner : Nat
  valid : Nat
  sealEpoch : Nat
  /-- Die index and die-block of each group. -/
  blk : List (Nat × Nat)
  erased : Nat
  deriving DecidableEq, Repr

/-- A logical-map entry (Table 11-4); LOG_COUNT is counted from the log index. -/
structure MapEntry where
  stripe : Nat
  mapped : Bool
  filling : Bool
  lost : Bool
  zone : Bool
  fill : Nat
  /-- Epoch of the last write that extended the fill (R520). -/
  lastFill : Nat
  /-- Zone state: finished by host or controller (R553, R554). -/
  full : Bool
  byController : Bool
  deriving DecidableEq, Repr

def MapEntry.none : MapEntry :=
  { stripe := 0, mapped := false, filling := false, lost := false, zone := false, fill := 0, lastFill := 0, full := false
    byController := false }

/-- A log-index entry, with the journal sequence number that made it. -/
inductive LogEnt where
  /-- One sector of a unit lies at a sector of a log stripe. -/
  | put (unit sector stripe pos seq : Nat)
  /-- A run of deallocated sectors of one unit. -/
  | trim (unit first count seq : Nat)
  deriving DecidableEq, Repr

/-- A journal record (R555): its TYPE, payload and sequence number. -/
structure JRec where
  type : Nat
  payload : Nat
  seq : Nat
  deriving DecidableEq, Repr

/-- The kinds of copy (Table 11-5). -/
inductive CopyKind where
  | set | merge | repair | migration
  deriving DecidableEq, Repr

def CopyKind.code : CopyKind → Nat
  | .set => 0 | .merge => 1 | .repair => 2 | .migration => 3

/-- A copy under way (R531): its number, target, sources, the unit of a merge, the journal sequence number at its start. -/
structure Copy where
  number : Nat
  kind : CopyKind
  target : Nat
  sources : List Nat
  unit : Option Nat
  seq : Nat
  /-- Slots whose GC window has yet to open for the sources to be read (R100, R531). -/
  unread : List Nat
  /-- Die index and die-block of each group of a migration's target (R545). -/
  blk : List (Nat × Nat)
  deriving DecidableEq, Repr

/-- A secure discard under way (R551): `count` sectors of unit `unit` from sector `first`. -/
structure Discard where
  unit : Nat
  first : Nat
  count : Nat
  /-- Stripes whose live content outside the range has yet to leave them. -/
  leave : List Nat
  /-- Stripes whose erase is awaited, and failed die-blocks that have yet to be sent theirs. -/
  erase : List Nat
  bad : List BlkAddr
  /-- Units whose merges were abandoned and restart afterwards. -/
  redo : List Nat
  deriving DecidableEq, Repr

/-- A migration under way (R544): source slot, spare slot, bank. -/
structure Migration where
  source : Nat
  target : Nat
  bank : Nat
  deriving DecidableEq, Repr

structure FtlSt where
  /-- Stripes that differ from their bank's default. -/
  stripes : Table (Option Stripe)
  /-- Slot of a bank's unlisted entries, and whether they are STALE (R545); unlisted: slot b, FREE. -/
  banks : Table (Option (Nat × Bool))
  /-- Sectors of the stripes, by stripe * 122,880 + data sector: on flash, or in the write buffer until its row is. -/
  data : Table (BitVec 32768)
  map : Table MapEntry
  /-- Log index, newest first. -/
  index : List LogEnt
  /-- Units named by a log stripe (R522), by stripe. -/
  unitLists : Table (List Nat)
  /-- Open log and far stripes of a slot, plus one; 0 for none. -/
  openLog : Table Nat
  openFar : Table Nat
  /-- Next sector of a log stripe, next page slot of a far stripe, by stripe. -/
  next : Table Nat
  /-- Far page map: by page key, stripe * 240 + page slot, plus one (R525). -/
  far : Table Nat
  copies : List Copy
  copyNumber : Nat
  migration : Option Migration
  discards : List Discard
  /-- Slots whose cartridge is lost (R543). -/
  lostSlots : List Nat
  /-- Journal buffer, newest first, and the next sequence number (R555, R556). -/
  buffer : List JRec
  seq : Nat
  /-- Bytes of journal records since the last checkpoint, and its number (R557). -/
  sinceCheckpoint : Nat
  checkpoint : Nat
  /-- Spare die-blocks taken, by die key, as a list (R539, R540). -/
  sparesUsed : Table (List Nat)
  /-- The write buffer and journal buffer lie in the dump area (R558). -/
  dumped : Bool
  /-- Sectors whose codeword is unrecovered (R486), by stripe * 122,880 + sector. -/
  bad : Table Bool
  /-- Sequence numbers given to log and far stripes (Table 11-2, OWNER). -/
  logSeq : Nat
  farSeq : Nat
  /-- The last MEDIA_STATE record, and the slots that BANK_SLOT records bind to banks, as FTL_BANK_SLOT shows them. -/
  mediaRo : Bool
  bankSlots : Nat
  deriving DecidableEq, Repr

def FtlSt.init : FtlSt :=
  { stripes := [], banks := [], data := [], map := [], index := [], unitLists := [], openLog := [], openFar := [], next := [], far := []
    copies := [], copyNumber := 0, migration := none, discards := [], lostSlots := [], buffer := [], seq := 0, sinceCheckpoint := 0
    checkpoint := 0, sparesUsed := [], dumped := false, bad := [], logSeq := 0, farSeq := 0, mediaRo := false, bankSlots := 0x76543210 }

end Sys2Proof.Machine
end

