-- ==== Sys2Proof/Machine/StateHost.lean ====
section
/-! DEFINITION. The state of the host interface: controllers, namespaces, programs, range locks, management, attestation. -/
namespace Sys2Proof.Machine

/-- Kinds of namespace (R572). -/
inductive NsKind where
  | nvm | zoned | memory
  deriving DecidableEq, Repr

/-- A namespace: logical units of NVM and zoned ones, account and address of memory ones (R573, R592). -/
structure Ns where
  kind : NsKind
  first : Nat
  units : Nat
  /-- Size in blocks, or in bytes of a memory namespace. -/
  size : Nat
  /-- Code class byte of the create (R574): 0 default, 1 strong, 2 light. -/
  cls : Nat
  acct : Nat
  base : Nat
  /-- Its media key (R595), a free value. -/
  key : Nat
  deriving DecidableEq, Repr

/-- A program slot (R585, R586). -/
structure Prog where
  image : Option PlanImage
  active : Bool
  deriving DecidableEq, Repr

def Prog.none : Prog := ⟨Option.none, false⟩

/-- An NVMe controller. -/
structure Ctl where
  enabled : Bool
  ready : Bool
  /-- A shutdown notification has been processed. -/
  shut : Bool
  /-- Queue and interrupt resources assigned to a VF (R577). -/
  vq : Nat
  vi : Nat
  deriving DecidableEq, Repr

def Ctl.init : Ctl := ⟨false, false, false, 0, 0⟩

/-- An entry of the range-lock table (R579): the command that holds it, in fetch order, and what it covers: blocks of a namespace
(`mem` false: nsid * 2^40 + LBA) or device-virtual bytes (`mem` true: account * 2^47 + address). -/
structure Lock where
  seq : Nat
  cid : Nat
  ctl : Nat
  mem : Bool
  start : Nat
  len : Nat
  deriving DecidableEq, Repr

/-- A command fetched and not complete (R579 to R583, R647). An execution leaves the list when it is admitted as a job. -/
structure Fetched where
  seq : Nat
  cmd : HostCmd
  /-- It stands in its queue, which fetches nothing until a command before it has its entries (R581). -/
  queued : Bool
  /-- It holds its entries of the range-lock table, or needs none. -/
  locked : Bool
  /-- It has been performed here, and waits for TWACKs or for flash. -/
  started : Bool
  /-- Mirrors of it not yet acknowledged (R647). -/
  left : Nat
  /-- Runs of sectors, as (unit, first, count), that must be on flash before it completes (R21). -/
  flash : List (Nat × Nat × Nat)
  /-- Its flash sources have been read over the Coudé path (R593). -/
  flashRead : Bool
  /-- Its completion is discarded (R564, R666). -/
  discard : Bool
  /-- Dwords 0 and 1 of its completion, as one number. -/
  result : Nat
  deriving DecidableEq, Repr

/-- A host window access that waits (R568): its address, its data when it writes, its length. -/
structure WindowWait where
  addr : Nat
  len : Nat
  data : Option (List Byte)
  deriving DecidableEq, Repr

/-- Where an SPDM responder's connection stands (R607). -/
inductive SpdmState where
  | idle | version | capabilities | negotiated
  deriving DecidableEq, Repr

/-- A sanitize of this module that waits for compute to quiesce (R598): a Block Erase or a Crypto Erase, and the ownership release that asked
for it (R703), as (CID, controller). -/
structure Sanitize where
  block : Bool
  release : Option (Nat × Nat)
  deriving DecidableEq, Repr

structure HostSt where
  /-- A reference clock arrives on the REFCLK pins of S1. -/
  refclk : Bool
  /-- The rate in GT/s to which the port has trained (R561); 0 while it stays in Detect. -/
  portRate : Nat
  /-- Configuration space of a port's functions is loaded (R563). -/
  configLoaded : List Nat
  ctls : Table Ctl
  ns : Table (Option Ns)
  programs : Table Prog
  sets : Table (Option (List MemRange))
  locks : List Lock
  /-- Commands fetched and not complete, in the order of their fetch; and the number of the next one. -/
  fetched : List Fetched
  fetchSeq : Nat
  /-- Host window accesses that wait, oldest first. -/
  window : List WindowWait
  /-- The sanitize that waits for compute to quiesce (R598). -/
  sanitize : Option Sanitize
  /-- Controller fatal status (R45). -/
  fatal : Bool
  spdm : SpdmState
  session : Option Nat
  /-- A session whose FINISH is awaited. -/
  handshake : Option Nat
  /-- NVMe-MI configuration values, by identifier. -/
  mi : Table Nat
  /-- CXL event records, oldest first. -/
  cxlEvents : List Nat
  deriving DecidableEq, Repr

def HostSt.init : HostSt :=
  { refclk := false, portRate := 0, configLoaded := [], ctls := [], ns := [], programs := [], sets := [], locks := [], fetched := [], fetchSeq := 0, window := [], sanitize := none, fatal := false
    spdm := .idle, session := none, handshake := none, mi := [], cxlEvents := [] }

end Sys2Proof.Machine
end

