-- ==== Sys2Proof/Machine/StateOut.lean ====
section
/-! DEFINITION. What the module answers and sends: completions, events, bus reads, messages. The model keeps them in the
state, newest first, so that a statement can speak of them. -/
namespace Sys2Proof.Machine

/-- One answer or message of the module. -/
inductive Out where
  /-- An NVMe completion: command identifier, controller, status, Command Retry Delay, Dwords 0 and 1. -/
  | completion (cid ctl : Nat) (status : Status) (crd dw0 dw1 : Nat)
  /-- Data a command returns to the host. -/
  | bytes (cid ctl : Nat) (data : List Byte)
  | sectors (cid ctl : Nat) (data : List Sector)
  /-- A vendor asynchronous event: information and log page (R605). -/
  | event (info page : Nat)
  /-- Another asynchronous event, by the NVMe log page it concerns and a number within it. -/
  | notice (page info : Nat)
  /-- What a bus read returned, and its width in bytes. -/
  | read (value bytes : Nat)
  /-- Data a host window read returned. -/
  | window (data : List Byte)
  /-- Completer Abort of a host window read (Table 12-4). -/
  | abort
  /-- Poisoned data of a host window read under CXL (R608). -/
  | poison
  /-- Request Retry Status (R563). -/
  | retry
  /-- INIT sent in training (R615). -/
  | init (link : Nat) (m : InitMsg)
  /-- A message wholly sent on a Limuc link. -/
  | limuc (link : Nat) (m : LMsg)
  /-- ACK, NAK or a replay on a link (R618): 0 ACK, 1 NAK, 2 replay; the SEQ it names. -/
  | flit (link kind seq : Nat)
  /-- Bytes written to host memory by DMA. -/
  | dma (addr : Nat) (data : List Byte)
  /-- An answer of the management endpoint, the SPDM responder or the CXL mailbox: the request's code, its fields. -/
  | answer (code : Nat) (fields : List Nat)
  /-- ATTN# light: safe to remove (R669). -/
  | safeToRemove
  deriving DecidableEq, Repr

end Sys2Proof.Machine
end

