-- ==== Sys2Proof/Machine/StateSched.lean ====
section
/-! DEFINITION. The state of serving groups, sequences, jobs, shares and semaphores that no register field holds. -/
namespace Sys2Proof.Machine

/-- Sequence states (Table 8-1). -/
inductive SeqState where
  | free | running | stalled | swapping | swapped | returning | leaving
  deriving DecidableEq, Repr

def SeqState.code : SeqState → Nat
  | .free => 0 | .running => 1 | .stalled => 2 | .swapping => 3 | .swapped => 4 | .returning => 5 | .leaving => 6

/-- A sequence-table entry (R378). -/
structure SeqEntry where
  state : SeqState
  group : Nat
  sequence : Nat
  length : Nat
  promptLen : Nat
  consumed : Nat
  generated : Nat
  maxNew : Nat
  sets : Nat
  stall : Nat
  admitEpoch : Nat
  promptAddr : Nat
  outAddr : Nat
  cancel : Bool
  /-- Reason of the LEAVE event (Table 8-6). -/
  reason : Nat
  /-- The LEAVE event is written and the pages have joined the pending releases. -/
  leaveWritten : Bool
  /-- Pool pages held, page k of set s at s * SET_PAGES + k (R374). -/
  pages : List Nat
  /-- Tokens of the step the entry was last listed for (R384), and whether that step was its first. -/
  newTokens : Nat
  stepped : Bool
  /-- Its pages that count in the group's HELD. -/
  held : Nat
  deriving DecidableEq, Repr

def SeqEntry.init : SeqEntry :=
  { state := .free, group := 0, sequence := 0, length := 0, promptLen := 0, consumed := 0, generated := 0, maxNew := 0
    sets := 0, stall := 0, admitEpoch := 0, promptAddr := 0, outAddr := 0, cancel := false, reason := 0
    leaveWritten := false, pages := [], newTokens := 0, stepped := false, held := 0 }

/-- A serving group: what no SQT_GRP_ register holds. -/
structure GroupSt where
  /-- Pool pages to unmap at the next build, the entries that become FREE then, held pages that leave the budget (R390). -/
  pending : List Nat
  pendingEntries : List Nat
  pendingHeld : Nat
  /-- Entries of the last work list, in order. -/
  listed : List Nat
  /-- The step execution under way, and how the last one ended. -/
  stepJob : Option Nat
  stepEnd : Option Status
  /-- What an access of the step builder waits for: the build goes on when it is there (R328, R347). -/
  waits : Option WaitFor
  deriving DecidableEq, Repr

def GroupSt.init : GroupSt := ⟨[], [], 0, [], none, none, none⟩

/-- Where a job's work on one of its clusters stands. -/
inductive WorkState where
  | waiting
  | running (cluster : Nat)
  | saved (cluster : Nat) (inArea : Bool)
  | done
  deriving DecidableEq, Repr

/-- A job's work on one logical cluster (25 d + c): the macro-operations not yet done. -/
structure ClusterWork where
  cluster : Nat
  macros : List (BitVec 1024)
  /-- The macro-operation in progress when its context was saved. -/
  cur : Option MacroRun
  /-- The chain then open, and its cores. -/
  chain : Option Chain
  cores : List SavedCore
  state : WorkState
  deriving DecidableEq, Repr

/-- A job (R402 to R404). -/
structure Job where
  acct : Nat
  cls : Nat
  plan : Nat
  estimate : Nat
  /-- Engine time charged, in cluster-microseconds. -/
  charged : Nat
  context : Option (Nat × Nat)
  outCh : Option Nat
  inCh : Option Nat
  outSlot : Option Nat
  inSlot : Option Nat
  /-- Host command that submitted it: command identifier and controller; none for a step execution. -/
  cid : Option (Nat × Nat)
  /-- Its completion is discarded (R564, R665). -/
  discard : Bool
  group : Option Nat
  work : List ClusterWork
  /-- The parameter block (R589). -/
  params : List Byte
  /-- Admission order, for ties (R405). -/
  order : Nat
  /-- Chart loads seen at admission (R717). -/
  chartGen : Nat
  started : Bool
  status : Option Status
  faultCode : Nat
  pageKind : Nat
  /-- Balances inherited (R412, R413). -/
  inherited : List Int
  /-- The search batch a built-in search job runs: its catalogue (R436). -/
  catalogue : Option Nat
  /-- Limuc requests issued and completed (R637). -/
  issued : Nat
  completed : Nat
  deriving DecidableEq, Repr

/-- A glue segment that waits for a semaphore: its job and the physical core whose control engine runs it (R415, R417). -/
structure SemWaiter where
  job : Nat
  core : Nat
  deriving DecidableEq, Repr

/-- A hardware semaphore (R415): its owner, and who waits, in the order of their requests. -/
structure SemSt where
  owner : Option Nat
  waiters : List SemWaiter
  deriving DecidableEq, Repr

def SemSt.init : SemSt := ⟨none, []⟩

structure SchedSt where
  seqs : Table SeqEntry
  groups : Table GroupSt
  jobs : Table (Option Job)
  balances : Table Int
  times : Table Nat
  sems : Table SemSt
  /-- Jobs admitted since reset, for the order of R405. -/
  admitted : Nat
  deriving DecidableEq, Repr

def SchedSt.init : SchedSt :=
  { seqs := [], groups := [], jobs := [], balances := [], times := [], sems := [], admitted := 0 }

end Sys2Proof.Machine
end

