-- ==== Sys2Proof/Machine/StateSpan.lean ====
section
/-! DEFINITION. The state of Limuc links, requests, the directory and twin pairing that no register field holds. -/
namespace Sys2Proof.Machine

/-- A message that is not wholly sent: its place in the order of arrival, its virtual channel, and how many of its flits are left (R618 to R620). -/
structure HeldMsg where
  no : Nat
  vc : Nat
  msg : LMsg
  left : Nat
  deriving DecidableEq, Repr

/-- A link's flit layer (R618, R620). -/
structure LinkSt where
  /-- SEQ of the next flit sent, and of the next flit expected. -/
  sendSeq : Nat
  recvSeq : Nat
  /-- Unacknowledged flits, oldest first: SEQ, VC, and the message that the flit carries, if it is no data flit. -/
  unacked : List (Nat × Nat × List LMsg)
  /-- Replays of the oldest unacknowledged flit. -/
  replays : Nat
  /-- Link credits held, by VC, and credits freed and not yet returned. -/
  credits : List Nat
  freed : List Nat
  /-- Messages held for want of a link credit or replay space, oldest first (R618, R620, R631). -/
  held : List HeldMsg
  /-- The place in the order of the next message. -/
  heldNext : Nat
  /-- Flits received since the last ACK (R618). -/
  ackDue : Nat
  /-- Measured delays of the last eight probes, newest first (R617). -/
  delays : List Nat
  /-- The peer's INIT named TWIN_PARTNER with its TWIN bit set (R616). -/
  twinOk : Bool
  deriving DecidableEq, Repr

def LinkSt.init : LinkSt :=
  { sendSeq := 0, recvSeq := 0, unacked := [], replays := 0, credits := [0, 0, 0, 0], freed := [0, 0, 0, 0], held := [], heldNext := 0, ackDue := 0
    delays := [], twinOk := false }

/-- What a Limuc request of this module serves. -/
inductive ReqUse where
  /-- A write or an add of a job to a remote page (4096 for none): account, address, who writes. -/
  | access (job acct addr : Nat) (who : Reader)
  /-- A read of 64 bytes of a remote page. -/
  | line (job acct addr : Nat) (who : Reader)
  /-- A piece of an activation slot. -/
  | act (channel slot : Nat)
  /-- A page of the tier command under way: MAP or UNMAP at the holder. -/
  | page (acct page : Nat) (map : Bool)
  | join | alive | sync | partner
  /-- A mirrored command by its number in the list of mirrors, a checkpoint, a resync piece of a unit, a bitmap, a TWIN_CTRL
  message with its OP. -/
  | mirror (id : Nat)
  | ckpt | resync (unit : Nat) (last : Bool) | bitmap | ctrl (op : Nat)
  deriving DecidableEq, Repr

/-- A request that awaits its response. -/
structure SpanReq where
  tag : Nat
  msg : LMsg
  purpose : ReqUse
  /-- It was answered NOT_READY and waits for RETRY_MS (R624). -/
  retry : Option Nat
  deriving DecidableEq, Repr

/-- A directory entry: 0 absent, 1 member, 2 lost; serial; epoch of its last change. -/
structure DirEntry where
  state : Nat
  serial : Nat
  epoch : Nat
  deriving DecidableEq, Repr

def DirEntry.absent : DirEntry := ⟨0, 0, 0⟩

/-- A change that waits for its TWACK (R647): its twin order number, 0 for one forwarded to its home; the host command it is part
of, or the forwarded message it answers. -/
structure Mirror where
  id : Nat
  order : Nat
  op : NvOp
  owner : Option (Nat × Nat)
  fwd : Option LMsg
  deriving DecidableEq, Repr

/-- 64 bytes of a remote page that have come for who reads them (R347): their key, and the kind of the page fault that they met, 0 for none. -/
structure Line where
  who : Reader
  key : Nat
  kind : Nat
  deriving DecidableEq, Repr

structure SpanSt where
  links : Table LinkSt
  reqs : List SpanReq
  /-- Requests of other modules that wait for a page of this module (R328, R347), in the order of their arrival. -/
  kept : List LMsg
  /-- Requests that wait for their class's allowance (R633). -/
  blocked : List SpanReq
  /-- Requests of jobs whose context is saved: they wait for the job to resume (R419). -/
  parked : List SpanReq
  /-- Remote bytes that have come and that their reader has not used yet. -/
  lines : List Line
  nextTag : Nat
  directory : Table DirEntry
  /-- The span master has admitted this module (R624, R641). -/
  admitted : Bool
  /-- The newest TERM and broadcast number seen (R640). -/
  seenTerm : Nat
  seenSeq : Nat
  /-- The number of this module's next broadcast. -/
  bcastSeq : Nat
  /-- Link last used by twin traffic (R648). -/
  lastTwin : Nat
  deriving DecidableEq, Repr

def SpanSt.init : SpanSt :=
  { links := [], reqs := [], kept := [], blocked := [], parked := [], lines := [], nextTag := 0, directory := [], admitted := false, seenTerm := 0, seenSeq := 0, bcastSeq := 0, lastTwin := 7 }

structure TwinSt where
  /-- State and generation as last journaled (R650, R659). -/
  journaled : Nat
  journaledGen : Nat
  /-- Set units of this module's dirty bitmap (R654). -/
  dirty : Table Bool
  /-- Units still to copy in the resync under way (R655). -/
  resync : Table Bool
  /-- Twin order number of the next mirrored command, and the last one performed here (R647). -/
  nextOrder : Nat
  lastOrder : Nat
  nextMirror : Nat
  mirrors : List Mirror
  /-- Mirrored messages that arrived before an earlier one, or that wait for room. -/
  early : List LMsg
  /-- Messages of changes performed here whose secure discards go on: each is answered at their end (R551). -/
  slow : List LMsg
  /-- A HELLO held until the power-on self-test has ended (R662). -/
  heldHello : Option LMsg
  /-- The first 8 bytes of the partner's serial, from its INIT (R571, R615). -/
  peerSerial : Nat
  /-- The partner answered a HELLO since this module entered its state. -/
  heard : Bool
  /-- DETACH is under way (R652): 1 draining, 2 notice sent, 0 none. -/
  detaching : Nat
  /-- The partner's sequence-table entries and what else its last checkpoint held (R649). -/
  peer : Table Nat
  peerSwaps : Nat
  peerLen : Nat
  /-- None before a checkpoint has arrived. -/
  peerCrc : Option Nat
  /-- Sequence-table words sent in the last checkpoint. -/
  sent : Table Nat
  deriving DecidableEq, Repr

def TwinSt.init : TwinSt :=
  { journaled := 0, journaledGen := 0, dirty := [], resync := [], nextOrder := 1, lastOrder := 0, nextMirror := 0, mirrors := []
    early := [], slow := [], heldHello := none, peerSerial := 0, heard := false, detaching := 0, peer := [], peerSwaps := 0, peerLen := 0, peerCrc := none, sent := [] }

end Sys2Proof.Machine
end

