-- ==== Sys2Proof/Machine/StateTransit.lean ====
section
/-! DEFINITION. The state of the clock drive and the Ephemeris that no register field holds. Times are in units of
0.25 ns on a time line common to all commands. -/
namespace Sys2Proof.Machine

structure TransitSt where
  /-- When the current epoch began. -/
  start : Nat
  /-- Tracked period T in ns (R77). -/
  tracked : Nat
  /-- Adjustment in phase units of the epoch that begins at the coming boundary (R76, early edges). -/
  nextAdjust : Int
  /-- Time of the last accepted edge; none when the next accepted edge is edge 1 (R80). -/
  lastEdge : Option Nat
  /-- Accepted edges counted in ACQUIRE (Table 2-3). -/
  edges : Nat
  /-- The previous accepted edge had a small error. -/
  prevSmall : Bool
  /-- An accepted edge marked this epoch's boundary or fell in it; one marked the coming boundary. -/
  accepted : Bool
  acceptedNext : Bool
  /-- A stray edge fell in the previous epoch, in this epoch (HOLDOVER row of Table 2-3). -/
  strayPrev : Bool
  strayNow : Bool
  /-- The change announced last by a message: TRN_NEXT_PERIOD and TRN_NEXT_EPOCH (R87). -/
  announced : Option (Nat × Nat)
  /-- The number the next boundary takes, when R90 or R91 set one. -/
  nextNumber : Option Nat
  /-- Epoch numbers of the messages accepted, newest first (R73, R92). -/
  messages : List Nat
  deriving DecidableEq, Repr

def TransitSt.init : TransitSt :=
  { start := 0, tracked := 10000000, nextAdjust := 0, lastEdge := none, edges := 0, prevSmall := false
    accepted := false, acceptedNext := false, strayPrev := false, strayNow := false, announced := none, nextNumber := none
    messages := [] }

structure EphemerisSt where
  /-- Entries of physical banks 0 and 1, by index (R93, R709). -/
  bank0 : Table Nat
  bank1 : Table Nat
  /-- Background targets with pending work seen in this cycle, and those a window opened for (R105). -/
  wanted : List (Nat × Nat)
  served : List (Nat × Nat)
  deriving DecidableEq, Repr

def EphemerisSt.init : EphemerisSt := { bank0 := [], bank1 := [], wanted := [], served := [] }

end Sys2Proof.Machine
end

