-- ==== Sys2Proof/Machine/State.lean ====
section
/-! DEFINITION. The state of the module: plain data, everything the spec gives it, and the queue of waiting commands. -/
namespace Sys2Proof.Machine

/-- Why a step can stop with a fault. No meaning of this model ends in a fault: the block has no stop that the spec
describes. Raised by nobody; safe. -/
inductive Fault where
  /-- No command raises it (kept so that the type is not empty); safe. -/
  | unreachable
  deriving DecidableEq, Repr

/-- Why a step can be refused. -/
inductive Refusal where
  /-- Raised by exec for a command that has no meaning in this model yet; safe. -/
  | notModelled (mnemonic : String)
  deriving DecidableEq, Repr

/-- Everything the module itself holds: registers, the structured state of each block, memory and answers. -/
structure Mdl where
  /-- BAR2 register fields, by Fld.key; a field not listed holds its reset value. -/
  regs : Table Nat
  svc : SvcSt
  trn : TransitSt
  eph : EphemerisSt
  cht : ChartSt
  /-- Cores, by (die * 26 + cluster) * 9 + core; clusters, by die * 26 + cluster. Physical numbers. -/
  cores : Table CoreSt
  clusters : Table ClusterSt
  tir : TierSt
  /-- Device-virtual memory of all accounts (R325). -/
  mem : Memory
  sch : SchedSt
  /-- Catalogues 0 to 255. -/
  cats : Table CatSt
  med : FlashSt
  ftl : FtlSt
  host : HostSt
  spn : SpanSt
  twn : TwinSt
  /-- Answers and messages, newest first. -/
  out : List Out
  /-- Index of the next free value (the model's own field, assumption log entry 2). -/
  free : Nat
  deriving DecidableEq, Repr

/-- The module right after reset: every register at the spec's reset value, power absent. -/
def Mdl.reset : Mdl :=
  { regs := [], svc := .init, trn := .init, eph := .init, cht := .init, cores := [], clusters := [], tir := .init
    mem := [], sch := .init, cats := [], med := .init, ftl := .init, host := .init, spn := .init, twn := .init, out := [], free := 0 }

/-- The state: the module, and the commands that wait for it, first in, first out. No meaning of a command sees the queue. -/
structure State extends Mdl where
  /-- Commands that wait, the next one first. -/
  pending : List Instr
  deriving DecidableEq, Repr

/-- The machine right after reset: the module's reset values and an empty queue. -/
def State.reset : State := { toMdl := .reset, pending := [] }

end Sys2Proof.Machine
end

