-- ==== Sys2Proof/Machine/Ops.lean ====
section
/-! DEFINITION. The named operations every block uses: register fields, cores and clusters, device memory, free values,
answers, events, logs and unit numbers. -/
namespace Sys2Proof.Machine

/-! ### Register fields -/

/-- The value of a register field. -/
def Mdl.reg (s : Mdl) (f : Fld) : Nat := Table.get f.reset s.regs f.key

/-- Is a one-bit field 1? -/
def Mdl.flag (s : Mdl) (f : Fld) : Bool := s.reg f == 1

/-- Set a register field, cut to its width. -/
def Mdl.setReg (s : Mdl) (f : Fld) (v : Nat) : Mdl :=
  { s with regs := Table.set f.reset s.regs f.key (v % 2 ^ f.width) }

/-- Set a field to 0 or 1. -/
def Mdl.setBit (s : Mdl) (f : Fld) (b : Bool) : Mdl := s.setReg f (b2n b)

/-- Set several fields, first to last. -/
def Mdl.setRegs (s : Mdl) (l : List (Fld × Nat)) : Mdl := l.foldl (fun s p => s.setReg p.1 p.2) s

/-- Add to a counter that wraps. -/
def Mdl.count (s : Mdl) (f : Fld) (n : Nat := 1) : Mdl := s.setReg f (s.reg f + n)

/-- Add to a counter that saturates. -/
def Mdl.countSat (s : Mdl) (f : Fld) (n : Nat := 1) : Mdl := s.setReg f (min (s.reg f + n) (2 ^ f.width - 1))

/-- Return a field to its reset value. -/
def Mdl.resetReg (s : Mdl) (f : Fld) : Mdl := s.setReg f f.reset

/-- The current epoch number (R67). -/
def Mdl.epoch (s : Mdl) : Nat := s.reg Reg.TRN_EPOCH_EPOCH

/-! ### Cores and clusters -/

def clusterKey (d c : Nat) : Nat := d * 26 + c
def coreKey (d c k : Nat) : Nat := (d * 26 + c) * 9 + k

def Mdl.cluster (s : Mdl) (d c : Nat) : ClusterSt := Table.get .init s.clusters (clusterKey d c)
def Mdl.setCluster (s : Mdl) (d c : Nat) (v : ClusterSt) : Mdl :=
  { s with clusters := Table.set .init s.clusters (clusterKey d c) v }
def Mdl.core (s : Mdl) (d c k : Nat) : CoreSt := Table.get .init s.cores (coreKey d c k)
def Mdl.setCore (s : Mdl) (d c k : Nat) (v : CoreSt) : Mdl :=
  { s with cores := Table.set .init s.cores (coreKey d c k) v }

/-- A bank of a core. -/
def CoreSt.bank (c : CoreSt) (b : Nat) : Bank := if b = 0 then c.bank0 else c.bank1
/-- Replace a bank of a core. -/
def CoreSt.setBank (c : CoreSt) (b : Nat) (v : Bank) : CoreSt := if b = 0 then { c with bank0 := v } else { c with bank1 := v }

/-- Show a core's bank states in SEQ_CORE_STATUS (Table 4-12). -/
def Mdl.showBanks (s : Mdl) (d c k : Nat) : Mdl :=
  let x := s.core d c k
  (s.setReg (Reg.SEQ_CORE_STATUS_BANK0 d c k) x.bank0.state.code).setReg (Reg.SEQ_CORE_STATUS_BANK1 d c k) x.bank1.state.code

/-- The core clock in MHz (R170, Table 14-12). -/
def Mdl.coreMHz (s : Mdl) : Nat := match s.reg Reg.PWR_THERMAL_STEP with | 0 => 2000 | 1 => 1800 | 2 => 1500 | _ => 1000

/-! ### Device memory -/

/-- The key of an address of an account's device-virtual range (R325). -/
def memKey (acct addr : Nat) : Nat := acct * 2 ^ 47 + addr % 2 ^ 47

/-- The undefined contents an SRAM place of a cluster's store, a core's plates or a core's accumulator file has while nothing has
written it; `fill` as the unit holds it (R688). What a unit holds moves with it (R34), so `origin` names the place it came from. -/
def Mdl.sramFill (s : Mdl) (fill origin unit_ part : Nat) (a : Nat) : Byte :=
  Config.sramByte (if fill = 0 then s.svc.sram else fill) (((if origin = 0 then unit_ else origin - 1) * 4 + part) * 2 ^ 32 + a)
def Mdl.storeFill (s : Mdl) (d c : Nat) : Nat → Byte :=
  let y := s.cluster d c
  s.sramFill y.fill y.origin (clusterKey d c) 0
def Mdl.platesFill (s : Mdl) (d c k : Nat) : Nat → Byte :=
  let x := s.core d c k
  s.sramFill x.fill x.origin (coreKey d c k) 1
def Mdl.accFill (s : Mdl) (d c k i : Nat) : F32 :=
  let x := s.core d c k
  BitVec.ofNat 32 (leNat ((List.range 4).map fun n => s.sramFill x.fill x.origin (coreKey d c k) 2 (4 * i + n)))

/-- A byte of a cluster's store. What the field `store` lists is the difference from the undefined contents. -/
def Mdl.storeByte (s : Mdl) (d c a : Nat) : Byte := (s.cluster d c).store.read a ^^^ s.storeFill d c a
/-- A byte of a core's plates; `plates` lists the difference from the undefined contents. -/
def Mdl.platesByte (s : Mdl) (d c k a : Nat) : Byte := (s.core d c k).plates.read a ^^^ s.platesFill d c k a
/-- Has a row of the accumulator file been written since the chart came into force (R281)? -/
def CoreSt.rowWritten (x : CoreSt) (r : Nat) : Bool := x.accRows / 2 ^ r % 2 == 1
/-- A cell of a core's accumulator file; `acc` lists the difference from the undefined contents. -/
def Mdl.accCell (s : Mdl) (d c k i : Nat) : F32 := Table.get F32.zero (s.core d c k).acc i ^^^ s.accFill d c k i

/-- Write bytes of a cluster's store. -/
def Mdl.storeWrite (s : Mdl) (d c a : Nat) (l : List Byte) : Mdl :=
  let y := s.cluster d c
  s.setCluster d c { y with store := y.store.writeBytes a (l.zipIdx.map fun q => q.1 ^^^ s.storeFill d c (a + q.2)) }
/-- Write bytes of a core's plates. -/
def Mdl.platesWrite (s : Mdl) (d c k a : Nat) (l : List Byte) : Mdl :=
  let y := s.core d c k
  s.setCore d c k { y with plates := y.plates.writeBytes a (l.zipIdx.map fun q => q.1 ^^^ s.platesFill d c k (a + q.2)) }
/-- Write a cell of a core's accumulator file. -/
def Mdl.accWrite (s : Mdl) (d c k i : Nat) (v : F32) : Mdl :=
  let y := s.core d c k
  s.setCore d c k { y with acc := Table.set F32.zero y.acc i (v ^^^ s.accFill d c k i), accRows := y.accRows ||| 2 ^ (i / 64) }

/-- Read `n` bytes of an account's range. -/
def Mdl.memRead (s : Mdl) (acct addr n : Nat) : List Byte := s.mem.readBytes (memKey acct addr) n
/-- Read a little-endian number of `n` bytes. -/
def Mdl.memNat (s : Mdl) (acct addr n : Nat) : Nat := leNat (s.memRead acct addr n)
/-- Write bytes to an account's range. -/
def Mdl.memWrite (s : Mdl) (acct addr : Nat) (l : List Byte) : Mdl :=
  { s with mem := s.mem.writeBytes (memKey acct addr) l }

/-- Set the `n` bytes from key `k` to zero. -/
def Memory.clear (m : Memory) (k n : Nat) : Memory := m.filter fun p => p.1 < k || k + n ≤ p.1

/-! ### Free values -/

/-- A fresh free value below `2 ^ w` (assumption log entry 2), and the state whose counter has moved on. -/
def Mdl.fresh (s : Mdl) (w : Nat) : Nat × Mdl := (Config.freeValue s.free % 2 ^ w, { s with free := s.free + 1 })

/-- `n` fresh free bytes. -/
def Mdl.freshBytes (s : Mdl) : Nat → List Byte × Mdl
  | 0 => ([], s)
  | n + 1 =>
    let r := s.fresh 8
    let t := Mdl.freshBytes r.2 n
    (BitVec.ofNat 8 r.1 :: t.1, t.2)

/-! ### Answers and events -/

def Mdl.emit (s : Mdl) (o : Out) : Mdl := { s with out := o :: s.out }

/-- Post a vendor asynchronous event, unless one of its kind waits for its page to be read (R605). -/
def Mdl.postEvent (s : Mdl) (info page : Nat) : Mdl :=
  if s.svc.posted.contains info then s
  else { s with svc := { s.svc with posted := info :: s.svc.posted }, out := .event info page :: s.out }

/-- Complete an NVMe command without retry delay. -/
def Mdl.complete (s : Mdl) (cid ctl : Nat) (st : Status) (dw0 : Nat := 0) (dw1 : Nat := 0) : Mdl :=
  s.emit (.completion cid ctl st 0 dw0 dw1)

/-! ### The log book (R673, R674, R679) -/

def LogRec.bytes (r : LogRec) : List Byte :=
  leBytes 1 r.kind ++ leBytes 1 0 ++ leBytes 6 r.epoch ++ leBytes 6 r.time ++ leBytes 4 r.poh ++ leBytes 10 r.data
    ++ leBytes 4 r.chain

/-- Records of the log-book ring. -/
def logBookSize : Nat := 8064

/-- CHAIN of the next record: the low 32 bits of SHA-384 of the newest record; 0 when there is none. -/
def SvcSt.chain (v : SvcSt) : Nat :=
  match v.logBook with
  | [] => 0
  | r :: _ => sha384 r.bytes % 2 ^ 32

/-- Append a record to the ring; a full ring drops its oldest record and counts it (R674). -/
def Mdl.logBook (s : Mdl) (kind data : Nat) : Mdl :=
  let v := s.svc
  let r : LogRec := { kind := kind, epoch := s.epoch, time := v.timestamp, poh := v.poh, data := data % 2 ^ 80, chain := v.chain }
  { s with svc := { v with
      logBook := (r :: v.logBook).take logBookSize
      logTotal := (v.logTotal + 1) % 2 ^ 64
      logDropped := if v.logBook.length = logBookSize then v.logDropped + 1 else v.logDropped } }

/-- Raise a lifetime total (Table 14-8). -/
def Mdl.total (s : Mdl) (t : Total) (n : Nat := 1) : Mdl :=
  { s with svc := { s.svc with totals := Table.modify 0 s.svc.totals t.index (· + n) } }

/-! ### The transit and schedule log (Table 12-11) -/

def Mdl.trnRecord (s : Mdl) (event cls : Nat) : Mdl :=
  let f := fun (l : List Fld) => l.foldl (fun a f => a + s.reg f * 2 ^ f.lo) 0
  let r : TrnRec :=
    { event := event, cls := cls, epoch := s.epoch
      status := f [Reg.TRN_STATUS_STATE, Reg.TRN_STATUS_SOURCE_USED, Reg.TRN_STATUS_HOLDOVER_EPOCHS, Reg.TRN_STATUS_ACQ_TIMEOUT,
        Reg.TRN_STATUS_EPOCH_STEP, Reg.TRN_STATUS_EPOCH_REFUSED, Reg.TRN_STATUS_PERIOD_REFUSED, Reg.TRN_STATUS_LOST_LOCK,
        Reg.TRN_STATUS_EPOCH_RESHAPED]
      phase := f [Reg.TRN_PHASE_PHASE, Reg.TRN_PHASE_LAST_ERROR], period := s.reg Reg.TRN_PERIOD_PERIOD }
  { s with svc := { s.svc with trnLog := (r :: s.svc.trnLog).take 64, trnTotal := s.svc.trnTotal + 1 } }

/-! ### The fault record (R51, R52) -/

/-- A fault laid out as SVC_HIER_FAULT bits [47:0], VALID set (Table 1-9). -/
def hierWord (u : UnitAddr) (kind action : Nat) : Nat :=
  1 + u.level.code * 4 + u.die * 2 ^ 8 + u.cluster * 2 ^ 10 + u.core * 2 ^ 15 + u.lane * 2 ^ 19 + kind * 2 ^ 32 + action * 2 ^ 40

/-- Record a fault: in SVC_HIER_FAULT unless VALID is 1, in the log page and the log book, with an event (R51, R52). -/
def Mdl.hierRecord (s : Mdl) (u : UnitAddr) (kind action : Nat) : Mdl :=
  let s := s.logBook 0x05 (hierWord u kind action)
  let n := s.svc.hierTotal + 1
  let s := { s with svc := { s.svc with
    hierLog := (HierRec.mk u kind action s.epoch n :: s.svc.hierLog).take 128
    hierTotal := n } }
  let s :=
    if s.flag Reg.SVC_HIER_FAULT_VALID then s.setReg Reg.SVC_HIER_FAULT_OVERFLOW 1
    else s.setRegs [(Reg.SVC_HIER_FAULT_VALID, 1), (Reg.SVC_HIER_FAULT_LEVEL, u.level.code), (Reg.SVC_HIER_FAULT_DIE, u.die),
      (Reg.SVC_HIER_FAULT_CLUSTER, u.cluster), (Reg.SVC_HIER_FAULT_CORE, u.core), (Reg.SVC_HIER_FAULT_LANE, u.lane),
      (Reg.SVC_HIER_FAULT_KIND, kind), (Reg.SVC_HIER_FAULT_ACTION, action), (Reg.SVC_HIER_FAULT_EPOCH_EPOCH, s.epoch)]
  s.postEvent 0 0xC0

/-! ### Physical and logical numbers (R29 to R32) -/

/-- Is a physical die, cluster, core or lane in the retirement list? -/
def SvcSt.retiredDie (v : SvcSt) (d : Nat) : Bool := v.retired.contains ⟨.die, d, 0, 0, 0⟩
def SvcSt.retiredCluster (v : SvcSt) (d c : Nat) : Bool := v.retired.contains ⟨.cluster, d, c, 0, 0⟩
def SvcSt.retiredCore (v : SvcSt) (d c k : Nat) : Bool := v.retired.contains ⟨.core, d, c, k, 0⟩
def SvcSt.retiredLane (v : SvcSt) (d c k l : Nat) : Bool := v.retired.contains ⟨.engine, d, c, k, l⟩

/-- The physical units that carry logical numbers 0 to n - 1, in order: the first n not retired (R29). -/
def mapUnits (total n : Nat) (retired : Nat → Bool) : List Nat := ((List.range total).filter (fun i => !retired i)).take n

/-- The bit mask of a list of unit numbers. -/
def maskOf (l : List Nat) : Nat := l.foldl (fun a i => if bit a i then a else a + 2 ^ i) 0

/-- Physical dies in service, by logical number (SVC_DIE_MAP). -/
def Mdl.logDies (s : Mdl) : List Nat :=
  let on := s.reg Reg.SVC_DIE_MAP_DIE_INSERVICE
  let of := s.reg Reg.SVC_DIE_MAP_LOG_OF_PHYS
  (List.range 4).filterMap fun n => (List.range 4).find? fun p => bit on p && bits of (2 * p) 2 == n

/-- Physical clusters in service in a die, by logical number (SVC_CLU_MAP). -/
def Mdl.logClusters (s : Mdl) (d : Nat) : List Nat :=
  let on := s.reg (Reg.SVC_CLU_MAP_CLU_INSERVICE d)
  (List.range 26).filter (bit on)

/-- Physical cores in service in a cluster, by logical number (SVC_CORE_MAP). -/
def Mdl.logCores (s : Mdl) (d c : Nat) : List Nat :=
  let on := s.reg (Reg.SVC_CORE_MAP_CORE_INSERVICE d c)
  (List.range 9).filter (bit on)

/-- The logical number of a physical die. -/
def Mdl.logOfDie (s : Mdl) (p : Nat) : Option Nat := s.logDies.findIdx? (· == p)
/-- The logical number of a physical cluster. -/
def Mdl.logOfCluster (s : Mdl) (d c : Nat) : Option Nat := (s.logClusters d).findIdx? (· == c)

/-- Logical clusters in service on the whole module (R407). -/
def Mdl.clustersInService (s : Mdl) : Nat := s.logDies.foldl (fun a d => a + (s.logClusters d).length) 0

/-- Lanes bypassed in a core, as SEQ_CORE_STATUS shows them. -/
def Mdl.bypassed (s : Mdl) (d c k : Nat) : List Nat :=
  (if s.flag (Reg.SEQ_CORE_STATUS_BYP_A_V d c k) then [s.reg (Reg.SEQ_CORE_STATUS_BYP_A d c k)] else [])
    ++ (if s.flag (Reg.SEQ_CORE_STATUS_BYP_B_V d c k) then [s.reg (Reg.SEQ_CORE_STATUS_BYP_B d c k)] else [])

/-- Retired lanes of a core, in ascending order. -/
def SvcSt.retiredLanes (v : SvcSt) (d c k : Nat) : List Nat := (List.range 66).filter (v.retiredLane d c k)

/-- The place of logical lane 63 with these lanes bypassed, less 63: S (R172, R212). -/
def spareInUse (bypassed : List Nat) : Nat :=
  ((mapUnits 66 64 bypassed.contains).getLastD 63) - 63

/-- Physical dies that passed power-on test and are not retired (Table 3-16, error 0x09). -/
def Mdl.goodDies (s : Mdl) : List Nat :=
  (List.range 4).filter fun p => bit (s.reg Reg.SVC_DIE_MAP_DIE_PRESENT) p && !s.svc.retiredDie p

/-- Does the module serve memory only: the built-in chart, no chart, or fewer than three dies (R44, R153)? -/
def Mdl.memoryOnly (s : Mdl) : Bool :=
  s.flag Reg.CHT_STATUS_BUILTIN || s.cht.chart.isNone || decide (s.goodDies.length < 3)

/-- Does every compute program complete with Compute Degraded: a die lost without a three-die chart, memory only, or refurbishment
(R43, R44, R154, R704)? -/
def Mdl.degraded (s : Mdl) : Bool :=
  s.memoryOnly || s.logDies.any (fun p => s.svc.retiredDie p) || s.flag Reg.SVC_REFURB_ACTIVE

/-- A module in the power-loss sequence or out of service acts on nothing more. -/
def Mdl.stage (s : Mdl) : Nat := s.reg Reg.SVC_STATUS_STAGE

/-! ### Power domains -/

/-- The quadrant of a physical cluster (Table 1-13). -/
def quadrant (c : Nat) : Nat := if c ≤ 6 then 0 else if c ≤ 13 then 1 else if c ≤ 19 then 2 else 3

/-- Is a power domain on? -/
def Mdl.domainOn (s : Mdl) (n : Nat) : Bool := bit (s.reg Reg.PWR_DOMAIN_STATUS_ON) n

end Sys2Proof.Machine
end

