-- ==== Sys2Proof/Machine/ClockDrive.lean ====
section
/-! DEFINITION. The clock drive: sources, edges, Table 2-3, epoch numbers and periods (R64 to R92). What happens AT a
boundary is in Boundary.lean; here an edge that makes a boundary only says so. -/
namespace Sys2Proof.Machine

/-- TRN_STATUS.STATE encoding (Table 2-5). -/
def freeRun : Nat := 0
def acquire : Nat := 1
def locked : Nat := 2
def holdover : Nat := 3

def Mdl.drive (s : Mdl) : Nat := s.reg Reg.TRN_STATUS_STATE

/-- The source in use under TRN_CTRL.SOURCE (R68): 1 pin, 2 in-band, 3 none. Before the first chart, "automatic" is the
pin once P54 is in range. -/
def Mdl.sourceFor (s : Mdl) (sel : Nat) : Nat :=
  match sel with
  | 1 => 1
  | 2 => 2
  | 3 => 3
  | _ =>
    match s.cht.chart with
    | some c => if c.span.role = 1 then 2 else 1
    | none => if s.svc.p54 then 1 else 3

/-- Post a clock-drive event and log it (R84, Table 12-11). -/
def Mdl.driveEvent (s : Mdl) (event : Nat) : Mdl := (s.trnRecord event 0).postEvent 1 0xC1

/-- Leave LOCKED for another state: LOST_LOCK. -/
def Mdl.leaveLocked (s : Mdl) : Mdl := if s.drive = locked then s.setReg Reg.TRN_STATUS_LOST_LOCK 1 else s

/-- Run at TRN_DEFAULT_PERIOD in FREE_RUN (Table 2-3, R83). HOLDOVER_EPOCHS keeps its value: Table 2-3 clears it only where HOLDOVER ends in
LOCKED. -/
def Mdl.enterFreeRun (s : Mdl) : Mdl :=
  let s := s.leaveLocked
  let p := s.reg Reg.TRN_DEFAULT_PERIOD_DEFAULT_PERIOD
  let s := { s with trn := { s.trn with tracked := p, edges := 0, lastEdge := none, prevSmall := false, nextAdjust := 0 } }
  (s.setRegs [(Reg.TRN_STATUS_STATE, freeRun), (Reg.TRN_PERIOD_PERIOD, p)]).driveEvent 4

/-- Force ACQUIRE: the next accepted edge counts as edge 1 (Table 2-3). -/
def Mdl.enterAcquire (s : Mdl) : Mdl :=
  let was := s.drive
  let s := s.leaveLocked
  let s := { s with trn := { s.trn with edges := 0, lastEdge := none, prevSmall := false } }
  let s := s.setReg Reg.TRN_STATUS_STATE acquire
  if was = locked ∨ was = holdover then s.driveEvent 1 else s.trnRecord 1 0

/-- Act on a change of the source in use (R68, Table 2-3). -/
def Mdl.useSource (s : Mdl) (src : Nat) : Mdl :=
  if s.reg Reg.TRN_STATUS_SOURCE_USED = src then s
  else
    let s := s.setReg Reg.TRN_STATUS_SOURCE_USED src
    if src = 3 then s.enterFreeRun else s.enterAcquire

/-- When TRANSIT± edges begin to feed the clock drive: 5 ms after P54 comes within range (R68). -/
def pinFrom : Nat := 20000000

/-- At a time of the time line: with SOURCE "automatic" and no chart yet, the pin is the source from 5 ms on. The drive stays in FREE_RUN, in which
the first edge counts as edge 1 (R68, R80). -/
def Mdl.sourceTime (s : Mdl) (t : Nat) : Mdl :=
  if s.reg Reg.TRN_STATUS_SOURCE_USED = 3 ∧ s.reg Reg.TRN_CTRL_SOURCE = 0 ∧ s.cht.chart.isNone ∧ s.svc.started ∧ pinFrom ≤ t then
    s.setReg Reg.TRN_STATUS_SOURCE_USED 1
  else s

/-- Length of the current epoch in units of 0.25 ns, at least one. -/
def Mdl.epochLen (s : Mdl) : Nat := max 1 (4 * s.reg Reg.TRN_PERIOD_PERIOD)

/-- The phase at a time of the current epoch (R64, R65). -/
def Mdl.phaseAt (s : Mdl) (t : Nat) : Nat := min 65535 ((t - s.trn.start) * 65536 / s.epochLen)

/-- The signed phase error of an arrival phase. -/
def phaseError (p : Nat) : Int := if p < 32768 then p else (p : Int) - 65536

/-- The phase error of an edge at a time. A message's marking edge may lie before the running epoch's start, whose boundary it then marks: its
error is negative (R73, R76). -/
def Mdl.errorAt (s : Mdl) (t : Nat) : Int :=
  if t < s.trn.start then max (-32768) (-(((s.trn.start - t) * 65536 / s.epochLen : Nat) : Int)) else phaseError (s.phaseAt t)

/-- A small error: no more than 16 phase units or 250 ns, whichever is larger (R82). -/
def Mdl.smallError (s : Mdl) (e : Int) : Bool :=
  decide (e.natAbs ≤ 16) || decide (e.natAbs * s.trn.tracked ≤ 250 * 65536)

/-- The nearest nanosecond to an interval in units of 0.25 ns. -/
def nsOf (q : Nat) : Nat := (q + 2) / 4

/-- T adjusted by `e` phase units, in whole ns, rounded down (R76; the rounding DESIGN CHOICE, assumption log entry 52). -/
def adjusted (t : Nat) (e : Int) : Nat := ((t : Int) + (t : Int) * e / 65536).toNat

/-- A soft correction for an error (R76) of an edge that marks a boundary already `passed`, or the coming one: the epoch that begins at that
boundary is lengthened or shortened. -/
def Mdl.softCorrect (s : Mdl) (e : Int) (passed : Bool) : Mdl :=
  let e' := max (-1024) (min 1024 e)
  if passed then { s with trn := { s.trn with accepted := true } }.setReg Reg.TRN_PERIOD_PERIOD (adjusted s.trn.tracked e')
  else { s with trn := { s.trn with nextAdjust := e', acceptedNext := true } }

/-- Does an edge at a time with an error mark the running epoch's own boundary? -/
def Mdl.marksPassed (s : Mdl) (t : Nat) (e : Int) : Bool := decide (0 ≤ e) || decide (t < s.trn.start)

/-- What an edge does to the boundaries. -/
inductive EdgeAct where
  /-- Nothing more: the edge is done with. -/
  | done
  /-- The edge ends the epoch: a boundary falls at it (R78). -/
  | boundary
  deriving DecidableEq, Repr

/-- A hard alignment at time `t` (R78, R79): at phase 4,096 or later the edge is a boundary, before it the phase count
restarts. -/
def Mdl.hardAlign (s : Mdl) (t : Nat) : Mdl × EdgeAct :=
  let p := s.phaseAt t
  let s := s.setReg Reg.TRN_STATUS_EPOCH_RESHAPED 1
  if 4096 ≤ p then (s, .boundary)
  else ({ s with trn := { s.trn with start := t, accepted := true } }.setReg Reg.TRN_PHASE_PHASE 0, .done)

/-- Accept an edge (Table 2-3): `t` its time, `e` its error, `iv` its interval, none for edge 1. In ACQUIRE the soft correction uses the T that R77
has just set (DESIGN CHOICE, assumption log entry 52). -/
def Mdl.acceptEdge (s : Mdl) (t : Nat) (e : Int) (iv : Option Nat) : Mdl × EdgeAct :=
  let small := s.smallError e
  let passed := s.marksPassed t e
  let s := (s.count Reg.TRN_COUNT_EDGES).setReg Reg.TRN_PHASE_LAST_ERROR (e % 65536).toNat
  let note := fun (s : Mdl) (n : Nat) => { s with trn := { s.trn with lastEdge := some t, edges := n, prevSmall := small } }
  match iv with
  | none =>
    let was := s.drive
    let s := (note s 1).setReg Reg.TRN_STATUS_STATE acquire
    let s := if was = acquire then s else s.trnRecord 1 0
    s.hardAlign t
  | some iv =>
    if s.drive = freeRun then
      ((note s 1).setReg Reg.TRN_STATUS_STATE acquire |>.trnRecord 1 0).hardAlign t
    else if s.drive = acquire then
      let n := s.trn.edges + 1
      let prev := s.trn.prevSmall
      if n = 2 ∨ 4096 < e.natAbs then
        let s := note s n
        ({ s with trn := { s.trn with tracked := nsOf iv } }.setReg Reg.TRN_PERIOD_PERIOD (nsOf iv)).hardAlign t
      else
        let s := note s n
        let s := { s with trn := { s.trn with tracked := nsOf iv } }.softCorrect e passed
        if small && prev then ((s.setReg Reg.TRN_STATUS_STATE locked).trnRecord 2 0, .done) else (s, .done)
    else if s.drive = locked then
      let s := (note s 0).softCorrect e passed
      ({ s with trn := { s.trn with tracked := (28 * s.trn.tracked + iv + 16) / 32 } }, .done)
    else
      let s := (note s 0).softCorrect e passed
      ((s.setRegs [(Reg.TRN_STATUS_STATE, locked), (Reg.TRN_STATUS_HOLDOVER_EPOCHS, 0)]).trnRecord 2 0, .done)

/-- Count a stray edge (R80); in HOLDOVER the second of two consecutive stray epochs re-acquires (Table 2-3). -/
def Mdl.strayEdge (s : Mdl) (t : Nat) : Mdl × EdgeAct :=
  let s := s.count Reg.TRN_COUNT_STRAY
  if s.drive = holdover ∧ s.trn.strayPrev ∧ ¬ s.trn.strayNow ∧ ¬ s.trn.accepted then
    let s := { s with trn := { s.trn with strayNow := true, lastEdge := some t, edges := 1, prevSmall := false } }
    ((s.setReg Reg.TRN_STATUS_STATE acquire).driveEvent 1).hardAlign t
  else ({ s with trn := { s.trn with strayNow := true } }, .done)

/-- The accepted interval range, in units of 0.25 ns (Table 2-1). -/
def intervalOk (iv : Nat) : Bool := decide (4 * 240000 ≤ iv) && decide (iv ≤ 4 * 105000000)

/-- Is a marking edge accepted (R80)? -/
def Mdl.edgeOk (s : Mdl) (e : Int) (iv : Option Nat) : Bool :=
  match iv with
  | none => true
  | some iv => intervalOk iv && (s.drive == freeRun || s.drive == acquire || decide (e.natAbs ≤ 4096))

/-- A marking edge at time `t` of either source: accepted or stray (R80). -/
def Mdl.markingEdge (s : Mdl) (t : Nat) : Mdl × EdgeAct :=
  let e := s.errorAt t
  let iv := s.trn.lastEdge.map (t - ·)
  if s.edgeOk e iv then s.acceptEdge t e iv else s.strayEdge t

/-- TRANSIT± input: does a pulse pass the filter (R70)? A pulse of 50 ns up to 100 ns takes a free value. -/
def Mdl.filter (s : Mdl) (widthNs : Nat) : Bool × Mdl :=
  if widthNs < 50 then (false, s)
  else if widthNs < 100 then
    let r := s.fresh 1
    (r.1 == 1, r.2)
  else (true, s)

/-- A write of a period out of range is ignored and sets PERIOD_REFUSED (R89); 0 announces nothing in TRN_NEXT_PERIOD. -/
def periodOk (p : Nat) : Bool := decide (250000 ≤ p) && decide (p ≤ 100000000)

/-- TRN_EPOCH_SET (R90). -/
def Mdl.epochSet (s : Mdl) (v : Nat) : Mdl :=
  let v := v % 2 ^ 48
  if s.reg Reg.TRN_STATUS_SOURCE_USED = 2 ∨ v ≤ s.epoch then (s.setReg Reg.TRN_STATUS_EPOCH_REFUSED 1).trnRecord 7 0
  else
    let s := { s with trn := { s.trn with nextNumber := some v } }
    if s.epoch + 1 < v then (s.setReg Reg.TRN_STATUS_EPOCH_STEP 1).trnRecord 6 0 else s

/-- TRN_DEFAULT_PERIOD takes a value; in FREE_RUN it is the period of the epochs to come (Table 2-3). -/
def Mdl.defaultPeriod (s : Mdl) (v : Nat) : Mdl :=
  let s : Mdl := if s.drive = freeRun then { s with trn := { s.trn with tracked := v } } else s
  s.setReg Reg.TRN_DEFAULT_PERIOD_DEFAULT_PERIOD v

/-- TRN_DEFAULT_PERIOD or TRN_NEXT_PERIOD (R89, Table 2-12): with the in-band source, host software announces nothing. -/
def Mdl.periodWrite (s : Mdl) (next : Bool) (v : Nat) : Mdl :=
  let v := v % 2 ^ 32
  if !periodOk v && !(next && v == 0) then s.setReg Reg.TRN_STATUS_PERIOD_REFUSED 1
  else if !next then s.defaultPeriod v
  else if s.reg Reg.TRN_STATUS_SOURCE_USED = 2 then s
  else s.setReg Reg.TRN_NEXT_PERIOD_NEXT_PERIOD v

/-- TRN_CTRL.SOURCE (R68). -/
def Mdl.sourceSelect (s : Mdl) (v : Nat) : Mdl :=
  let v := v % 4
  (s.setReg Reg.TRN_CTRL_SOURCE v).useSource (s.sourceFor v)

/-- TRN_CTRL.REACQUIRE (Table 2-3). -/
def Mdl.reacquire (s : Mdl) : Mdl := s.enterAcquire

/-- LOCKED reaches phase 4,096 with no accepted edge in the epoch (Table 2-3). -/
def Mdl.holdoverEntry (s : Mdl) : Mdl :=
  if s.drive = locked ∧ ¬ s.trn.accepted then
    (s.setRegs [(Reg.TRN_STATUS_LOST_LOCK, 1), (Reg.TRN_STATUS_STATE, holdover), (Reg.TRN_STATUS_HOLDOVER_EPOCHS, 1),
      (Reg.TRN_PERIOD_PERIOD, s.trn.tracked)]).driveEvent 3
  else s

/-- HOLDOVER_EPOCHS has reached 64 (R83). -/
def Mdl.holdoverExpiry (s : Mdl) : Mdl :=
  if s.drive = holdover ∧ 64 ≤ s.reg Reg.TRN_STATUS_HOLDOVER_EPOCHS then s.enterFreeRun else s

/-- ACQUIRE has seen no accepted edge for two periods (Table 2-3): `t` is the time now. With no edge yet the command itself says that
the two periods since ACQUIRE was entered are over. -/
def Mdl.acquireNoEdge (s : Mdl) (t : Nat) : Mdl :=
  let p := if s.trn.edges < 2 then s.reg Reg.TRN_DEFAULT_PERIOD_DEFAULT_PERIOD else s.trn.tracked
  let past : Bool := match s.trn.lastEdge with
    | some l => decide (l + 8 * p ≤ t)
    | none => true
  if s.drive = acquire ∧ past then s.enterFreeRun else s

/-- The eighth accepted edge has passed without lock (Table 2-3). -/
def Mdl.acqTimeout (s : Mdl) : Mdl :=
  if s.drive = acquire ∧ 8 ≤ s.trn.edges then
    let s := s.setReg Reg.TRN_STATUS_ACQ_TIMEOUT 1
    { s with trn := { s.trn with edges := 0, lastEdge := none, prevSmall := false } }.driveEvent 5
  else s

/-! ### In-band messages (R71 to R75, R91, R92) -/

/-- The number the boundary that an edge marks carries or will carry (R91): one that the edge makes, or one `passed` or coming. An edge before the
running epoch's start marks a boundary already passed, whatever the sign of its error (DEDUCED, assumption log entry 52). -/
def Mdl.expectedNumber (s : Mdl) (hardBoundary passed : Bool) : Nat := if passed && !hardBoundary then s.epoch else s.epoch + 1

/-- Would an accepted marking edge at `t` end the epoch (R78)? -/
def Mdl.edgeEndsEpoch (s : Mdl) (t : Nat) : Bool :=
  let e := s.errorAt t
  let hard := s.drive == freeRun || (s.drive == acquire && (s.trn.lastEdge.isNone || s.trn.edges + 1 == 2 || decide (4096 < e.natAbs)))
  hard && decide (4096 ≤ s.phaseAt t)

/-- Take an accepted message's EPOCH (R91): the number of the coming boundary, and EPOCH_STEP. -/
def Mdl.takeNumber (s : Mdl) (expected n : Nat) (passed : Bool) : Mdl :=
  if expected < n then
    let s := { s with trn := { s.trn with nextNumber := some (if passed then n + 1 else n) } }
    (s.setReg Reg.TRN_STATUS_EPOCH_STEP 1).trnRecord 6 0
  else s

/-- An in-band module loads the announced period from the first message that announces a change (R87). -/
def Mdl.loadNext (s : Mdl) (m : TransitMsg) : Mdl :=
  let a := some (m.nextPeriod, m.nextEpoch)
  if m.nextPeriod ≠ 0 ∧ s.trn.announced ≠ a then
    ({ s with trn := { s.trn with announced := a } } : Mdl).setRegs
      [(Reg.TRN_NEXT_PERIOD_NEXT_PERIOD, m.nextPeriod), (Reg.TRN_NEXT_EPOCH_NEXT_EPOCH, m.nextEpoch)]
  else s

/-- A received transit message as a marking edge of the in-band source (R73, R91, R92): `t` is its arrival time. A refused one is counted and
does nothing more: with such messages alone the drive passes through HOLDOVER to FREE_RUN (R92). -/
def Mdl.inbandEdge (s : Mdl) (t : Nat) (m : TransitMsg) : Mdl × EdgeAct :=
  if s.reg Reg.TRN_STATUS_SOURCE_USED ≠ 2 then (s, .done)
  else if s.trn.messages.contains m.epoch then (s, .done)
  else
    let t := t - m.pathDelay
    let e := s.errorAt t
    let passed := s.marksPassed t e
    let ends := s.edgeEndsEpoch t
    let expected := s.expectedNumber ends passed
    if m.epoch < expected then (((s.setReg Reg.TRN_STATUS_EPOCH_REFUSED 1).trnRecord 7 0).count Reg.TRN_COUNT_STRAY, .done)
    else
      let iv := s.trn.lastEdge.map (t - ·)
      if s.edgeOk e iv then
        let s := { s with trn := { s.trn with messages := m.epoch :: s.trn.messages } }
        let s := s.setRegs [(Reg.TRN_INBAND_SRC_MODULE, m.srcModule), (Reg.TRN_INBAND_HOPS, m.hops),
          (Reg.TRN_INBAND_PATH_DELAY, m.pathDelay)]
        let s := (s.takeNumber expected m.epoch (!ends && passed)).loadNext m
        s.acceptEdge t e iv
      else s.strayEdge t

/-- The message this module forwards (R72): HOPS one greater, PATH_DELAY raised by the link's delay and the module's own
forwarding time, a free value. -/
def Mdl.forwarded (s : Mdl) (m : TransitMsg) (linkDelay : Nat) : TransitMsg × Mdl :=
  let r := s.fresh 32
  ({ m with hops := m.hops + 1, pathDelay := (m.pathDelay + linkDelay + r.1) % 2 ^ 32 }, r.2)

/-- The transit message of this module's boundary (R71, R87). -/
def Mdl.transitMessage (s : Mdl) (module : Nat) : TransitMsg :=
  { epoch := s.epoch, srcModule := module, hops := 0, state := s.drive, pathDelay := 0, period := s.trn.tracked
    nextPeriod := s.reg Reg.TRN_NEXT_PERIOD_NEXT_PERIOD
    nextEpoch := s.reg Reg.TRN_NEXT_EPOCH_NEXT_EPOCH }

/-- Clock-drive part of a boundary at time `t` (R66 steps 1 and 2, R67, R86, Table 2-3 rows of HOLDOVER). -/
def Mdl.driveBoundary (s : Mdl) (t : Nat) : Mdl :=
  let n := (s.trn.nextNumber.getD (s.epoch + 1)) % 2 ^ 48
  let noEdge := !s.trn.accepted && !s.trn.acceptedNext
  let s := s.setReg Reg.TRN_EPOCH_EPOCH n
  let np := s.reg Reg.TRN_NEXT_PERIOD_NEXT_PERIOD
  let due := np ≠ 0 ∧ n = s.reg Reg.TRN_NEXT_EPOCH_NEXT_EPOCH
  let s := if due then s.setReg Reg.TRN_NEXT_PERIOD_NEXT_PERIOD 0 else s
  let tracked := if due then np else s.trn.tracked
  let adj := s.trn.nextAdjust
  let s := { s with trn := { s.trn with
    start := t, tracked := tracked, nextAdjust := 0, accepted := s.trn.acceptedNext, acceptedNext := false
    strayPrev := s.trn.strayNow && noEdge, strayNow := false, nextNumber := none } }
  let s := s.setRegs [(Reg.TRN_PERIOD_PERIOD, adjusted tracked adj), (Reg.TRN_PHASE_PHASE, 0)]
  if s.drive = holdover ∧ noEdge then s.setReg Reg.TRN_STATUS_HOLDOVER_EPOCHS (min 64 (s.reg Reg.TRN_STATUS_HOLDOVER_EPOCHS + 1)) else s

end Sys2Proof.Machine
end

