-- ==== Sys2Proof/Machine/EphemerisTable.lean ====
section
/-! DEFINITION. Ephemeris entries and the checks of a table of them (Tables 2-15, 2-16, 2-18). -/
namespace Sys2Proof.Machine

/-- Fields of an Ephemeris entry (Table 2-15). -/
def Eph.startOf (e : Nat) : Nat := bits e 0 16
def Eph.width (e : Nat) : Nat := bits e 16 16
def Eph.cycEpoch (e : Nat) : Nat := bits e 32 6
def Eph.every (e : Nat) : Bool := bit e 38
def Eph.cls (e : Nat) : Nat := bits e 40 8
def Eph.target (e : Nat) : Nat := bits e 48 16

/-- The window's end, one past its last phase (R94). -/
def Eph.endOf (e : Nat) : Nat := Eph.startOf e + Eph.width e

/-- A target in range for its class (Table 2-16). -/
def Eph.targetOk (cls t : Nat) : Bool :=
  match cls with
  | 1 | 2 => decide (t % 16 ≤ 8) && t / 256 == 0
  | 3 => decide (t ≤ 8)
  | 4 =>
    match t / 4096 with
    | 0 => decide (t % 4096 ≤ 8)
    | 1 | 2 => decide (t % 4096 ≤ 3)
    | _ => false
  | 5 => decide (t < 16)
  | 6 => decide (t < 512)
  | 7 => decide (t < 8)
  | _ => false

/-- ARM_ERR 0x1 for one entry (Table 2-18, R708, R709). -/
def Eph.entryBad (len e : Nat) : Bool :=
  bit e 39 ||
  (Eph.cls e != 0 &&
    (decide (7 < Eph.cls e) || !Eph.targetOk (Eph.cls e) (Eph.target e) || decide (65536 < Eph.endOf e)
      || (!Eph.every e && decide (len ≤ Eph.cycEpoch e))))

/-- The index of the first bad entry. -/
def Eph.firstBad (len : Nat) : Nat → List Nat → Option Nat
  | _, [] => none
  | i, e :: t => if Eph.entryBad len e then some i else Eph.firstBad len (i + 1) t

/-- Is the entry a used window of non-zero width of this class and target? -/
def Eph.isWindow (cls target e : Nat) : Bool :=
  Eph.cls e == cls && Eph.target e == target && decide (0 < Eph.width e)

/-- The first die group, as 16 slot + group, of the listed slots without both a program and an erase window (ARM_ERR 0x4). -/
def Eph.noWindow (slots : List Nat) (es : List Nat) : Option Nat :=
  (slots.flatMap fun s => (List.range 16).map fun g => 16 * s + g).find? fun sg =>
    let target := sg / 16 + 16 * (sg % 16)
    !(es.any (Eph.isWindow 1 target) && es.any (Eph.isWindow 2 target))

/-- Can two entries be open in one epoch? -/
def Eph.sameEpoch (a b : Nat) : Bool := Eph.every a || Eph.every b || Eph.cycEpoch a == Eph.cycEpoch b

/-- Do two flash entries open two die groups of one slot at one phase (R112)? -/
def Eph.clash (a b : Nat) : Bool :=
  let flash := fun e => Eph.cls e == 1 || Eph.cls e == 2
  flash a && flash b && bits (Eph.target a) 0 4 == bits (Eph.target b) 0 4
    && bits (Eph.target a) 4 4 != bits (Eph.target b) 4 4
    && decide (0 < Eph.width a) && decide (0 < Eph.width b) && Eph.sameEpoch a b
    && decide (Eph.startOf a < Eph.endOf b) && decide (Eph.startOf b < Eph.endOf a)

/-- R112 over a table of entries. -/
def Eph.overlap (es : List Nat) : Bool := es.any fun a => es.any (Eph.clash a)

/-- The checks of a table in the order 0x1, 0x2, 0x4 (R107, R128): the error code and BAD_ENTRY. -/
def Eph.check (slots : List Nat) (len : Nat) (es : List Nat) : Option (Nat × Nat) :=
  match Eph.firstBad len 0 es with
  | some i => some (1, i)
  | none =>
    if len < 1 ∨ 64 < len then some (2, 0)
    else (Eph.noWindow slots es).map fun sg => (4, sg)

/-- An entry of the given fields. -/
def Eph.make (start width cyc : Nat) (every : Bool) (cls target : Nat) : Nat :=
  start + width * 2 ^ 16 + cyc * 2 ^ 32 + b2n every * 2 ^ 38 + cls * 2 ^ 40 + target * 2 ^ 48

/-- The built-in chart's Ephemeris: four epochs of four windows of 16,384 units, one die group each in every slot, and a GC
entry for each slot in the second half of every epoch (R153). -/
def Eph.builtin : List Nat :=
  ((List.range 16).flatMap fun g => (List.range 9).flatMap fun s =>
    [Eph.make (16384 * (g % 4)) 16384 (g / 4) false 1 (s + 16 * g),
     Eph.make (16384 * (g % 4)) 16384 (g / 4) false 2 (s + 16 * g)])
  ++ (List.range 9).map fun s => Eph.make 32768 32768 0 true 3 s

/-- A bank's 1,024 entries. -/
def Eph.entries (bank : Table Nat) : List Nat := (List.range 1024).map (Table.get 0 bank)

/-- A bank holding the listed entries from index 0. -/
def Eph.fill : Nat → List Nat → Table Nat
  | _, [] => []
  | i, e :: t => if e = 0 then Eph.fill (i + 1) t else (i, e) :: Eph.fill (i + 1) t

end Sys2Proof.Machine
end

