-- ==== Sys2Proof/Machine/Signature.lean ====
section
/-! DEFINITION. ECDSA over P-384, the signature the spec names (R115, R116, R141, R684, R700). The spec takes the curve and the
verification from FIPS 186 (PRESUMED, assumption log entry 49). -/
namespace Sys2Proof.Machine

/-- The prime of the curve. -/
def curvePrime : Nat := 2 ^ 384 - 2 ^ 128 - 2 ^ 96 + 2 ^ 32 - 1

/-- The order of the base point. -/
def curveOrder : Nat := 2 ^ 384 - 0x389CB27E0BC8D220A7E5F24DB74F58851313E695333AD68D

/-- The constant term of the curve `y² = x³ - 3x + b`. -/
def curveB : Nat := 0xB3312FA7E23EE7E4988E056BE3F82D19181D9C6EFE8141120314088F5013875AC656398D8A2ED19D2A85C8EDD3EC2AEF

/-- A point of the curve; none is the point at infinity. -/
abbrev CurvePoint := Option (Nat × Nat)

/-- The base point. -/
def curveBase : CurvePoint := some
  (0xAA87CA22BE8B05378EB1C71EF320AD746E1D3B628BA79B9859F741E082542A385502F25DBF55296C3A545E3872760AB7,
    0x3617DE4A96262C6F5D9E98BF9292DC29F8F41DBD289A147CE9DA3113B5F0B8C00A60B1CE1D7E819D7A431D7C90EA0E5F)

/-- `a ^ e` modulo `m`, over the lowest `k` bits of `e`. -/
def powMod (m : Nat) : Nat → Nat → Nat → Nat
  | 0, _, _ => 1
  | k + 1, a, e => (if bit e 0 then a else 1) * powMod m k (a * a % m) (e / 2) % m

/-- The inverse of `a` modulo a prime below 2^384, by Fermat. -/
def inverseMod (m a : Nat) : Nat := powMod m 384 (a % m) (m - 2)

/-- The point where the line of slope `l` through `a` and a point with first coordinate `x` meets the curve again, mirrored. -/
def thirdPoint (l : Nat) (a : Nat × Nat) (x : Nat) : CurvePoint :=
  let r := (l * l + 2 * curvePrime - a.1 - x) % curvePrime
  some (r, (l * (a.1 + curvePrime - r) + curvePrime - a.2) % curvePrime)

/-- The sum of two points. -/
def addPoints : CurvePoint → CurvePoint → CurvePoint
  | none, q => q
  | some a, none => some a
  | some a, some b =>
    if a.1 ≠ b.1 then
      thirdPoint ((b.2 + curvePrime - a.2) * inverseMod curvePrime (b.1 + curvePrime - a.1) % curvePrime) a b.1
    else if a.2 = b.2 ∧ a.2 ≠ 0 then
      thirdPoint ((3 * a.1 * a.1 + curvePrime - 3) * inverseMod curvePrime (2 * a.2) % curvePrime) a a.1
    else none

/-- `n` times a point, over the lowest `k` bits of `n`. -/
def timesPoint : Nat → Nat → CurvePoint → CurvePoint
  | 0, _, _ => none
  | k + 1, n, p => addPoints (if bit n 0 then p else none) (timesPoint k (n / 2) (addPoints p p))

/-- A public key of the curve: X in the low 384 bits, Y above (R115); it must lie on the curve. -/
def keyPoint (key : Nat) : CurvePoint :=
  let x := key % 2 ^ 384
  let y := key / 2 ^ 384
  if x < curvePrime ∧ y < curvePrime ∧ y * y % curvePrime = (x * x * x + 3 * (curvePrime - x) + curveB) % curvePrime then some (x, y)
  else none

/-- The signature `rs` (r in the low 384 bits, s above, R115) of the message with this SHA-384 digest verifies under the key. -/
def signatureOk (key digest rs : Nat) : Bool :=
  let r := rs % 2 ^ 384
  let t := rs / 2 ^ 384
  match keyPoint key with
  | none => false
  | some q =>
    let w := inverseMod curveOrder t
    decide (0 < r ∧ r < curveOrder ∧ 0 < t ∧ t < curveOrder)
      && match addPoints (timesPoint 384 (digest * w % curveOrder) curveBase) (timesPoint 384 (r * w % curveOrder) (some q)) with
        | none => false
        | some p => p.1 % curveOrder == r

end Sys2Proof.Machine
end

