-- ==== Sys2Proof/Machine/ChartParse.lean ====
section
/-! DEFINITION. Reading and verifying a chart image (R114 to R133, R143, R710). -/
namespace Sys2Proof.Machine

/-- A failed verification: ERR, ERR_FRAME, and CHT_ERR_DETAIL's OFFSET and SUBCODE (Tables 3-16, 3-19, 3-20). -/
structure ChartErr where
  err : Nat
  frame : Nat
  offset : Nat
  sub : Nat
  deriving DecidableEq, Repr

/-- What verification reads of the module: option record, steppings, usable physical dies, slots in service, slots with
a powered cartridge, and the root key. -/
structure ChartEnv where
  opt : OptRec
  steppings : List Nat
  dies : List Nat
  slots : List Nat
  powered : List Nat
  vendorKey : Nat

/-- Bytes `o` to `o + n - 1` of an image. -/
def imgBytes (rd : Nat → Byte) : Nat → Nat → List Byte
  | _, 0 => []
  | o, n + 1 => rd o :: imgBytes rd (o + 1) n

/-- Are the `n` bytes from `o` zero? -/
def allZero (rd : Nat → Byte) : Nat → Nat → Bool
  | _, 0 => true
  | o, n + 1 => rd o == 0#8 && allZero rd (o + 1) n

/-- The first check of a list that fails. -/
def firstFail : List (Bool × ChartErr) → Option ChartErr
  | [] => none
  | (ok, e) :: t => if ok then firstFail t else some e

/-- Step 1: the header (Table 3-1). -/
def Chart.headerErr (rd : Nat → Byte) : Option ChartErr :=
  let h := fun o => ChartErr.mk 1 0 o 0
  let len := rdLe rd 8 4
  firstFail [
    (rdLe rd 0 4 == 0x48435847, h 0), (rdLe rd 4 2 == 1, h 4), (rdLe rd 6 2 == 0x100, h 6),
    (len % 16 == 0 && decide (0x350 ≤ len) && decide (len ≤ 0x4000000), h 8),
    (decide (2 ≤ rdLe rd 0xC 2), h 0xC),
    (rdLe rd 0xE 1 == 3 || rdLe rd 0xE 1 == 4, h 0xE), (allZero rd 0xF 1, h 0xF),
    (allZero rd 0x28 8, h 0x28), (allZero rd 0x60 0xA0, h 0x60),
    (allZero rd 0x16C 4, h 0x16C), (allZero rd 0x230 0xD0, h 0x230)]

/-- Steps 2 and 3: keys, signatures and security version (R115, R116, R126 of the option area). -/
def Chart.keyErr (env : ChartEnv) (rd : Nat → Byte) : Option ChartErr :=
  let pub := imgBytes rd 0x108 96
  firstFail [
    (signatureOk env.vendorKey (sha384 (imgBytes rd 0x100 0x70)) (rdLe rd 0x170 96), ⟨4, 0, 0x170, 0⟩),
    (bit (rdLe rd 0x168 4) 0, ⟨4, 0, 0x168, 0⟩),
    (signatureOk (leNat pub) (sha384 (imgBytes rd 0 0x100)) (rdLe rd 0x1D0 96), ⟨5, 0, 0x1D0, 0⟩),
    (env.opt.ownerState != 1 || sha384 pub == env.opt.ownerKeyHash, ⟨6, 0, 0x108, 0⟩),
    (decide (env.opt.minSecurity ≤ rdLe rd 0x1C 4), ⟨7, 0, 0x1C, 0⟩),
    (env.steppings.all (fun s => (imgBytes rd 0x20 4).any (fun b => b.toNat == s && s != 255)), ⟨8, 0, 0x20, 0⟩)]

/-- A frame as found: index, header fields and the offset of its payload. -/
structure Frame where
  index : Nat
  type : Nat
  scope : Scope
  len : Nat
  at_ : Nat
  deriving DecidableEq, Repr

/-- The scopes a type may take (Table 3-4): the highest SCOPE value. -/
def Frame.maxScope (t : Nat) : Nat := if t = 2 ∨ t = 3 then 2 else 0

/-- Total bytes of the sets of a PLATES payload, from offset `o`. -/
def platesLen (rd : Nat → Byte) : Nat → Nat → Nat
  | 0, _ => 0
  | n + 1, o => let k := 4 + 4 * rdLe rd (o + 1) 1; k + platesLen rd n (o + k)

/-- LENGTH fits the frame's type (R710). -/
def Frame.lenOk (rd : Nat → Byte) (f : Frame) : Bool :=
  match f.type with
  | 1 => decide (8 ≤ f.len) && f.len % 8 == 0 && decide (8 + 8 * rdLe rd f.at_ 2 ≤ f.len)
  | 2 => f.len == 36
  | 3 => f.len == 4 + platesLen rd (rdLe rd f.at_ 1) (f.at_ + 4)
  | 4 => f.len == 4 + 8 * rdLe rd f.at_ 4
  | 5 => f.len == 0x2020
  | 6 => f.len == 16 + 8 * rdLe rd (f.at_ + 8) 2
  | 7 => f.len == 8 + 12 * rdLe rd (f.at_ + 2) 2
  | 8 => f.len == 4
  | 9 => f.len == 4 + 4 * rdLe rd f.at_ 4
  | _ => false

/-- A frame's padded length, header included. -/
def Frame.span (len : Nat) : Nat := ceilDiv (16 + len) 16 * 16

/-- The checks of one frame at offset `o` (R117 to R119, R143 step 5). -/
def Frame.err (rd : Nat → Byte) (imageLen o idx : Nat) (before : List Frame) (f : Frame) : Option ChartErr :=
  let e := fun off => ChartErr.mk 2 idx (o + off) 0
  firstFail [
    (decide (1 ≤ f.type) && decide (f.type ≤ 9), e 0),
    (decide (f.scope.level ≤ Frame.maxScope f.type), e 2),
    (f.scope.die == 0 || f.scope.level != 0, e 4),
    (f.scope.cluster == 0 || f.scope.level == 2, e 5),
    (f.len != 0, e 8),
    (decide (o + 16 + f.len ≤ imageLen), e 8),
    (Frame.lenOk rd f, e 8),
    (decide (o + Frame.span f.len ≤ imageLen), e 8),
    (crc32 (imgBytes rd f.at_ f.len) == rdLe rd (o + 12) 4, e 12),
    (allZero rd (f.at_ + f.len) (Frame.span f.len - 16 - f.len), e (16 + f.len)),
    ((f.type == 1) == (idx == 0), e 0),
    (!before.any (fun g => g.type == f.type && g.scope == f.scope), e 0)]

/-- Read the frames in image order, with at most `n` of them; stop at the first failure. -/
def Frame.readAll (rd : Nat → Byte) (imageLen : Nat) : Nat → Nat → Nat → List Frame → List Frame × Option ChartErr
  | 0, _, _, acc => (acc, none)
  | n + 1, o, idx, acc =>
    if imageLen ≤ o then (acc, none)
    else
      let f : Frame := ⟨idx, rdLe rd o 2, ⟨rdLe rd (o + 2) 1, rdLe rd (o + 4) 1, rdLe rd (o + 5) 1⟩, rdLe rd (o + 8) 4, o + 16⟩
      match Frame.err rd imageLen o idx acc f with
      | some e => (acc, some e)
      | none => Frame.readAll rd imageLen n (o + Frame.span f.len) (idx + 1) (acc ++ [f])

/-- Step 5 after FRAMES_HASH: every frame, FRAME_COUNT, and a missing EPHEMERIS (R143). -/
def Frame.listErr (rd : Nat → Byte) (r : List Frame × Option ChartErr) : Option ChartErr :=
  match r.2 with
  | some e => some e
  | none =>
    firstFail [
      (r.1.length == rdLe rd 0xC 2, ⟨2, r.1.length, 0xC, 0⟩),
      (r.1.any (fun f => f.type == 6), ⟨2, 0xFFFF, 0x300, 0⟩)]

/-! ### Payloads -/

def Chart.readLayers (rd : Nat → Byte) : Nat → Nat → List LayerEnt
  | 0, _ => []
  | n + 1, o =>
    ⟨rdLe rd o 2, rdLe rd (o + 2) 2, rdLe rd (o + 4) 2, rdLe rd (o + 6) 1, rdLe rd (o + 7) 1⟩ :: Chart.readLayers rd n (o + 8)

def Chart.readRoles (rd : Nat → Byte) : Nat → Nat → List (Nat × Nat)
  | 0, _ => []
  | n + 1, o => (rdLe rd o 1, rdLe rd (o + 1) 1) :: Chart.readRoles rd n (o + 8)

def Chart.readPersonality (rd : Nat → Byte) (o : Nat) : Personality :=
  { ramp := rdLe rd o 1, eye := bit (rdLe rd (o + 1) 1) 0
    cores := (List.range 8).map fun k => let v := rdLe rd (o + 4 + 4 * k) 4; (bits v 0 4, bits v 4 2) }

def Chart.readParts (rd : Nat → Byte) : Nat → Nat → List Part
  | 0, _ => []
  | n + 1, o => let v := rdLe rd o 4; ⟨bits v 0 9, bits v 9 9, bits v 18 4⟩ :: Chart.readParts rd n (o + 4)

def Chart.readSets (rd : Nat → Byte) : Nat → Nat → List PlateSet
  | 0, _ => []
  | n + 1, o =>
    let k := rdLe rd (o + 1) 1
    ⟨rdLe rd o 1, Chart.readParts rd k (o + 4)⟩ :: Chart.readSets rd n (o + 4 + 4 * k)

def Chart.readRoutes (rd : Nat → Byte) : Nat → Nat → List RouteEnt
  | 0, _ => []
  | n + 1, o =>
    ⟨rdLe rd o 1, rdLe rd (o + 1) 1, rdLe rd (o + 2) 1, rdLe rd (o + 3) 1, rdLe rd (o + 4) 1, rdLe rd (o + 5) 1,
      rdLe rd (o + 6) 1⟩ :: Chart.readRoutes rd n (o + 8)

/-- The non-zero entries of a route table, by destination. -/
def Chart.readRouteTable (rd : Nat → Byte) : Nat → Nat → Nat → Table Nat
  | 0, _, _ => []
  | n + 1, m, o =>
    let v := rdLe rd o 2
    if v = 0 then Chart.readRouteTable rd n (m + 1) (o + 2) else (m, v) :: Chart.readRouteTable rd n (m + 1) (o + 2)

def Chart.readSpan (rd : Nat → Byte) (o : Nat) : SpanCfg :=
  { module := rdLe rd o 2 % 4096, role := rdLe rd (o + 2) 1, linkEnable := rdLe rd (o + 3) 1
    master := rdLe rd (o + 4) 2 % 4096, standby := rdLe rd (o + 6) 2 % 4096, spanSize := rdLe rd (o + 8) 2
    transitFwd := rdLe rd (o + 0xA) 1, twin := bit (rdLe rd (o + 0xB) 1) 0, partner := rdLe rd (o + 0xC) 2 % 4096
    credits := (imgBytes rd (o + 0x10) 8).map (·.toNat), routes := Chart.readRouteTable rd 4096 0 (o + 0x20) }

def Chart.readEntries (rd : Nat → Byte) : Nat → Nat → List Nat
  | 0, _ => []
  | n + 1, o => rdLe rd o 8 :: Chart.readEntries rd n (o + 8)

def Chart.readQuotas (rd : Nat → Byte) : Nat → Nat → List Quota
  | 0, _ => []
  | n + 1, o =>
    ⟨rdLe rd o 2, rdLe rd (o + 2) 1, bit (rdLe rd (o + 3) 1) 0, rdLe rd (o + 4) 4, rdLe rd (o + 8) 4⟩
      :: Chart.readQuotas rd n (o + 12)

def Chart.readCoupled (rd : Nat → Byte) : Nat → Nat → List (Nat × Nat)
  | 0, _ => []
  | n + 1, o => let v := rdLe rd o 4; (bits v 0 16, bits v 16 1) :: Chart.readCoupled rd n (o + 4)

/-- Add one frame's payload to a chart. -/
def Chart.addFrame (rd : Nat → Byte) (c : Chart) (f : Frame) : Chart :=
  let o := f.at_
  match f.type with
  | 1 =>
    let l := rdLe rd o 2
    let dies := f.len / 8 - 1 - l
    { c with roles := Chart.readRoles rd dies (o + 8), layers := Chart.readLayers rd l (o + 8 + 8 * dies) }
  | 2 => { c with personalities := c.personalities ++ [(f.scope, Chart.readPersonality rd o)] }
  | 3 => { c with plates := c.plates ++ [(f.scope, Chart.readSets rd (rdLe rd o 1) (o + 4))] }
  | 4 => { c with routes := Chart.readRoutes rd (rdLe rd o 4) (o + 4) }
  | 5 => { c with span := Chart.readSpan rd o }
  | 6 => { c with cycleLen := rdLe rd o 1, period := rdLe rd (o + 4) 4, ephemeris := Chart.readEntries rd (rdLe rd (o + 8) 2) (o + 16) }
  | 7 => { c with ecc := rdLe rd o 1, quotas := Chart.readQuotas rd (rdLe rd (o + 2) 2) (o + 8) }
  | 8 => { c with offMask := rdLe rd o 4 }
  | _ => { c with coupled := Chart.readCoupled rd (rdLe rd o 4) (o + 4) }

/-- The chart of a header and its frames. -/
def Chart.read (rd : Nat → Byte) (fs : List Frame) : Chart :=
  fs.foldl (Chart.addFrame rd)
    { dieCount := rdLe rd 0xE 1, chartId := rdLe rd 0x10 8, version := rdLe rd 0x18 4, security := rdLe rd 0x1C 4
      headerHash := sha384 (imgBytes rd 0 0x100), roles := [], layers := [], personalities := [], plates := [], routes := []
      span := .outside, cycleLen := 1, period := 0, ephemeris := [], ecc := Chart.defaultEcc, quotas := [], offMask := 0
      coupled := [] }

/-! ### Personality and plates of a cluster (R120, R122, R124) -/

/-- The most specific entry that covers a logical cluster. -/
def Chart.mostSpecific {α : Type} (l : List (Scope × α)) (d c : Nat) : Option α :=
  let at_ := fun (lv : Nat) => (l.find? fun p => p.1.level == lv && (lv == 0 || p.1.die == d) && (decide (lv < 2) || p.1.cluster == c)).map (·.2)
  match at_ 2 with
  | some x => some x
  | none => match at_ 1 with
    | some x => some x
    | none => at_ 0

def Personality.default : Personality := ⟨64, false, List.replicate 8 (15, 0)⟩

/-- The PERSONALITY of a logical cluster (R120, R122). -/
def Chart.personality (ch : Chart) (d c : Nat) : Personality :=
  (Chart.mostSpecific ch.personalities d c).getD .default

/-- The default plates partitioning (Table 4-5). -/
def Part.defaults : List Part :=
  [⟨0, 16, 0⟩, ⟨16, 96, 1⟩, ⟨112, 64, 2⟩, ⟨176, 64, 3⟩, ⟨240, 64, 4⟩, ⟨304, 32, 5⟩, ⟨336, 16, 6⟩, ⟨352, 32, 7⟩]

/-- The partitions of a logical core (R120, R124). -/
def Chart.parts (ch : Chart) (d c k : Nat) : List Part :=
  match Chart.mostSpecific ch.plates d c with
  | none => Part.defaults
  | some sets => match sets.find? (fun s => bit s.mask k) with
    | some s => s.parts
    | none => Part.defaults

/-- The uses a lane mode requires (Table 4-4). -/
def requiredUses (modes : Nat) : List Nat :=
  [0] ++ (if bit modes 0 then [1, 2, 3] else []) ++ (if bit modes 1 then [5] else [])
    ++ (if bit modes 2 then [1, 6, 3] else []) ++ (if bit modes 3 then [1, 2, 3] else [])

/-- Do the partitions hold every use the modes require? -/
def Part.covers (ps : List Part) (modes : Nat) : Bool :=
  (requiredUses modes).all fun u => ps.any fun p => p.use == u

/-! ### Resource checks (R121 to R133, R352): each names the offsets of the fields that fail -/

/-- Name an offset when a check fails. -/
def must (ok : Bool) (off : Nat) : Option Nat := if ok then none else some off

/-- The lowest offset named: the first failing field (Table 3-20). -/
def lowest (l : List (Option Nat)) : Option Nat := l.foldl (fun a o => match a, o with
  | none, o => o
  | a, none => a
  | some x, some y => some (min x y)) none

/-- The first entry of an array at offset `o` whose check names a field. -/
def firstEntry {α : Type} (stride : Nat) (f : α → Option Nat) : Nat → List α → Option Nat
  | _, [] => none
  | o, x :: t => match f x with
    | some k => some (o + k)
    | none => firstEntry stride f (o + stride) t

/-- The first PART word from offset `o` that fails: reserved bits, SIZE, USE, the end at unit 384, an overlap with a part before it (R123). -/
def partsErr (rd : Nat → Byte) (base : Nat) : Nat → Nat → List Part → Option Nat
  | 0, _, _ => none
  | n + 1, o, before =>
    let v := rdLe rd (base + o) 4
    let p : Part := ⟨bits v 0 9, bits v 9 9, bits v 18 4⟩
    if decide (v < 2 ^ 22) && decide (1 ≤ p.size) && decide (p.base + p.size ≤ 384) && decide (p.use < 8)
        && before.all (fun q => decide (p.base + p.size ≤ q.base) || decide (q.base + q.size ≤ p.base)) then
      partsErr rd base n (o + 4) (p :: before)
    else some o

/-- The first field of the sets from offset `o` that fails; `used` are the cores of the sets before (R123). -/
def setsErr (rd : Nat → Byte) (base : Nat) : Nat → Nat → Nat → Option Nat
  | 0, _, _ => none
  | n + 1, o, used =>
    let mask := rdLe rd (base + o) 1
    let k := rdLe rd (base + o + 1) 1
    if Nat.land mask used ≠ 0 then some o
    else if k = 0 ∨ 8 < k then some (o + 1)
    else match partsErr rd base k (o + 4) [] with
      | some x => some x
      | none => setsErr rd base n (o + 4 + 4 * k) (Nat.lor used mask)

/-- Following PIPE_NEXT from die `d` for `n` steps returns to `d0` (R352). -/
def pipeCycles (roles : List (Nat × Nat)) (d0 : Nat) : Nat → Nat → Bool
  | 0, _ => false
  | n + 1, d =>
    match roles[d]? with
    | none => false
    | some (_, nx) => if nx = 255 then false else nx == d0 || pipeCycles roles d0 n nx

/-- A die role that may run layers. -/
def roleRuns (roles : List (Nat × Nat)) (d : Nat) : Bool :=
  match roles[d]? with
  | some (r, _) => r == 1 || r == 3
  | none => false

/-- Physical dies on the ring from `p` to `q`, `p` left out, going up (`step` 1) or down (`step` 3). -/
def ringPath (step q : Nat) : Nat → Nat → List Nat
  | 0, _ => []
  | n + 1, p => if p = q then [] else let x := (p + step) % 4; x :: ringPath step q n x

/-- The path between physical dies under DIR, on a ring whose other dies must carry logical dies (R125): the dies passed. -/
def routePath (dies : List Nat) (dir p q : Nat) : List Nat × Nat :=
  let up := ringPath 1 q 4 p
  let down := ringPath 3 q 4 p
  let ok := fun (l : List Nat) => l.dropLast.all (fun x => dies.contains x)
  if dir = 1 then (if ok up then (up, 1) else (down, 3))
  else if dir = 2 then (if ok down then (down, 3) else (up, 1))
  else if !ok up then (down, 3) else if !ok down then (up, 1)
  else if down.length < up.length then (down, 3) else (up, 1)

/-- The ring links of a path: link i joins dies i and i + 1 mod 4. -/
def pathLinks : Nat → Nat → List Nat → List Nat
  | _, _, [] => []
  | step, p, x :: t => (if step = 1 then p else x) :: pathLinks step x t

/-- The links a route crosses: ring links 0 to 3, and 4 + p for die p's hub link (R125). The nearer die of a hub is the one reached in fewest
crossings in the direction that DIR names (DESIGN CHOICE, assumption log entry 19: the rule says only "by the same rules"). -/
def RouteEnt.links (dies : List Nat) (r : RouteEnt) : List Nat :=
  match dies[r.srcDie]? with
  | none => []
  | some p =>
    if r.dstDie < 4 then
      match dies[r.dstDie]? with
      | none => []
      | some q => let w := routePath dies r.dir p q; pathLinks w.2 p w.1
    else
      let hub := r.dstDie - 16
      if p / 2 = hub then [4 + p]
      else
        let cands := dies.filter (fun q => q / 2 == hub)
        let best := cands.foldl (fun (a : Option (Nat × (List Nat × Nat))) q =>
          let w := routePath dies r.dir p q
          match a with
          | none => some (q, w)
          | some (_, w') => if w.1.length < w'.1.length then some (q, w) else a) none
        match best with
        | none => []
        | some (q, w) => pathLinks w.2 p w.1 ++ [4 + q]

/-- The first ROUTE entry whose SHARE takes a link above 100, from offset `o` (R125). -/
def sharesErr (dies : List Nat) : Nat → List RouteEnt → List RouteEnt → Option Nat
  | _, _, [] => none
  | o, before, r :: t =>
    let sum := fun l => (r :: before).foldl (fun a x => if (x.links dies).contains l then a + x.share else a) 0
    if (r.links dies).all fun l => decide (sum l ≤ 100) then sharesErr dies (o + 8) (r :: before) t else some (o + 6)

/-- The fields of a ROUTE entry (Table 3-9). -/
def RouteEnt.err (dies : Nat) (r : RouteEnt) : Option Nat :=
  let hub := r.dstDie == 16 || r.dstDie == 17
  lowest [must (decide (r.srcDie < dies)) 0, must (decide (r.srcCluster < 25) || r.srcCluster == 255) 1, must (hub || decide (r.dstDie < dies)) 2,
    must (r.dstCluster == 255 || (!hub && decide (r.dstCluster < 25))) 3, must (decide (r.dir < 3)) 4, must (decide (r.vc < 4)) 5,
    must (decide (r.share ≤ 100)) 6]

/-- The first REGIONS entry of tier 0 that takes the sum of guarantees above the chart's frames, from offset `o` (R129). -/
def guaranteesErr (limit : Nat) : Nat → Nat → List Quota → Option Nat
  | _, _, [] => none
  | o, sum, q :: t =>
    let n := if q.tier = 0 ∧ q.dflt = false then sum + q.guarantee else sum
    if n ≤ limit then guaranteesErr limit (o + 12) n t else some (o + 8)

/-- The coupled-field groups the module defines (R369, R375). -/
def groupDefined (g : Nat) : Bool :=
  (decide (0x800 ≤ g) && decide (g < 0x808)) || (decide (0xA00 ≤ g) && decide (g < 0xAC0))

/-- The resource check of one frame (step 7): the first failing field (Table 3-20). Reserved bits beside a used field fail; reserved bytes of their
own are not examined, as R114 names those of the header and the signature block only (DEDUCED, assumption log entry 30). -/
def Frame.resourceErr (env : ChartEnv) (rd : Nat → Byte) (c : Chart) (f : Frame) : Option ChartErr :=
  let o := f.at_
  let w := fun off n => rdLe rd (o + off) n
  let e := fun (l : List (Option Nat)) => (lowest l).map fun off => ChartErr.mk 0x0A f.index (o + off) 0
  match f.type with
  | 1 =>
    let n := c.roles.length
    e [must (decide (c.layers.length ≤ 16384)) 0,
      firstEntry 8 (fun d => let r := c.roles.getD d (0, 255); lowest [must (decide (r.1 < 4)) 0,
        must ((r.2 == 255 || roleRuns c.roles r.2) && !pipeCycles c.roles d 5 d) 1]) 8 (List.range n),
      firstEntry 8 (fun (l : LayerEnt) => lowest [must (decide (l.first ≤ l.last)) 4, must (roleRuns c.roles l.die) 6,
        must (l.flags == 1 || l.flags == 2) 7]) (8 + 8 * n) c.layers]
  | 2 =>
    e [must (decide (1 ≤ w 0 1) && decide (w 0 1 ≤ 64)) 0, must (decide (w 1 1 < 2)) 1,
      firstEntry 4 (fun k => let v := w (4 + 4 * k) 4; must (decide (v < 64) && bit v (bits v 4 2)) 0) 4 (List.range 8)]
  | 3 => e [must (decide (1 ≤ w 0 1) && decide (w 0 1 ≤ 8)) 0, setsErr rd o (w 0 1) 4 0]
  | 4 =>
    e [must (decide (1 ≤ c.routes.length) && decide (c.routes.length ≤ 4096)) 0, firstEntry 8 (RouteEnt.err c.dieCount) 4 c.routes,
      sharesErr (env.dies.take c.dieCount) 4 [] c.routes]
  | 5 =>
    let s := c.span
    e [must (decide (w 0 2 < 4096)) 0,
      must (decide (s.role < 4) && (s.role != 2 || s.master == s.module) && (s.role != 3 || s.standby == s.module)) 2,
      must (decide (w 4 2 < 4096)) 4, must (decide (w 6 2 < 4096)) 6, must (decide (1 ≤ s.spanSize) && decide (s.spanSize ≤ 4096)) 8,
      must (decide (w 0xB 1 < 2) && (!s.twin || (bit s.linkEnable 6 && bit s.linkEnable 7))) 0xB, must (decide (w 0xC 2 < 4096)) 0xC,
      (s.routes.find? fun p => !(decide (p.2 < 256) && (!bit p.2 3 || bit s.linkEnable (bits p.2 0 3))
        && (!bit p.2 7 || bit s.linkEnable (bits p.2 4 3)) && (p.1 != s.module || (!bit p.2 3 && !bit p.2 7)))).map fun p => 0x20 + 2 * p.1]
  | 6 =>
    match e [must (c.period == 0 || (decide (250000 ≤ c.period) && decide (c.period ≤ 100000000))) 4, must (decide (c.ephemeris.length ≤ 1024)) 8] with
    | some x => some x
    | none => (Eph.check env.slots c.cycleLen c.ephemeris).map fun p => ⟨0x0A, f.index, o + (if p.1 = 1 then 16 + 8 * p.2 else 0), p.1⟩
  | 7 =>
    e [must (decide (c.ecc < 16)) 0, must (decide (c.quotas.length ≤ 4096)) 2,
      firstEntry 12 (fun k => lowest [must (decide (w (8 + 12 * k + 2) 1 < 3)) 2, must (decide (w (8 + 12 * k + 3) 1 < 2)) 3,
        must (decide (w (8 + 12 * k + 8) 4 ≤ w (8 + 12 * k + 4) 4)) 8]) 8 (List.range c.quotas.length),
      guaranteesErr (23040 * c.dieCount) 8 0 c.quotas]
  | 8 => e [must (decide (c.offMask < 2 ^ 30)) 0]
  | _ =>
    e [firstEntry 4 (fun k => let v := w (4 + 4 * k) 4; must (decide (v < 2 ^ 17) && groupDefined (bits v 0 16)) 0) 4 (List.range c.coupled.length)]

/-- Step 6: topology (error 0x09): dies, die entries, layer entries, scopes, in that order. -/
def Chart.topologyErr (env : ChartEnv) (c : Chart) (fs : List Frame) : Option ChartErr :=
  let t := fun i o => ChartErr.mk 9 i o 0
  let layer := (firstEntry 8 (fun (l : LayerEnt) => must (decide (l.die < c.dieCount)) 6) (0x318 + 8 * c.roles.length) c.layers)
  if env.dies.length < c.dieCount then some (t 0 0xE)
  else if c.roles.length ≠ c.dieCount then some (t 0 0x308)
  else match layer with
    | some o => some (t 0 o)
    | none => fs.findSome? fun f =>
      if f.scope.level = 0 then none
      else if c.dieCount ≤ f.scope.die then some (t f.index (f.at_ - 12))
      else if 24 < f.scope.cluster then some (t f.index (f.at_ - 11))
      else none

/-- Has some core of a logical cluster partitions that lack a use one of its allowed modes requires (R124)? -/
def Chart.lacksUse (c : Chart) (d cl : Nat) : Bool :=
  (List.range 8).any fun k => !Part.covers (c.parts d cl k) ((c.personality d cl).cores.getD k (15, 0)).1

/-- The scope of the PLATES frame chosen for the first logical cluster that lacks a use (R120, R124). -/
def Chart.lackingScope (c : Chart) : Option Scope :=
  ((List.range (25 * c.dieCount)).find? fun i => c.lacksUse (i / 25) (i % 25)).bind fun i =>
    Chart.mostSpecific (c.plates.map fun p => (p.1, p.1)) (i / 25) (i % 25)

/-- The resource error of R124, at that frame's payload. -/
def Chart.usesErr (c : Chart) (fs : List Frame) : Option ChartErr :=
  c.lackingScope.map fun sc => match fs.find? fun f => f.type == 3 && f.scope == sc with
    | some f => ⟨0x0A, f.index, f.at_, 0⟩
    | none => ⟨0x0A, 0, 0x300, 0⟩

/-- Step 8: the power rules (R132), on the chart's own dies. -/
def Chart.powerErr (env : ChartEnv) (c : Chart) (fs : List Frame) : Option ChartErr :=
  let m := c.offMask
  let off := bit m
  let f := (fs.find? (fun f => f.type == 8)).map (fun f => (f.index, f.at_))
  let e := ChartErr.mk 0x0B ((f.map (·.1)).getD 0) ((f.map (·.2)).getD 0) 0
  firstFail [
    (!(off 24 || off 25 || off 28 || off 29), e),
    ((List.range c.dieCount).all (fun d => !off (6 * d + 5)), e),
    ((List.range c.dieCount).all (fun d => (c.roles.getD d (0, 255)).1 == 0 || (List.range 5).all (fun k => !off (6 * d + k))), e),
    (!off 26 || (Nat.land c.span.linkEnable 0xF0 == 0), e),
    (!off 26 || !c.span.twin, e),
    (!off 27 || env.powered.all (fun s => decide (s < 4)), e)]

/-- Verify an image in the order of R143: the chart, or the first failure. FRAMES_HASH is compared first digest byte first: the model's
choice beside R5 (log 57). -/
def Chart.verify (env : ChartEnv) (rd : Nat → Byte) : Except ChartErr Chart :=
  match Chart.headerErr rd with
  | some e => .error e
  | none =>
  match Chart.keyErr env rd with
  | some e => .error e
  | none =>
    let len := rdLe rd 8 4
    if sha384 (imgBytes rd 0x300 (len - 0x300)) ≠ leNat (imgBytes rd 0x30 48).reverse then .error ⟨3, 0, 0x30, 0⟩
    else
      let r := Frame.readAll rd len (len / 16) 0x300 0 []
      match Frame.listErr rd r with
      | some e => .error e
      | none =>
        let c := Chart.read rd r.1
        match Chart.topologyErr env c r.1 with
        | some e => .error e
        | none =>
          match r.1.findSome? (Frame.resourceErr env rd c) with
          | some e => .error e
          | none =>
            match c.usesErr r.1 with
            | some e => .error e
            | none => match Chart.powerErr env c r.1 with
              | some e => .error e
              | none => .ok c

end Sys2Proof.Machine
end

