-- ==== Sys2Proof/Machine/Windows.lean ====
section
/-! DEFINITION. The Ephemeris in use: banks, windows open at a phase, remaining time, arming (R93 to R112). The current
phase is TRN_PHASE.PHASE; commands that carry a phase set it first. -/
namespace Sys2Proof.Machine

/-! ### Banks -/

/-- Physical bank now active. -/
def Mdl.activeBank (s : Mdl) : Nat := s.reg Reg.EPH_STATUS_ACTIVE_BANK
/-- A physical bank's entries. -/
def EphemerisSt.bank (e : EphemerisSt) (b : Nat) : Table Nat := if b = 0 then e.bank0 else e.bank1
/-- Replace a physical bank. -/
def EphemerisSt.setBank (e : EphemerisSt) (b : Nat) (t : Table Nat) : EphemerisSt :=
  if b = 0 then { e with bank0 := t } else { e with bank1 := t }
def Mdl.activeTable (s : Mdl) : Table Nat := s.eph.bank s.activeBank
def Mdl.shadowTable (s : Mdl) : Table Nat := s.eph.bank (1 - s.activeBank)
/-- Entries of the active bank that are not zero. -/
def Mdl.activeEntries (s : Mdl) : List Nat := s.activeTable.map (·.2)

/-- The cycle index of the current epoch (R94). -/
def Mdl.cycleIndex (s : Mdl) : Nat := s.epoch % max 1 (s.reg Reg.EPH_CYCLE_ACTIVE_LEN)

/-- The current phase. -/
def Mdl.phase (s : Mdl) : Nat := s.reg Reg.TRN_PHASE_PHASE
/-- Move to a phase of the current epoch. -/
def Mdl.atPhase (s : Mdl) (p : Nat) : Mdl := s.setReg Reg.TRN_PHASE_PHASE p

/-! ### Windows -/

/-- Does an entry serve a class and target (Table 2-16)? Bit 8 of a CATALOGUE_SWEEP target names all catalogues; its windows join those of one
catalogue in one union (R96; DESIGN CHOICE, assumption log entry 52). -/
def Eph.serves (cls target e : Nat) : Bool :=
  Eph.cls e == cls && decide (0 < Eph.width e) &&
    (Eph.target e == target || (cls == 6 && bit (Eph.target e) 8))

/-- Does an entry open in the cycle epoch `cyc`? -/
def Eph.inEpoch (cyc e : Nat) : Bool := Eph.every e || Eph.cycEpoch e == cyc

/-- Does an entry cover a phase of cycle epoch `cyc`? -/
def Eph.covers (cyc phase e : Nat) : Bool :=
  Eph.inEpoch cyc e && decide (Eph.startOf e ≤ phase) && decide (phase < Eph.endOf e)

/-- The end of the union of windows that covers `p` (R96): follow entries that overlap or abut. -/
def Eph.unionEnd (es : List Nat) : Nat → Nat → Nat
  | 0, p => p
  | n + 1, p =>
    match es.find? (fun e => decide (Eph.startOf e ≤ p) && decide (p < Eph.endOf e)) with
    | none => p
    | some e => Eph.unionEnd es n (Eph.endOf e)

/-- Entries of the active bank that serve a class and target in the current epoch. -/
def Mdl.windowsOf (s : Mdl) (cls target : Nat) : List Nat :=
  s.activeEntries.filter fun e => Eph.serves cls target e && Eph.inEpoch s.cycleIndex e

/-- Is a window of a class open for a target at the current phase? -/
def Mdl.windowOpen (s : Mdl) (cls target : Nat) : Bool :=
  (s.windowsOf cls target).any (Eph.covers s.cycleIndex s.phase)

/-- The remaining time of Table 2-17 in ns at the current period: to the end of the union (R96, R103). -/
def Mdl.remaining (s : Mdl) (cls target : Nat) : Nat :=
  if s.windowOpen cls target then
    let es := s.windowsOf cls target
    (Eph.unionEnd es es.length s.phase - s.phase) * s.reg Reg.TRN_PERIOD_PERIOD / 65536
  else 0

/-- May foreground work of a class and target run at the current phase (R99)? -/
def Mdl.mayRun (s : Mdl) (cls target : Nat) : Bool :=
  !s.activeEntries.any (Eph.serves cls target) || s.windowOpen cls target

/-- The longest window union of a class and target in the active bank, in ns: windows join within one epoch of the cycle alone (R96). -/
def Mdl.longestWindow (s : Mdl) (cls target : Nat) : Nat :=
  let es := s.activeEntries.filter (Eph.serves cls target)
  (List.range (s.reg Reg.EPH_CYCLE_ACTIVE_LEN)).foldl (fun a cyc =>
    let mates := es.filter (Eph.inEpoch cyc)
    mates.foldl (fun a e =>
      max a ((Eph.unionEnd mates mates.length (Eph.startOf e) - Eph.startOf e) * s.reg Reg.TRN_PERIOD_PERIOD / 65536)) a) 0

/-- Show which classes have a window open at the current phase (Table 2-23). -/
def Mdl.showGrant (s : Mdl) : Mdl :=
  let open_ := (List.range 7).filter fun i =>
    s.activeEntries.any fun e => Eph.cls e == i + 1 && decide (0 < Eph.width e) && Eph.covers s.cycleIndex s.phase e
  s.setReg Reg.EPH_GRANT_OPEN (maskOf open_)

/-- Record that a background target has pending work in this cycle (R105). -/
def Mdl.want (s : Mdl) (cls target : Nat) : Mdl :=
  if s.eph.wanted.contains (cls, target) then s
  else { s with eph := { s.eph with wanted := (cls, target) :: s.eph.wanted } }

/-- Record the windows open at the current phase: their targets were served in this cycle (R105). -/
def Mdl.serve (s : Mdl) : Mdl :=
  let now := (s.activeEntries.filter fun e => decide (0 < Eph.width e) && Eph.covers s.cycleIndex s.phase e).map
    fun e => (Eph.cls e, Eph.target e)
  { s with eph := { s.eph with served := now.foldl (fun a t => if a.contains t then a else t :: a) s.eph.served } }

/-- At the end of a cycle: count each target that had pending work, now or when a command found it, and no window; a new cycle begins (R105). -/
def Mdl.endCycle (s : Mdl) (now : List (Nat × Nat)) : Mdl :=
  let wanted := now.foldl (fun a t => if a.contains t then a else t :: a) s.eph.wanted
  let starved := wanted.filter fun t => !s.eph.served.contains t
  let s := starved.foldl (fun s t =>
    if t.1 < 1 ∨ 4 < t.1 then s else s.count (Reg.EPH_STARVE_STARVED_CYCLES (t.1 - 1))) s
  { s with eph := { s.eph with wanted := [], served := [] } }

/-- Count an overrun of a class and log it (R104, Table 12-11). -/
def Mdl.overrun (s : Mdl) (cls : Nat) (n : Nat) : Mdl :=
  if n = 0 then s else (s.count (Reg.EPH_OVERRUN_OVERRUNS (cls - 1)) n).trnRecord 9 cls

/-! ### Arming (R106 to R110) -/

/-- Slots whose cartridge is in service and not a parked spare, and the spare slot while a migration runs (Table 2-18, R546). -/
def Mdl.servedSlots (s : Mdl) : List Nat :=
  (List.range 9).filter fun i =>
    s.reg (Reg.MED_SLOT_STATUS_ROLE i) == 1
      || (match s.ftl.migration with | some m => m.target == i | none => false)

/-- Set OVERLAP_GROUPS from the active bank and, when one is being armed, the shadow bank (R112). -/
def Mdl.showOverlap (s : Mdl) (arming : Bool) : Mdl :=
  s.setBit Reg.EPH_STATUS_OVERLAP_GROUPS
    (Eph.overlap s.activeEntries || (arming && Eph.overlap (s.shadowTable.map (·.2))))

/-- EPH_CTRL.ARM (R107). BAD_ENTRY reads 0 where ARM_ERR 0x2 or 0x3 names no entry or group, and keeps its value at 0x0 and 0x5 (DESIGN CHOICE,
assumption log entry 52). -/
def Mdl.arm (s : Mdl) : Mdl :=
  if s.flag Reg.EPH_STATUS_ARMED then s.setReg Reg.EPH_STATUS_ARM_ERR 5
  else
    let len := s.reg Reg.EPH_CYCLE_SHADOW_LEN
    let es := Eph.entries s.shadowTable
    let swap := s.reg Reg.EPH_SWAP_EPOCH_SWAP_EPOCH
    let refuse := fun (s : Mdl) (p : Nat × Nat) => s.setRegs [(Reg.EPH_STATUS_ARM_ERR, p.1), (Reg.EPH_STATUS_BAD_ENTRY, p.2)]
    match Eph.firstBad len 0 es with
    | some i => refuse s (1, i)
    | none =>
      if len < 1 ∨ 64 < len then refuse s (2, 0)
      else if swap ≠ 0 ∧ swap ≤ s.epoch then refuse s (3, 0)
      else match Eph.noWindow s.servedSlots es with
        | some sg => refuse s (4, sg)
        | none => (s.setRegs [(Reg.EPH_STATUS_ARM_ERR, 0), (Reg.EPH_STATUS_ARMED, 1)]).showOverlap true

/-- EPH_CTRL.DISARM (R110). -/
def Mdl.disarm (s : Mdl) : Mdl := s.setReg Reg.EPH_STATUS_ARMED 0

/-- A swap that is due takes place (R108, R109). -/
def Mdl.swapBanks (s : Mdl) : Mdl :=
  if s.flag Reg.EPH_STATUS_ARMED ∧ s.reg Reg.EPH_SWAP_EPOCH_SWAP_EPOCH ≤ s.epoch then
    let s := s.setRegs [(Reg.EPH_STATUS_ACTIVE_BANK, 1 - s.activeBank), (Reg.EPH_CYCLE_ACTIVE_LEN, s.reg Reg.EPH_CYCLE_SHADOW_LEN),
      (Reg.EPH_STATUS_ARMED, 0)]
    (s.count Reg.EPH_SWAPS_SWAPS).trnRecord 8 0
  else s

/-- Fill the active bank and its cycle length from a chart, and clear the shadow bank (R111, R148). -/
def Mdl.fillEphemeris (s : Mdl) (entries : List Nat) (len : Nat) : Mdl :=
  let s := { s with eph := (s.eph.setBank s.activeBank (Eph.fill 0 entries)).setBank (1 - s.activeBank) [] }
  (s.setRegs [(Reg.EPH_CYCLE_ACTIVE_LEN, len), (Reg.EPH_STATUS_ARMED, 0)]).showOverlap false

/-- A write of `bytes` bytes at offset `o` of the shadow bank: every bit is stored as written (R709), unless armed (R106). -/
def Mdl.shadowWrite (s : Mdl) (o bytes v : Nat) : Mdl :=
  if s.flag Reg.EPH_STATUS_ARMED then s.setReg Reg.EPH_STATUS_WRITE_WHILE_ARMED 1
  else
    let i := o / 8
    let old := Table.get 0 s.shadowTable i
    let sh := 8 * (o % 8)
    let w := 8 * bytes
    let new := old - bits old sh w * 2 ^ sh + v % 2 ^ w * 2 ^ sh
    { s with eph := s.eph.setBank (1 - s.activeBank) (Table.set 0 s.shadowTable i new) }

/-- A write of SHADOW_LEN or SWAP_EPOCH (R106). -/
def Mdl.armedFieldWrite (s : Mdl) (f : Fld) (v : Nat) : Mdl :=
  if s.flag Reg.EPH_STATUS_ARMED then s.setReg Reg.EPH_STATUS_WRITE_WHILE_ARMED 1 else s.setReg f v

end Sys2Proof.Machine
end

