-- ==== Sys2Proof/Machine/Coupling.lean ====
section
/-! DEFINITION. Coupled-field groups: staged copies, commits, legacy write counts and holds (R163 to R169, R369, R375). -/
namespace Sys2Proof.Machine

/-- The fields of a coupled-field group (R369, R375). -/
def groupFields (g : Nat) : List Fld :=
  if 0x800 ≤ g ∧ g < 0x808 then
    let i := g - 0x800
    [Reg.SQT_GRP_CFG_ENABLE i, Reg.SQT_GRP_CFG_JOB_CLASS i, Reg.SQT_GRP_CFG_PROGRAM i, Reg.SQT_GRP_CFG_ACCOUNT i,
      Reg.SQT_GRP_CFG_TOKENS_PER_PAGE i, Reg.SQT_GRP_SHAPE_SET_PAGES i, Reg.SQT_GRP_SHAPE_SET_DIES i,
      Reg.SQT_GRP_SHAPE_JOIN_LOG2 i, Reg.SQT_GRP_SHAPE_EVENT_LOG2 i, Reg.SQT_GRP_SHAPE_POOL_PAGES i,
      Reg.SQT_GRP_KV_BASE_ADDR i, Reg.SQT_GRP_LIST_ADDR i, Reg.SQT_GRP_PAGES_ADDR i, Reg.SQT_GRP_JOIN_ADDR i,
      Reg.SQT_GRP_EVENT_ADDR i]
  else if 0xA00 ≤ g ∧ g < 0xA80 then
    let n := g - 0xA00
    [Reg.TIR_MODEL_ID_MODEL n, Reg.TIR_MODEL_ID_ACCOUNT n, Reg.TIR_MODEL_LAYERS_ADDR n, Reg.TIR_MODEL_LAYERS_COUNT n,
      Reg.TIR_MODEL_ALMANAC_ADDR n, Reg.TIR_MODEL_ALMANAC_COUNT n]
  else if 0xA80 ≤ g ∧ g < 0xAC0 then
    let n := g - 0xA80
    [Reg.TIR_ACH_CFG_ENABLE n, Reg.TIR_ACH_CFG_DIR n, Reg.TIR_ACH_CFG_LOCAL_DIE n, Reg.TIR_ACH_CFG_PEER_DIE n,
      Reg.TIR_ACH_CFG_PEER_MODULE n, Reg.TIR_ACH_CFG_SLOT_COUNT n, Reg.TIR_ACH_CFG_ACCOUNT n, Reg.TIR_ACH_CFG_SLOT_UNITS n,
      Reg.TIR_ACH_BASE_BASE n]
  else []

/-- The groups the module defines. -/
def allGroups : List Nat :=
  ((List.range 8).map (0x800 + ·)) ++ ((List.range 128).map (0xA00 + ·)) ++ ((List.range 64).map (0xA80 + ·))

/-- The group of a register address, when it is coupled. -/
def groupOfAddr (a : Nat) : Option Nat := allGroups.find? fun g => (groupFields g).any fun f => f.addr == a

/-- Is a group in legacy direct mode in the chart in force (R133, R163)? -/
def Mdl.legacy (s : Mdl) (g : Nat) : Bool := match s.cht.chart with
  | some c => c.coupled.any fun p => p.1 == g && p.2 == 1
  | none => false

/-- A field's legacy write count. -/
def Mdl.writes (s : Mdl) (f : Fld) : Nat := Table.get 0 s.cht.counts f.key

/-- Are all the write counts of a group equal (R168)? -/
def Mdl.consistent (s : Mdl) (g : Nat) : Bool :=
  match groupFields g with
  | [] => true
  | f :: t => t.all fun h => s.writes h == s.writes f

/-- Must an operation that uses a group be held now (R168)? -/
def Mdl.mixed (s : Mdl) (g : Nat) : Bool := s.legacy g && !s.consistent g

/-- CPL_STATUS.HOLD_ACTIVE and CPL_HOLD.HOLD_GROUP: the oldest current hold. -/
def Mdl.showHold (s : Mdl) : Mdl :=
  match s.cht.holds with
  | [] => s.setReg Reg.CPL_STATUS_HOLD_ACTIVE 0
  | h :: _ => s.setRegs [(Reg.CPL_STATUS_HOLD_ACTIVE, 1), (Reg.CPL_HOLD_HOLD_GROUP, h.group)]

/-- Hold an operation (R168). -/
def Mdl.beginHold (s : Mdl) (g : Nat) (op : HeldOp) : Mdl :=
  if s.cht.holds.any fun h => h.op == op then s
  else
    ({ s with cht := { s.cht with holds := s.cht.holds ++ [Hold.mk g op 0] } }.count Reg.CPL_HOLD_HOLD_COUNT).showHold

/-- An operation that uses a group acts at once, or is held while the group's values are mixed (R168). -/
def Mdl.whole (s : Mdl) (g : Nat) (op : HeldOp) (act : Mdl → Mdl) : Mdl := if s.mixed g then s.beginHold g op else act s

/-- The staged value of a field: its newest staged copy, or the live one. -/
def Mdl.stagedValue (s : Mdl) (g : Nat) (f : Fld) : Nat :=
  match s.cht.staged.find? fun x => x.group == g && x.fld.key == f.key with
  | some x => x.value
  | none => s.reg f

/-- Stage a value of a field (R164). -/
def Mdl.stage_ (s : Mdl) (g : Nat) (f : Fld) (v : Nat) : Mdl :=
  let rest := s.cht.staged.filter fun x => !(x.group == g && x.fld.key == f.key)
  { s with cht := { s.cht with staged := Staged.mk g f (v % 2 ^ f.width) :: rest } }

/-- Apply a group's staged copies together (R165). -/
def Mdl.applyStaged (s : Mdl) (g : Nat) : Mdl :=
  let mine := s.cht.staged.filter fun x => x.group == g
  let s := mine.foldl (fun s x => s.setReg x.fld x.value) s
  { s with cht := { s.cht with staged := s.cht.staged.filter fun x => x.group != g } }

/-- CPL_COMMIT (R165, R166): pending until the safe point, or refused. -/
def Mdl.commitGroup (s : Mdl) (g : Nat) : Mdl :=
  let s := s.setReg Reg.CPL_STATUS_LAST_GROUP g
  if (groupFields g).isEmpty || s.legacy g then s.setReg Reg.CPL_STATUS_LAST_RESULT 2
  else if s.cht.commits.contains g then s.setReg Reg.CPL_STATUS_LAST_RESULT 1
  else if (s.cht.staged.any fun x => x.group == g) then
    { s with cht := { s.cht with commits := s.cht.commits ++ [g] } }.setReg Reg.CPL_STATUS_LAST_RESULT 1
  else s.setRegs [(Reg.CPL_STATUS_LAST_RESULT, 0), (Reg.CPL_APPLIED_EPOCH_EPOCH, s.epoch)]

/-- A commit is applied: its result and its epoch (Tables 3-31, 3-32). -/
def Mdl.commitApplied (s : Mdl) (g : Nat) : Mdl :=
  let s := { s with cht := { s.cht with commits := s.cht.commits.filter (· ≠ g) } }
  if s.reg Reg.CPL_STATUS_LAST_GROUP = g then
    s.setRegs [(Reg.CPL_STATUS_LAST_RESULT, 0), (Reg.CPL_APPLIED_EPOCH_EPOCH, s.epoch)]
  else s

/-- A register access of `bytes` bytes at address `a` that covers fields of a group: staged, counted or ignored (R164, R166,
R167). `fields` are the covered fields with their new values, `counted` those with a bit in the register. -/
def Mdl.coupledWrite (s : Mdl) (g : Nat) (fields : List (Fld × Nat)) (counted : List Fld) : Mdl :=
  if s.legacy g then
    if counted.any fun f => s.writes f == 255 then s.setReg Reg.CPL_STATUS_WRITE_WHILE_PENDING 1
    else
      let s := fields.foldl (fun s p => s.setReg p.1 p.2) s
      let s := counted.foldl (fun (s : Mdl) f => { s with cht := { s.cht with counts := Table.modify 0 s.cht.counts f.key (· + 1) } }) s
      if s.consistent g then
        { s with cht := { s.cht with counts := (groupFields g).foldl (fun t f => Table.set 0 t f.key 0) s.cht.counts } }
      else s
  else if s.cht.commits.contains g then s.setReg Reg.CPL_STATUS_WRITE_WHILE_PENDING 1
  else fields.foldl (fun s p => s.stage_ g p.1 p.2) s

/-- Discard every staged value and pending commit; every write count is zero (R148, R167). A group whose commit to clear ENABLE goes serves on
(R376). -/
def Mdl.discardStaged (s : Mdl) : Mdl :=
  let s := if s.cht.commits.contains (s.reg Reg.CPL_STATUS_LAST_GROUP) then s.setReg Reg.CPL_STATUS_LAST_RESULT 3 else s
  let s := (List.range 8).foldl (fun (s : Mdl) g => if s.reg (Reg.SQT_GRP_STATUS_STATE g) = 3 then s.setReg (Reg.SQT_GRP_STATUS_STATE g) 1 else s) s
  { s with cht := { s.cht with staged := [], commits := [], counts := [] } }

end Sys2Proof.Machine
end

