-- ==== Sys2Proof/Machine/FtlOps.lean ====
section
/-! DEFINITION. The translation layer's operations: stripes, the journal, the logical map, the log index, reads, writes
and deallocation (R510 to R526, R541, R549, R550). -/
namespace Sys2Proof.Machine

/-- Sectors of a logical unit and of a stripe's data (R510). -/
def unitSectors : Nat := 122880
/-- Journal stripes of a bank at format; the model takes a bank's last positions (assumption log entry 13). -/
def journalStripes : Nat := 128
/-- Positions of a bank that are not journal stripes. -/
def bankData : Nat := 65536 - journalStripes

/-! ### The journal (R555) -/

/-- Append a record to the journal buffer. MEDIA_STATE and BANK_SLOT records are what a later start takes up (R545, R548). -/
def Mdl.journal (s : Mdl) (type payload : Nat) : Mdl :=
  let f := s.ftl
  { s with ftl := { f with buffer := ⟨type, payload % 2 ^ 80, f.seq⟩ :: f.buffer, seq := f.seq + 1
                           sinceCheckpoint := f.sinceCheckpoint + 16
                           mediaRo := if type = 0x0F then payload % 2 == 1 else f.mediaRo
                           bankSlots := if type = 0x0D then
                               let b := payload % 8
                               f.bankSlots - bits f.bankSlots (4 * b) 4 * 2 ^ (4 * b) + payload / 8 % 16 * 2 ^ (4 * b)
                             else f.bankSlots } }

/-! ### Stripes (R511 to R515) -/

/-- The cartridge number of the die of group `g` at die index `n` (R512): 16 channel + die. -/
def groupDie (g n : Nat) : Nat := 16 * (g / 2) + 2 * n + g % 2
/-- The die group of a die of a cartridge (R97). -/
def dieGroup (die : Nat) : Nat := 2 * (die / 16) + die % 2

/-- Where format puts group `g`'s die-block of position `j`: a factory bad die-block is replaced by the next good spare block
of the same die (R512, R540). -/
def formatBlock (bad : List (Nat × Nat)) (j g : Nat) : Nat × Nat :=
  let n := j % 8
  let d := groupDie g n
  let b := j / 8
  if bad.contains (d, b) then
    let k := (bad.filter fun p => p.1 == d && decide (p.2 < b)).length
    let good := (List.range (256)).filter fun x => !bad.contains (d, 8192 + x)
    (n, 8192 + good.getD k 255)
  else (n, b)

/-- A bank's default entry of position `j`: FREE at format, STALE after a migration; its last positions are journal stripes. -/
def Stripe.format (bank slot : Nat) (stale : Bool) (bad : List (Nat × Nat)) (j : Nat) : Stripe :=
  let jr := decide (bankData ≤ j)
  { state := if jr then .opened else if stale then .stale else .free
    light := false, role := if jr then 4 else 0, slot := slot, parity := j % 16, failed := 0, erases := 0, rows := 0
    owner := if jr then journalStripes * bank + (j - bankData) else 0, valid := 0, sealEpoch := 0
    blk := (List.range 16).map (formatBlock bad j), erased := 0 }

/-- Slot of a bank's unlisted entries and whether they are STALE. -/
def FtlSt.bankFormat (f : FtlSt) (b : Nat) : Nat × Bool := (Table.get none f.banks b).getD (b, false)

/-- The factory bad-block map of the cartridge in a slot. -/
def Mdl.badBlocks (s : Mdl) (slot : Nat) : List (Nat × Nat) :=
  match Table.get none s.svc.cartIds slot with
  | some c => c.badBlocks
  | none => []

def Mdl.defaultStripe (s : Mdl) (i : Nat) : Stripe :=
  let b := i / 65536
  let f := s.ftl.bankFormat b
  Stripe.format b f.1 f.2 (s.badBlocks f.1) (i % 65536)

/-- Stripe-table entry `i` (R513). -/
def Mdl.stripe (s : Mdl) (i : Nat) : Stripe :=
  match Table.get none s.ftl.stripes i with
  | some e => e
  | none => s.defaultStripe i

/-- Replace a stripe-table entry. -/
def Mdl.setStripe (s : Mdl) (i : Nat) (e : Stripe) : Mdl :=
  { s with ftl := { s.ftl with stripes := Table.set none s.ftl.stripes i (if e = s.defaultStripe i then none else some e) } }

/-- Replace a stripe-table entry and journal its STRIPE_STATE record. -/
def Mdl.putStripe (s : Mdl) (i : Nat) (e : Stripe) : Mdl :=
  (s.setStripe i e).journal 0x01
    (i + e.state.code * 2 ^ 19 + e.role * 2 ^ 22 + b2n e.light * 2 ^ 25 + e.owner % 2 ^ 19 * 2 ^ 26)

/-- The listed stripes, by index. -/
def Mdl.listed (s : Mdl) : List (Nat × Stripe) := s.ftl.stripes.filterMap fun p => p.2.map fun e => (p.1, e)

/-- Slots of the active cartridges, ascending (R341). -/
def Mdl.activeSlots (s : Mdl) : List Nat := (List.range 9).filter fun i => s.reg (Reg.MED_SLOT_STATUS_ROLE i) == 1

/-- The parked spare's slot. -/
def Mdl.parkedSpare (s : Mdl) : Option Nat := (List.range 9).find? fun i => s.reg (Reg.MED_SLOT_STATUS_ROLE i) == 2

/-- Banks whose unlisted entries lie in a slot and are FREE. -/
def Mdl.freshBanks (s : Mdl) (slot : Nat) : List Nat :=
  (List.range 8).filter fun b => s.ftl.bankFormat b == (slot, false)

/-- Listed data positions of a bank. -/
def Mdl.listedIn (s : Mdl) (b : Nat) : List Nat :=
  (s.ftl.stripes.map (·.1)).filter fun i => i / 65536 == b && decide (i % 65536 < bankData)

/-- FREE stripes of a slot. -/
def Mdl.freeCount (s : Mdl) (slot : Nat) : Nat :=
  (s.freshBanks slot).foldl (fun a b => a + (bankData - (s.listedIn b).length)) 0
    + (s.listed.filter fun p => p.2.slot == slot && p.2.state == .free && p.2.role == 0).length

/-- The first index from `i` that a rising list does not hold. -/
def firstGap : Nat → List Nat → Nat
  | i, [] => i
  | i, k :: t => if k < i then firstGap i t else if k = i then firstGap (i + 1) t else i

/-- FREE stripes to choose from: the listed ones, and the lowest unlisted one of each bank, with their ERASES. -/
def Mdl.freeChoices (s : Mdl) (slot : Nat) : List (Nat × Nat) :=
  (s.freshBanks slot).filterMap (fun b =>
      let i := firstGap (65536 * b) (s.listedIn b)
      if i % 65536 < bankData ∧ i / 65536 = b then some (0, i) else none)
    ++ (s.listed.filter fun p => p.2.slot == slot && p.2.state == .free && p.2.role == 0).map fun p => (p.2.erases, p.1)

/-- The FREE stripe R515 chooses: lowest ERASES, or highest for cold data; ties to the lower index. -/
def Mdl.chooseFree (s : Mdl) (slot : Nat) (cold : Bool) : Option Nat :=
  ((s.freeChoices slot).foldl (fun (a : Option (Nat × Nat)) p =>
    match a with
    | none => some p
    | some q =>
      let better := if cold then decide (q.1 < p.1) || (p.1 == q.1 && decide (p.2 < q.2))
        else decide (p.1 < q.1) || (p.1 == q.1 && decide (p.2 < q.2))
      if better then some p else some q) none).map (·.2)

/-- Take a FREE stripe of a slot for a role (R515): `headroom` when the taker may use it. -/
def Mdl.takeStripe (s : Mdl) (slot role : Nat) (light : Bool) (owner : Nat) (headroom cold : Bool) : Option (Nat × Mdl) :=
  if !headroom && decide (s.freeCount slot ≤ 64) then none
  else (s.chooseFree slot cold).map fun i =>
    let s := s.putStripe i { s.stripe i with state := .opened, role := role, light := light, owner := owner, rows := 0, valid := 0 }
    (i, { s with ftl := { s.ftl with next := Table.set 0 s.ftl.next i 0 } })

/-- Stripes that hold a role. -/
def Mdl.roleCount (s : Mdl) (role : Nat) : Nat := (s.listed.filter fun p => p.2.role == role).length

/-- FTL_LOG.LOG_FREE and INDEX_PCT (Table 11-17). -/
def Mdl.showLog (s : Mdl) : Mdl :=
  s.setRegs [(Reg.FTL_LOG_LOG_FREE, 2048 - s.roleCount 2), (Reg.FTL_LOG_INDEX_PCT, min 100 (s.ftl.index.length * 100 / 8388608))]

/-- A stripe becomes STALE: it returns to the pool (Table 11-3). -/
def Mdl.staleStripe (s : Mdl) (i : Nat) : Mdl :=
  let e := s.stripe i
  (s.putStripe i { e with state := .stale, role := 0, valid := 0, erased := 0 }).showLog

/-- Seal an OPEN stripe (Table 11-3). -/
def Mdl.sealStripe (s : Mdl) (i : Nat) : Mdl :=
  let e := s.stripe i
  if e.state = .opened then s.putStripe i { e with state := .sealed, sealEpoch := s.epoch } else s

/-- A SEALED stripe whose VALID is 0 becomes STALE. -/
def Mdl.staleIfEmpty (s : Mdl) (i : Nat) : Mdl :=
  let e := s.stripe i
  if e.state = .sealed ∧ e.valid = 0 then s.staleStripe i else s

/-- Lower a stripe's VALID. -/
def Mdl.lowerValid (s : Mdl) (i n : Nat) : Mdl :=
  let e := s.stripe i
  (s.setStripe i { e with valid := e.valid - n }).staleIfEmpty i
/-- Raise a stripe's VALID. -/
def Mdl.raiseValid (s : Mdl) (i n : Nat) : Mdl :=
  let e := s.stripe i
  s.setStripe i { e with valid := e.valid + n }

/-! ### Spares (R541, R547 to R549) -/

/-- SPARE at default format with no stripe retired (R541). -/
def spareFormat : Nat := 68608

/-- SPARE with a far limit (R541). -/
def Mdl.spareWith (s : Mdl) (farLimit : Nat) : Int :=
  (524288 - (s.listed.filter fun p => p.2.state == .retired).length : Int)
    - (448000 + 2048 + 1024 + farLimit + 64 * s.activeSlots.length : Nat)

/-- SPARE_PCT (R541). -/
def Mdl.sparePct (s : Mdl) : Nat := min 100 (100 * (s.spareWith (s.reg Reg.FTL_FAR_LIMIT_LIMIT)).toNat / spareFormat)

/-- Show SPARE and SPARE_PCT, and report each level crossed downward (R541, R549). -/
def Mdl.showSpare (s : Mdl) : Mdl :=
  let spare := (s.spareWith (s.reg Reg.FTL_FAR_LIMIT_LIMIT)).toNat
  let pct := s.sparePct
  let cross := fun (s : Mdl) (p : Fld × Nat) =>
    let was := s.flag p.1
    let now := decide (pct ≤ p.2)
    let s := s.setBit p.1 now
    if now && !was then (s.logBook 0x0C (pct + 2 ^ 7)).postEvent 2 0xC2 else s
  [(Reg.FTL_STATUS_WARN10, 10), (Reg.FTL_STATUS_WARN5, 5), (Reg.FTL_STATUS_WARN2, 2)].foldl cross
    (s.setRegs [(Reg.FTL_SPARE_SPARE, spare), (Reg.FTL_SPARE_SPARE_FORMAT, spareFormat), (Reg.FTL_STATUS_SPARE_PCT, pct)])

/-- Read-only media state (R548). -/
def Mdl.readOnly (s : Mdl) : Bool := s.reg Reg.FTL_STATUS_MEDIA == 1

/-- Enter read-only media state (R548). -/
def Mdl.enterReadOnly (s : Mdl) : Mdl :=
  if s.readOnly then s
  else
    let s := ((s.setReg Reg.FTL_STATUS_MEDIA 1).logBook 0x0C (s.reg Reg.FTL_STATUS_SPARE_PCT + 2 ^ 8)).journal 0x0F 1
    { s with med := { s.med with refresh := [] } }

/-- The mapped die-blocks of a die that have joined its group's spare pool: good ones of RETIRED stripes that no other stripe has taken
(Table 11-3). -/
def Mdl.joinedBlocks (s : Mdl) (slot die : Nat) : List Nat :=
  let g := dieGroup die
  let at_ := fun (e : Stripe) => e.slot == slot && groupDie g (e.blk.getD g (0, 0)).1 == die
  let here := s.listed.filter fun p => at_ p.2
  let taken := (here.filter fun p => p.2.state != .retired).map fun p => (p.2.blk.getD g (0, 0)).2
  ((here.filter fun p => p.2.state == .retired && !bit p.2.failed g).map fun p => (p.2.blk.getD g (0, 0)).2).filter fun b =>
    decide (b < 8192) && !taken.contains b

/-- FTL_SLOT_WEAR of a slot (Table 11-19): unlisted entries have ERASES 0. -/
def Mdl.showWear (s : Mdl) (slot : Nat) : Mdl :=
  let mine := s.listed.filter fun p => p.2.slot == slot
  let live := mine.filter fun p => p.2.state != .retired
  let unlisted := (List.range 8).foldl (fun a b =>
    if (s.ftl.bankFormat b).1 = slot then a + (65536 - (s.ftl.stripes.filter fun p => p.1 / 65536 == b).length) else a) 0
  let n := live.length + unlisted
  let sum := live.foldl (fun a p => a + p.2.erases) 0
  let hi := live.foldl (fun a p => max a p.2.erases) 0
  let lo := if 0 < unlisted then 0 else live.foldl (fun a p => min a p.2.erases) 65535
  let used := (List.range 128).foldl (fun a d => a + (Table.get [] s.ftl.sparesUsed (dieKey slot d)).length) 0
  let bad := ((s.badBlocks slot).filter fun p => decide (p.2 < 8448)).length
  let joined := (List.range 128).foldl (fun a d => a + (s.joinedBlocks slot d).length) 0
  s.setRegs [(Reg.FTL_SLOT_WEAR_MEAN_ERASES slot, sum / max 1 n), (Reg.FTL_SLOT_WEAR_MAX_ERASES slot, hi),
    (Reg.FTL_SLOT_WEAR_MIN_ERASES slot, if n = 0 then 0 else lo), (Reg.FTL_SLOT_WEAR_FREE slot, s.freeCount slot),
    (Reg.FTL_SLOT_WEAR_RETIRED slot, (mine.filter fun p => p.2.state == .retired).length),
    (Reg.FTL_SLOT_WEAR_SPARE_BLOCKS slot, 128 * 256 - bad - used + joined)]

/-- Mean ERASES of a slot's stripes that are not retired (R528). -/
def Mdl.meanErases (s : Mdl) (slot : Nat) : Nat := (s.showWear slot).reg (Reg.FTL_SLOT_WEAR_MEAN_ERASES slot)

/-! ### The logical map and the log index (R516, Table 11-4) -/

def Mdl.unit (s : Mdl) (u : Nat) : MapEntry := Table.get .none s.ftl.map u
def Mdl.setUnit (s : Mdl) (u : Nat) (m : MapEntry) : Mdl :=
  { s with ftl := { s.ftl with map := Table.set .none s.ftl.map u m } }

/-- Set a unit's map entry and journal MAP_SET. -/
def Mdl.mapSet (s : Mdl) (u : Nat) (m : MapEntry) : Mdl :=
  (s.setUnit u m).journal 0x02 (u + m.stripe * 2 ^ 19 + b2n m.filling * 2 ^ 38 + b2n m.zone * 2 ^ 39)

/-- Does a log-index entry cover sector `x` of unit `u`? -/
def LogEnt.covers (u x : Nat) : LogEnt → Bool
  | .put v y _ _ _ => v == u && y == x
  | .trim v f n _ => v == u && decide (f ≤ x) && decide (x < f + n)
def LogEnt.unitOf : LogEnt → Nat
  | .put v _ _ _ _ => v
  | .trim v _ _ _ => v
def LogEnt.seqOf : LogEnt → Nat
  | .put _ _ _ _ q => q
  | .trim _ _ _ q => q

/-- Sectors of unit `u` that an entry covers. -/
def LogEnt.sectors (u : Nat) : LogEnt → List Nat
  | .put v x _ _ _ => if v = u then [x] else []
  | .trim v f n _ => if v = u then (List.range n).map (f + ·) else []

/-- Sectors of a unit covered by log-index entries (LOG_COUNT, Table 11-4). -/
def Mdl.logCount (s : Mdl) (u : Nat) : Nat := (s.ftl.index.flatMap (LogEnt.sectors u)).eraseDups.length

/-- What a log-index entry leaves outside sectors `lo` to `hi - 1` of unit `u`. -/
def LogEnt.cut (u lo hi : Nat) : LogEnt → List LogEnt
  | .put v y st p q => if v == u && decide (lo ≤ y) && decide (y < hi) then [] else [.put v y st p q]
  | .trim v f n q =>
    if v ≠ u ∨ f + n ≤ lo ∨ hi ≤ f then [.trim v f n q]
    else (if f < lo then [.trim v f (lo - f) q] else []) ++ (if hi < f + n then [.trim v hi (f + n - hi) q] else [])

/-- Where a sector's newest copy lies. -/
inductive Source where
  /-- A trim, or nothing ever written: zeros. -/
  | zeros
  /-- A sector of a stripe. -/
  | at (stripe pos : Nat)
  /-- The data is gone (R516, R543). -/
  | lost
  deriving DecidableEq, Repr

/-- R516, over the log-index entries older than journal sequence number `before` (none: all of them). -/
def Mdl.sourceBefore (s : Mdl) (before : Option Nat) (u x : Nat) : Source :=
  let ok := fun (e : LogEnt) => e.covers u x && match before with
    | none => true
    | some b => decide (e.seqOf < b)
  match s.ftl.index.find? ok with
  | some (.put _ _ st p _) => if (s.stripe st).state = .retired then .lost else .at st p
  | some (.trim ..) => .zeros
  | none =>
    let m := s.unit u
    if m.mapped && m.lost then .lost
    else if m.mapped && decide (x < m.fill) then .at m.stripe x
    else .zeros

def Mdl.source (s : Mdl) (u x : Nat) : Source := s.sourceBefore none u x

/-- Is a sector of a stripe beyond recovery: a step of its own has failed (R486), or it lies in a failed die-block of a complete row while a
second die-block of the stripe has failed too (R538)? -/
def Mdl.sectorBad (s : Mdl) (st p : Nat) : Bool :=
  let e := s.stripe st
  let j := p % 240 / 16
  let g := if j < e.parity then j else j + 1
  Table.get false s.ftl.bad (st * unitSectors + p)
    || (decide (p / 240 < e.rows) && bit e.failed g && ((List.range 16).any fun h => h != g && bit e.failed h))

/-- Content of a stripe's sector. -/
def Mdl.stripeSector (s : Mdl) (st p : Nat) : Sector := Table.get 0 s.ftl.data (st * unitSectors + p)
def Mdl.setStripeSector (s : Mdl) (st p : Nat) (d : Sector) : Mdl :=
  { s with ftl := { s.ftl with data := Table.set 0 s.ftl.data (st * unitSectors + p) d } }

/-- Read a sector of a unit; none for Unrecovered Read Error (R486, R516). -/
def Mdl.readSector (s : Mdl) (u x : Nat) : Option Sector :=
  match s.source u x with
  | .zeros => some 0
  | .at st p => if s.sectorBad st p then none else some (s.stripeSector st p)
  | .lost => none

/-- Lower VALID of the stripe that holds a sector's newest copy. -/
def Mdl.dropLive (s : Mdl) (u x : Nat) : Mdl :=
  match s.source u x with
  | .at st _ => s.lowerValid st 1
  | _ => s

/-- Sectors `lo` up to `lo + n - 1` lose their newest copies. -/
def Mdl.dropRun (s : Mdl) (u lo n : Nat) : Mdl := (List.range n).foldl (fun s i => s.dropLive u (lo + i)) s

/-! ### Code classes (R129, R483, R574) -/

/-- REGIONS.ECC of the chart in force, or the default. -/
def Mdl.regionEcc (s : Mdl) : Nat := match s.cht.chart with
  | some c => c.ecc
  | none => Chart.defaultEcc

/-- The namespace that holds a unit. -/
def Mdl.nsOfUnit (s : Mdl) (u : Nat) : Option Ns :=
  s.host.ns.findSome? fun p => match p.2 with
    | some n => if n.kind != .memory && decide (n.first ≤ u) && decide (u < n.first + n.units) then some n else none
    | none => none

/-- Is a unit's data stripe of the light class? -/
def Mdl.unitLight (s : Mdl) (u : Nat) : Bool :=
  match s.nsOfUnit u with
  | some n => if n.cls = 2 then true else if n.cls = 1 then false else bit s.regionEcc 0
  | none => bit s.regionEcc 0

/-! ### Writes (R517 to R522) -/

/-- Stripes open for fills and zones. -/
def Mdl.openFills (s : Mdl) : Nat :=
  (s.ftl.map.filter fun p => p.2.mapped && (p.2.filling || p.2.zone) && (s.stripe p.2.stripe).state == .opened).length

/-- The slot of the active cartridge a unit's log writes go to (R517). -/
def Mdl.logSlot (s : Mdl) (u : Nat) : Option Nat :=
  let m := s.unit u
  let sl := (s.stripe m.stripe).slot
  if m.mapped && !m.lost && s.activeSlots.contains sl then some sl
  else if s.activeSlots.isEmpty then none
  else s.activeSlots[u % s.activeSlots.length]?

/-- Open a new log stripe in a slot (R521). -/
def Mdl.openLogStripe (s : Mdl) (slot : Nat) : Option Mdl :=
  if 2048 ≤ s.roleCount 2 then none
  else (s.takeStripe slot 2 true s.ftl.logSeq false false).map fun r =>
    { r.2 with ftl := { r.2.ftl with
        openLog := Table.set 0 r.2.ftl.openLog slot (r.1 + 1), logSeq := r.2.ftl.logSeq + 1
        unitLists := Table.set [] r.2.ftl.unitLists r.1 [] } }

/-- The log stripe that takes the next sector of unit `u` in a slot: a full one is left to its last row's program, one with 1,024 other units is
sealed (R521, R522, Table 11-3). -/
def Mdl.logStripeFor (s : Mdl) (slot u : Nat) : Option (Nat × Mdl) :=
  let cur := Table.get 0 s.ftl.openLog slot
  let open1 := fun (s : Mdl) => (s.openLogStripe slot).map fun s => (Table.get 0 s.ftl.openLog slot - 1, s)
  if cur = 0 then open1 s
  else
    let i := cur - 1
    let e := s.stripe i
    let units := Table.get [] s.ftl.unitLists i
    if e.state ≠ .opened ∨ unitSectors ≤ Table.get 0 s.ftl.next i then open1 s
    else if 1024 ≤ units.length ∧ !units.contains u then open1 (s.sealStripe i)
    else some (i, s)

/-- Write one sector through the log; none when it must wait (R521, R524). -/
def Mdl.logWrite (s : Mdl) (u x : Nat) (d : Sector) : Option Mdl :=
  if 8388608 ≤ s.ftl.index.length then none
  else
    (s.logSlot u).bind fun slot => (s.logStripeFor slot u).map fun r =>
      let i := r.1
      let p := Table.get 0 r.2.ftl.next i
      let s := (r.2.dropLive u x).setStripeSector i p d
      let s := s.raiseValid i 1
      let q := s.ftl.seq
      let s := s.journal 0x04 (u + x * 2 ^ 19 + i * 2 ^ 36 + p * 2 ^ 55)
      let l := Table.get [] s.ftl.unitLists i
      ({ s with ftl := { s.ftl with
          index := .put u x i p q :: s.ftl.index
          next := Table.set 0 s.ftl.next i (p + 1)
          unitLists := if l.contains u then s.ftl.unitLists else Table.set [] s.ftl.unitLists i (u :: l) } }).showLog

/-- Write sectors through the log, in order. -/
def Mdl.logWriteAll (s : Mdl) (u x : Nat) : List Sector → Option Mdl
  | [] => some s
  | d :: t => (s.logWrite u x d).bind fun s => Mdl.logWriteAll s u (x + 1) t

/-- Write sectors into a unit's fill or zone stripe at FILL; older log-index entries of those sectors are dropped, so that a
read returns the newest write (DEDUCED, assumption log entry 14). -/
def Mdl.fillWrite (s : Mdl) (u : Nat) (ds : List Sector) : Mdl :=
  let m := s.unit u
  let n := ds.length
  let s := s.dropRun u m.fill n
  let s := { s with ftl := { s.ftl with index := s.ftl.index.flatMap (LogEnt.cut u m.fill (m.fill + n)) } }
  let s := (List.range n).foldl (fun s i => s.setStripeSector m.stripe (m.fill + i) (ds.getD i 0)) s
  (s.raiseValid m.stripe n).setUnit u { m with fill := m.fill + n, lastFill := s.epoch }

/-- Take a new data stripe for a unit's fill or zone (R517): from the cartridge of the unit's log writes, else the lowest slot that has one
(DESIGN CHOICE, assumption log entry 14: the rule names no slot). -/
def Mdl.newFill (s : Mdl) (u : Nat) (zone : Bool) : Option Mdl :=
  if s.activeSlots.isEmpty then none
  else
    let slot := s.activeSlots.getD (u % s.activeSlots.length) 0
    let slots := slot :: s.activeSlots.filter (· ≠ slot)
    (slots.findSome? fun sl => s.takeStripe sl 1 (s.unitLight u) u false false).map fun r =>
      r.2.mapSet u { MapEntry.none with stripe := r.1, mapped := true, filling := !zone, zone := zone, lastFill := s.epoch }

/-- A sector write of a run inside one unit of an NVM namespace (R517); none when it must wait. -/
def Mdl.writeRun (s : Mdl) (u x : Nat) (ds : List Sector) : Option Mdl :=
  let m := s.unit u
  if m.filling && m.fill == x && (s.stripe m.stripe).state == .opened && decide (x + ds.length ≤ unitSectors) then
    some (s.fillWrite u ds)
  else if !m.mapped && x == 0 && !s.ftl.index.any (fun e => e.unitOf == u) && decide (s.openFills < 224) then
    match s.newFill u false with
    | some s => some (s.fillWrite u ds)
    | none => s.logWriteAll u x ds
  else s.logWriteAll u x ds

/-! ### Deallocation (R535, R550) -/

/-- Drop every log-index entry of a unit. -/
def Mdl.dropIndex (s : Mdl) (u : Nat) : Mdl :=
  let gone := s.ftl.index.filterMap fun e => match e with
    | .put v x st _ _ => if v = u then some (x, st) else none
    | _ => none
  let s := gone.foldl (fun s g => match s.source u g.1 with
    | .at st _ => if st = g.2 then s.lowerValid st 1 else s
    | _ => s) s
  ({ s with ftl := { s.ftl with index := s.ftl.index.filter fun e => e.unitOf != u } }).showLog

/-- What a migration copy has programmed on the spare cartridge is erased before the stripe is copied again (R533, R545). -/
def Mdl.eraseTarget (s : Mdl) (c : Copy) : Mdl := match s.ftl.migration with
  | none => s
  | some m => (List.range 16).foldl (fun (s : Mdl) g =>
      let b := c.blk.getD g (0, 0)
      let a : BlkAddr := ⟨m.target, groupDie g b.1, b.2⟩
      { s with med := { s.med with blocks := Table.modify .init s.med.blocks a.key fun x => if x.rows = 0 then x else { x with reerase := true } } }) s

/-- Abandon a copy: COPY_ABORT, its target STALE (R533 to R535); a migration's target is the stripe's own new place, and the stripe stays. -/
def Mdl.abandonCopy (s : Mdl) (c : Copy) : Mdl :=
  let s := s.journal 0x0A c.number
  let s := if c.kind = .migration then s.eraseTarget c else s.staleStripe c.target
  { s with ftl := { s.ftl with copies := s.ftl.copies.filter fun d => d.number != c.number } }

/-- Deallocate a whole unit: MAPPED and LOST clear, its entries are dropped, its stripe's VALID falls to 0 (R543, R550). -/
def Mdl.deallocUnit (s : Mdl) (u : Nat) : Mdl :=
  let s := (s.ftl.copies.filter fun c => c.unit == some u).foldl (fun s c =>
    (s.abandonCopy c).countSat Reg.FTL_GC_COUNT_ABANDONED) s
  let s := s.dropIndex u
  let m := s.unit u
  if m.mapped then
    let s := (s.setUnit u .none).journal 0x03 u
    if m.lost then s
    else
      let s := s.sealStripe m.stripe
      (s.setStripe m.stripe { s.stripe m.stripe with valid := 0 }).staleIfEmpty m.stripe
  else s

/-- Deallocate part of a unit: a trim entry (R550). -/
def Mdl.trimRun (s : Mdl) (u x n : Nat) : Mdl :=
  let s := s.dropRun u x n
  let q := s.ftl.seq
  let s := s.journal 0x05 (u + x * 2 ^ 19 + n * 2 ^ 36)
  ({ s with ftl := { s.ftl with index := .trim u x n q :: s.ftl.index } }).showLog

/-! ### The far region (R341, R525, R526) -/

/-- The active cartridge of page `n` of account `a` (R341). -/
def Mdl.farSlot (s : Mdl) (a n : Nat) : Option Nat :=
  if s.activeSlots.isEmpty then none else s.activeSlots[(n + a) % s.activeSlots.length]?

/-- Has the far region room for one more page in this slot (R526)? -/
def Mdl.farRoom (s : Mdl) (slot : Nat) : Bool :=
  let cur := Table.get 0 s.ftl.openFar slot
  (cur != 0 && (s.stripe (cur - 1)).state == .opened && decide (Table.get 0 s.ftl.next (cur - 1) < 240))
    || (decide (s.roleCount 3 < s.reg Reg.FTL_FAR_LIMIT_LIMIT) && decide (64 < s.freeCount slot))

/-- Forget a far copy: the old copy is dead. -/
def Mdl.farDrop (s : Mdl) (key : Nat) : Mdl :=
  let v := Table.get 0 s.ftl.far key
  if v = 0 then s
  else
    let s := { s with ftl := { s.ftl with far := Table.set 0 s.ftl.far key 0 } }
    s.lowerValid ((v - 1) / 240) 512

/-- Append a page to the open far stripe of a slot and set the page map (R525); none when there is no room. Every far stripe, one of spilled KV
pages too, takes ECC bit 2 of the regions; bits 1 and 3 have no stripe role in Table 11-1 and are used nowhere (DESIGN CHOICE, assumption log
entry 14). -/
def Mdl.farPut (s : Mdl) (slot key : Nat) : Option Mdl :=
  let cur := Table.get 0 s.ftl.openFar slot
  let fits := cur != 0 && (s.stripe (cur - 1)).state == .opened && decide (Table.get 0 s.ftl.next (cur - 1) < 240)
  let ready : Option Mdl :=
    if fits then some s
    else
      if s.reg Reg.FTL_FAR_LIMIT_LIMIT ≤ s.roleCount 3 then none
      else (s.takeStripe slot 3 (bit s.regionEcc 2) s.ftl.farSeq false false).map fun r =>
        { r.2 with ftl := { r.2.ftl with openFar := Table.set 0 r.2.ftl.openFar slot (r.1 + 1), farSeq := r.2.ftl.farSeq + 1 } }
  ready.map fun s =>
    let s := s.farDrop key
    let i := Table.get 0 s.ftl.openFar slot - 1
    let p := Table.get 0 s.ftl.next i
    let s := { s with ftl := { s.ftl with far := Table.set 0 s.ftl.far key (i * 240 + p + 1), next := Table.set 0 s.ftl.next i (p + 1) } }
    s.raiseValid i 512

end Sys2Proof.Machine
end

