-- ==== Sys2Proof/Machine/FlashOps.lean ====
section
/-! DEFINITION. Flash dies and die-blocks: addresses, failed die-blocks and their replacement, reads that meet a busy die,
copies and sealing (R467 to R482, R520, R523 to R540). -/
namespace Sys2Proof.Machine

/-! ### Dies and die-blocks -/

def Mdl.die (s : Mdl) (slot die : Nat) : DieOp := Table.get .idle s.med.dies (dieKey slot die)
def Mdl.blk (s : Mdl) (a : BlkAddr) : BlkSt := Table.get .init s.med.blocks a.key
def Mdl.setBlk (s : Mdl) (a : BlkAddr) (b : BlkSt) : Mdl :=
  { s with med := { s.med with blocks := Table.set .init s.med.blocks a.key b } }

/-- Groups of a slot with a die for which `p` holds, as a mask. -/
def Mdl.groupMask (s : Mdl) (slot : Nat) (p : DieOp → Bool) : Nat :=
  maskOf ((List.range 16).filter fun g => (List.range 8).any fun n => p (s.die slot (groupDie g n)))

/-- Set a die's state and show it in MED_SLOT_STATUS (Table 10-16). -/
def Mdl.setDie (s : Mdl) (slot die : Nat) (o : DieOp) : Mdl :=
  let s := { s with med := { s.med with dies := Table.set .idle s.med.dies (dieKey slot die) o } }
  s.setRegs [
    (Reg.MED_SLOT_STATUS_PROGRAMMING slot, s.groupMask slot (fun o => match o with | .programming .. => true | _ => false)),
    (Reg.MED_SLOT_STATUS_ERASING slot, s.groupMask slot (fun o => match o with | .erasing .. => true | _ => false)),
    (Reg.MED_SLOT_STATUS_SUSPENDED slot, s.groupMask slot (fun o => match o with | .suspended .. => true | _ => false))]

/-- Bits [25:0] of a physical flash address (Table 10-1). -/
def BlkAddr.phys (a : BlkAddr) : Nat := a.slot + a.die / 16 * 2 ^ 4 + a.die % 16 * 2 ^ 8 + a.block * 2 ^ 12
/-- The whole physical address of a codeword (Table 10-1): `cw` counts the 16 codewords of the page row. -/
def BlkAddr.physCw (a : BlkAddr) (row cw : Nat) : Nat := a.phys + cw / 4 * 2 ^ 26 + row * 2 ^ 28 + cw % 4 * 2 ^ 37

/-- The die-block of group `g` of a stripe. -/
def Stripe.place (e : Stripe) (g : Nat) : BlkAddr :=
  let b := e.blk.getD g (0, 0)
  ⟨e.slot, groupDie g b.1, b.2⟩

/-- Stripes whose default entry could hold a die-block: its own position, and positions of factory bad die-blocks. -/
def Mdl.defaultHolders (s : Mdl) (a : BlkAddr) : List Nat :=
  let n := a.die % 16 / 2
  let js := (8 * a.block + n) :: ((s.badBlocks a.slot).filter fun p => p.1 == a.die).map fun p => 8 * p.2 + n
  ((List.range 8).filter fun b => (s.ftl.bankFormat b).1 == a.slot).flatMap fun b =>
    (js.filter fun j => decide (j < 65536)).map fun j => 65536 * b + j

/-- The stripe that holds a die-block. -/
def Mdl.stripeOf (s : Mdl) (a : BlkAddr) : Option Nat :=
  let holds := fun (e : Stripe) => (List.range 16).any fun g => e.place g == a
  match s.listed.find? fun p => p.2.state != .retired && holds p.2 with
  | some p => some p.1
  | none => (s.defaultHolders a).find? fun i => (Table.get none s.ftl.stripes i).isNone && holds (s.stripe i)

/-- Is an operation on a die running: programming or erasing? -/
def DieOp.busy : DieOp → Bool
  | .programming .. => true
  | .erasing .. => true
  | _ => false

/-! ### Reads that meet a die (Table 10-4, R480) -/

/-- May a detour serve a read of a row of a die-block (R480)? -/
def Mdl.detourOk (s : Mdl) (a : BlkAddr) (row : Nat) : Bool :=
  match s.stripeOf a with
  | none => false
  | some i =>
    let e := s.stripe i
    let others := (List.range 16).filter fun g => e.place g != a
    s.flag Reg.MED_CTRL_DETOUR_EN && decide (row < e.rows) && others.all (fun g => !bit e.failed g)
      && others.all fun g => !(s.die (e.place g).slot (e.place g).die).busy

/-- Foreground reads go before background ones (R479). -/
def DieRead.fore (r : DieRead) : Bool := r.origin != .background

/-- What a read does at its die; or it is served from the write buffer (R474), or rebuilt from the other dies of its stripe (R478). -/
inductive ReadAct where
  | direct | detour | suspend | wait | buffer | rebuild
  deriving DecidableEq, Repr

/-- Does the write buffer still hold the row that a read names: one of its stripe whose parity page row is not programmed (R474)? -/
def Mdl.rowBuffered (s : Mdl) (a : BlkAddr) (row : Nat) : Bool := match s.stripeOf a with
  | some i => ((s.stripe i).state == .opened || (s.stripe i).state == .sealed) && decide ((s.stripe i).rows ≤ row)
  | none => false

/-- Are the other dies of a stripe free to rebuild a row of a failed die-block? -/
def Mdl.rebuildOk (s : Mdl) (a : BlkAddr) : Bool := match s.stripeOf a with
  | some i => ((List.range 16).filter fun g => (s.stripe i).place g != a).all fun g =>
      let p := (s.stripe i).place g
      !(s.die p.slot p.die).busy
  | none => true

/-- What a die's state lets a read do (Table 10-4); a suspend for reads serves up to 8 of the foreground reads. The table has no row for the
moment at which a suspend completes: reads that arrive before the resume count as queued by then (R482; DESIGN CHOICE, assumption log entry 58). -/
def Mdl.dieAct (s : Mdl) (r : DieRead) : ReadAct :=
  let busy (erasing : Bool) :=
    if !r.fore then ReadAct.wait
    else if s.detourOk r.blk r.row then .detour
    else if erasing && s.flag Reg.MED_CTRL_ERASE_SUSPEND_READ then .suspend
    else .wait
  match s.die r.blk.slot r.blk.die with
  | .idle => .direct
  | .programming .. => busy false
  | .erasing _ => busy true
  | .suspended b n => if b = r.blk.block ∨ (r.fore ∧ 8 ≤ n.getD 0) then .wait else .direct

/-- Table 10-4; a diagnostic raw read goes to its die whatever the buffer holds (Table 10-20). A row of a failed die-block is rebuilt by parity while no other
die of its stripe is busy, and waits else (R478). -/
def Mdl.readAct (s : Mdl) (r : DieRead) : ReadAct :=
  if s.med.raw.any (fun w => w.1 == r.blk) && !r.fore then s.dieAct r
  else if s.rowBuffered r.blk r.row then .buffer
  else if (s.blk r.blk).failed then (if s.rebuildOk r.blk then .rebuild else .wait)
  else s.dieAct r

/-- The channel of a die (R467). -/
def BlkAddr.chan (a : BlkAddr) : Nat := 8 * a.slot + a.die / 16

/-- A read's die has read its row: a host or Coudé read waits for its transfers on the channel (R364). -/
def Mdl.toChannel (s : Mdl) (r : DieRead) : Mdl :=
  if r.origin = .host ∨ r.origin = .coude then
    { s with med := { s.med with channels := Table.modify .init s.med.channels r.blk.chan fun x => { x with queue := x.queue ++ [r] } } }
  else s

/-- A read is served by its die (Table 10-4); a die suspended for reads counts it (R482). -/
def Mdl.readDirect (s : Mdl) (r : DieRead) : Mdl :=
  let s := s.toChannel r
  match s.die r.blk.slot r.blk.die with
  | .suspended b (some n) => if r.fore then s.setDie r.blk.slot r.blk.die (.suspended b (some (n + 1))) else s
  | _ => s

/-- A die has become free for reads: those waiting for it that it can now serve directly go to it, foreground ones first, each in order of
arrival (R479); so do rebuilds that waited for dies of the cartridge. -/
def Mdl.serveWaiting (s : Mdl) (slot die : Nat) : Mdl :=
  let mine := s.med.waiting.filter fun r => r.blk.slot == slot && (r.blk.die == die || (s.blk r.blk).failed)
  (mine.filter DieRead.fore ++ mine.filter fun r => !r.fore).foldl (fun (s : Mdl) r =>
    let left : Mdl := { s with med := { s.med with waiting := s.med.waiting.erase r } }
    match s.readAct r with
    | .direct => left.readDirect r
    | .rebuild => left.toChannel r
    | .buffer => left
    | _ => s) s

/-- An erase is suspended for a read, which takes its place behind the others that wait for its die (R479, R482). -/
def Mdl.suspendFor (s : Mdl) (r : DieRead) : Mdl :=
  let sl := r.blk.slot
  let b := match s.die sl r.blk.die with | .erasing b => b | _ => 0
  let s := (s.countSat (Reg.MED_SLOT_READ_SUSPENDS sl)).countSat (Reg.MED_SLOT_READ_WAITED sl)
  let s := s.setDie sl r.blk.die (.suspended b (some 0))
  { s with med := { s.med with waiting := s.med.waiting ++ [r] } }.serveWaiting sl r.blk.die

/-- A read waits at its die. -/
def Mdl.readWait (s : Mdl) (r : DieRead) : Mdl :=
  let s := if r.fore then s.countSat (Reg.MED_SLOT_READ_WAITED r.blk.slot) else s
  { s with med := { s.med with waiting := s.med.waiting ++ [r] } }

/-- A read reaches its die (R479, Tables 10-4 and 10-15). -/
def Mdl.startRead (s : Mdl) (r : DieRead) : Mdl :=
  match s.readAct r with
  | .direct => s.readDirect r
  | .detour => s.countSat (Reg.MED_SLOT_READ_DETOURS r.blk.slot) r.cws
  | .suspend => s.suspendFor r
  | .wait => s.readWait r
  | .buffer => s
  | .rebuild => s.toChannel r

/-! ### Channels (R364) -/

/-- Of each 64 read transfers for which both paths wait, the Coudé path's part, rounded down (DESIGN CHOICE, assumption log entry 58). -/
def Mdl.coudeShare (s : Mdl) : Nat := 64 * s.reg Reg.TIR_COUDE_SHARE_PERCENT / 100

/-- Do both paths wait on a channel? -/
def ChanSt.both (x : ChanSt) : Bool := x.queue.any (fun r => r.origin == .host) && x.queue.any (fun r => r.origin == .coude)

/-- The channel grants a read that waits for it its transfers, or grants the other path's first (R364): whether, and the state after. -/
def Mdl.grantTransfer (s : Mdl) (a : BlkAddr) (row : Nat) (coude : Bool) : Bool × Mdl :=
  let x := Table.get ChanSt.init s.med.channels a.chan
  match x.queue.find? fun r => r.blk == a && r.row == row && (r.origin == .coude) == coude with
  | none => (true, s)
  | some r =>
    if x.both && decide (if coude then s.coudeShare ≤ x.coude else 64 - s.coudeShare ≤ x.host) then (false, s)
    else
      let n := if x.both then (if coude then (x.host, x.coude + r.cws) else (x.host + r.cws, x.coude)) else (x.host, x.coude)
      let y : ChanSt := if 64 ≤ n.1 + n.2 then ⟨x.queue.erase r, 0, 0⟩ else ⟨x.queue.erase r, n.1, n.2⟩
      (true, { s with med := { s.med with channels := Table.set .init s.med.channels a.chan y } })

/-- FLASH_READ: a background read, a copy's source read, is made in the GC window of its slot alone; foreground reads are not gated (R100). -/
def Mdl.flashRead (s : Mdl) (r : DieRead) : Mdl :=
  if r.origin = .background ∧ !s.windowOpen 3 r.blk.slot then s.want 3 r.blk.slot else s.startRead r

/-! ### Sealing and failed die-blocks (R520, R536 to R540) -/

/-- Seal a fill early at its last complete row: sectors of the row that is not complete go to the log, so that no
acknowledged write is lost (R520; DEDUCED, assumption log entry 14). -/
def Mdl.sealFill (s : Mdl) (u : Nat) : Mdl :=
  let m := s.unit u
  let e := s.stripe m.stripe
  if m.filling ∧ e.state = .opened then
    let full := min m.fill (e.rows * 240)
    let tail := ((List.range (m.fill - full)).map (full + ·)).filter fun x => s.source u x == .at m.stripe x
    let cut := { m with filling := false, fill := full }
    let moved := tail.foldl (fun (t : Option Mdl) x => t.bind fun t => t.logWrite u x (s.stripeSector m.stripe x)) (some (s.setUnit u cut))
    match moved with
    | some s =>
      let s := (s.mapSet u cut).lowerValid m.stripe tail.length
      (s.sealStripe m.stripe).staleIfEmpty m.stripe
    | none => (s.mapSet u { m with filling := false }).sealStripe m.stripe
  else s

/-- Finish a zone: its stripe is sealed (R553, R554). -/
def Mdl.finishZone (s : Mdl) (u : Nat) (byController : Bool) : Mdl :=
  let m := s.unit u
  if m.mapped then (s.setUnit u { m with full := true, byController := byController }).sealStripe m.stripe
  else s.setUnit u { m with zone := true, full := true, byController := byController }

/-- Take a spare die-block for group `g` of slot `slot`, die index `n` first (R539, R540): die index and block. -/
def Mdl.takeSpare (s : Mdl) (slot g n : Nat) : Option ((Nat × Nat) × Mdl) :=
  let order := n :: (List.range 8).filter (· ≠ n)
  let bad := s.badBlocks slot
  let pick := fun (n : Nat) =>
    let d := groupDie g n
    let used := Table.get [] s.ftl.sparesUsed (dieKey slot d)
    let atFormat := (bad.filter fun p => p.1 == d && decide (p.2 < 8192)).length
    let good := ((List.range 256).filter fun x => !bad.contains (d, 8192 + x)).drop atFormat
    match (s.joinedBlocks slot d).min? with
    | some b => some (n, b)
    | none => (good.find? fun x => !used.contains (8192 + x)).map fun x => (n, 8192 + x)
  (order.findSome? pick).map fun p =>
    let k := dieKey slot (groupDie g p.1)
    (p, if p.2 < 8192 then s else { s with ftl := { s.ftl with sparesUsed := Table.set [] s.ftl.sparesUsed k (p.2 :: Table.get [] s.ftl.sparesUsed k) } })

/-- Replace the failed die-block of group `g` of stripe `i`, journaling BLOCK_SUBST; none when its group has no spare. -/
def Mdl.substBlock (s : Mdl) (i g : Nat) : Option Mdl :=
  let e := s.stripe i
  (s.takeSpare e.slot g (e.blk.getD g (0, 0)).1).map fun r =>
    let s := r.2
    let e := { e with blk := e.blk.set g r.1, failed := e.failed - (if bit e.failed g then 2 ^ g else 0) }
    (s.setStripe i e).journal 0x0C (i + g * 2 ^ 19 + r.1.1 * 2 ^ 23 + r.1.2 * 2 ^ 26)

/-- A stripe whose content is gone, or that is retired, is no more in any secure discard's way (R551). -/
def Mdl.leftDiscards (s : Mdl) (i : Nat) : Mdl :=
  { s with ftl := { s.ftl with discards := s.ftl.discards.map fun d =>
      { d with leave := d.leave.filter (· ≠ i), erase := d.erase.filter (· ≠ i) } } }

/-- The lifetime counts of the cartridge in a slot, which the next checkpoint writes into it (R542). -/
def Mdl.cartCount (s : Mdl) (slot erases failed retired : Nat) : Mdl :=
  { s with svc := { s.svc with cartIds := Table.modify none s.svc.cartIds slot fun c => c.map fun c =>
      { c with totalErases := c.totalErases + erases, failedBlocks := c.failedBlocks + failed, retiredStripes := c.retiredStripes + retired } } }

/-- Retire a stripe: every good die-block joins its group's pool (Table 11-3). -/
def Mdl.retireStripe (s : Mdl) (i : Nat) : Mdl :=
  let e := s.stripe i
  let s := (List.range 16).foldl (fun s g =>
    let b := e.blk.getD g (0, 0)
    if bit e.failed g then s
    else
      let k := dieKey e.slot (groupDie g b.1)
      { s with ftl := { s.ftl with sparesUsed := Table.modify [] s.ftl.sparesUsed k (fun l => l.filter (· ≠ b.2)) } }) s
  let s := (s.leftDiscards i).putStripe i { e with state := .retired, role := 0, valid := 0 }
  (s.cartCount e.slot 0 0 1).showSpare

/-- Replace every failed die-block of a stripe, or retire the stripe. -/
def Mdl.substFailed (s : Mdl) (i : Nat) : List Nat → Mdl
  | [] => s
  | g :: t =>
    if bit (s.stripe i).failed g then
      match s.substBlock i g with
      | some s => Mdl.substFailed s i t
      | none => s.retireStripe i
    else Mdl.substFailed s i t

/-- Take the name of a copy: COPY_BEGIN and COPY_SOURCE records (R531 step 1). Its sources are read in the GC windows of their slots (R100);
`blk` is where a migration's target lies. A log stripe's copy takes its sources' unit lists (R522). -/
def Mdl.beginCopy (s : Mdl) (kind : CopyKind) (target : Nat) (sources : List Nat) (unit : Option Nat) (blk : List (Nat × Nat) := []) : Mdl :=
  let n := s.ftl.copyNumber % 65536
  let q := s.ftl.seq
  let unread := ((sources.map fun i => (s.stripe i).slot).filter fun sl => !s.windowOpen 3 sl).eraseDups
  let s := s.journal 0x07 (n + target * 2 ^ 16 + kind.code * 2 ^ 35)
  let s := sources.foldl (fun s x => s.journal 0x08 (n + x * 2 ^ 16)) s
  let units := (sources.flatMap fun i => Table.get [] s.ftl.unitLists i).eraseDups
  { s with ftl := { s.ftl with
    unitLists := if unit.isNone && kind != .migration then Table.set [] s.ftl.unitLists target units else s.ftl.unitLists
    copies := ⟨n, kind, target, sources, unit, q, unread, blk⟩ :: s.ftl.copies, copyNumber := s.ftl.copyNumber + 1 } }

/-- The GC window of a slot is open: copies read their sources there (R100). -/
def Mdl.readSources (s : Mdl) (slot : Nat) : Mdl :=
  { s with ftl := { s.ftl with copies := s.ftl.copies.map fun c => { c with unread := c.unread.filter (· ≠ slot) } } }

/-- The migration copy of a stripe, when one runs. -/
def Mdl.moving (s : Mdl) (i : Nat) : Option Copy := s.ftl.copies.find? fun c => c.kind == .migration && c.target == i

/-- The die-block of group `g` that programs of stripe `i` go to: its own, or its new place on the spare cartridge while it moves (R545). -/
def Mdl.workPlace (s : Mdl) (i g : Nat) : BlkAddr := match s.moving i, s.ftl.migration with
  | some c, some m =>
    let b := c.blk.getD g (0, 0)
    ⟨m.target, groupDie g b.1, b.2⟩
  | _, _ => (s.stripe i).place g

/-- The stripe that moves to a die-block. -/
def Mdl.movingTo (s : Mdl) (a : BlkAddr) : Option Nat :=
  (s.ftl.copies.find? fun c => c.kind == .migration && (List.range 16).any fun g => s.workPlace c.target g == a).map (·.target)

/-- Is a stripe a copy source already? -/
def Mdl.isSource (s : Mdl) (i : Nat) : Bool := s.ftl.copies.any fun c => c.sources.contains i

/-- The spare-exhaustion path (R547): without a parked spare the module enters read-only media state; with one, a migration
starts when none runs (`start` is the migration's own start). -/
def Mdl.exhausted (s : Mdl) (start : Mdl → Mdl) : Mdl :=
  match s.parkedSpare with
  | some _ => if s.ftl.migration.isNone then start s else s
  | none => s.enterReadOnly

/-- The most-worn active cartridge (R544). -/
def Mdl.mostWorn (s : Mdl) : Option Nat :=
  s.activeSlots.foldl (fun (a : Option Nat) sl =>
    match a with
    | none => some sl
    | some b =>
      let w := fun (x : Nat) => s.meanErases x
      let r := fun (x : Nat) => (s.listed.filter fun p => p.2.slot == x && p.2.state == .retired).length
      if w b < w sl ∨ (w b = w sl ∧ r b < r sl) then some sl else some b) none

/-- Entries that still name a slot. -/
def Mdl.entriesNaming (s : Mdl) (slot : Nat) : Nat :=
  (s.listed.filter fun p => p.2.slot == slot).length
    + (List.range 8).foldl (fun a b =>
        if (s.ftl.bankFormat b).1 = slot then a + (65536 - (s.ftl.stripes.filter fun p => p.1 / 65536 == b).length) else a) 0

/-- FTL_MIGRATE as it stands; NO_WINDOW while the active bank lacks program and erase windows of a group of the spare slot (R546). -/
def Mdl.showMigrate (s : Mdl) : Mdl :=
  match s.ftl.migration with
  | some m =>
    let windows := (List.range 16).all fun g =>
      let t := m.target + 16 * g
      s.activeEntries.any (Eph.serves 1 t) && s.activeEntries.any (Eph.serves 2 t)
    s.setRegs [(Reg.FTL_MIGRATE_ACTIVE, 1), (Reg.FTL_MIGRATE_NO_WINDOW, b2n !windows), (Reg.FTL_MIGRATE_SOURCE, m.source),
      (Reg.FTL_MIGRATE_TARGET, m.target), (Reg.FTL_MIGRATE_REMAINING, s.entriesNaming m.source)]
  | none => s.setRegs [(Reg.FTL_MIGRATE_ACTIVE, 0), (Reg.FTL_MIGRATE_NO_WINDOW, 0), (Reg.FTL_MIGRATE_REMAINING, 0)]

/-- Position `j` of the spare cartridge, set STALE (R545), with the erases of the spare's stripe since its format (Table 11-2). -/
def Mdl.moveEntry (s : Mdl) (spare i : Nat) : Mdl :=
  let e := s.stripe i
  let bad := s.badBlocks spare
  s.putStripe i { e with state := .stale, role := 0, slot := spare, failed := 0, valid := 0, erased := 0, erases := 0
                         blk := (List.range 16).map (formatBlock bad (i % 65536)) }

/-- Rewrite the FREE, STALE and RETIRED entries of a bank that still name the source (R545). -/
def Mdl.migrateEntries (s : Mdl) (m : Migration) : Mdl :=
  let s := { s with ftl := { s.ftl with banks :=
    if (s.ftl.bankFormat m.bank).1 = m.source then Table.set none s.ftl.banks m.bank (some (m.target, true)) else s.ftl.banks } }
  s.listed.foldl (fun s p =>
    if p.1 / 65536 = m.bank ∧ p.2.slot = m.source ∧ (p.2.state = .free ∨ p.2.state = .stale ∨ p.2.state = .retired)
    then s.moveEntry m.target p.1 else s) s

/-- A migration starts (R544): the lost cartridge or the most-worn active one moves onto the parked spare. -/
def Mdl.startMigration (s : Mdl) : Mdl :=
  if s.ftl.migration.isSome then s
  else
    let src := match s.ftl.lostSlots with
      | x :: _ => some x
      | [] => s.mostWorn
    match s.parkedSpare, src with
    | some spare, some src =>
      let bank := (((List.range 8).find? fun b => bits (s.reg Reg.FTL_BANK_SLOT_SLOTS) (4 * b) 4 == src).or
        ((List.range 8).find? fun b => (s.ftl.bankFormat b).1 == src)).getD 0
      let m : Migration := ⟨src, spare, bank⟩
      let s := { s with ftl := { s.ftl with migration := some m } }.logBook 0x0B (src + spare * 16)
      (s.migrateEntries m).showMigrate
    | _, _ => s

/-- SPARE has reached 0: the spare-exhaustion path (R547). -/
def Mdl.spareCheck (s : Mdl) : Mdl :=
  if decide (s.spareWith (s.reg Reg.FTL_FAR_LIMIT_LIMIT) ≤ (0 : Int)) then s.exhausted Mdl.startMigration else s

/-- A copy's target of a role in a slot (R515, R530): a log or far stripe takes the next sequence number of its role (Table 11-2). -/
def Mdl.takeTarget (s : Mdl) (slot role : Nat) (light cold : Bool) (unit : Nat) : Option (Nat × Mdl) :=
  let owner := if role = 1 then unit else if role = 2 then s.ftl.logSeq else s.ftl.farSeq
  (s.takeStripe slot role light owner true cold).map fun r =>
    (r.1, { r.2 with ftl := { r.2.ftl with logSeq := r.2.ftl.logSeq + (if role = 2 then 1 else 0), farSeq := r.2.ftl.farSeq + (if role = 3 then 1 else 0) } })

/-- A copy found no FREE stripe: the spare-exhaustion path (R534, R547). -/
def Mdl.abandonForSpace (s : Mdl) : Mdl :=
  (s.countSat Reg.FTL_GC_COUNT_ABANDONED).exhausted Mdl.startMigration

/-- The slot a merge of unit `u` writes into (R530). -/
def Mdl.mergeSlot (s : Mdl) (u : Nat) : Option Nat :=
  let m := s.unit u
  let own := (s.stripe m.stripe).slot
  let roomy := s.activeSlots.foldl (fun (a : Option (Nat × Nat)) sl =>
    match a with
    | none => some (s.freeCount sl, sl)
    | some b => if b.1 < s.freeCount sl then some (s.freeCount sl, sl) else some b) none
  if m.mapped && !m.lost && decide (0 < s.freeCount own) then some own else roomy.map (·.2)

/-- What a merge of a unit reads: its data stripe, and the log stripes that hold its content (R523). -/
def Mdl.mergeSources (s : Mdl) (u : Nat) : List Nat :=
  let m := s.unit u
  let logs := s.ftl.index.filterMap fun e => match e with
    | .put v x st p _ => if v = u ∧ s.source u x = .at st p then some st else none
    | _ => none
  (if m.mapped && !m.lost then [m.stripe] else []) ++ logs.eraseDups

/-- Start a merge of unit `u` (R523), or the repair of its data stripe, which copies as a merge does (R527; DEDUCED, assumption log entry 14): a
filling stripe is sealed first (DESIGN CHOICE, assumption log entry 14). -/
def Mdl.startMerge (s : Mdl) (u : Nat) (cold : Bool) (kind : CopyKind := .merge) : Mdl :=
  if s.ftl.copies.any fun c => c.unit == some u then s
  else
    let s := s.sealFill u
    match (s.mergeSlot u).bind fun sl => s.takeTarget sl 1 (s.unitLight u) cold u with
    | none => s.abandonForSpace
    | some r => r.2.beginCopy kind r.1 (r.2.mergeSources u) (some u)

/-- Does a unit call for a merge (R523)? -/
def Mdl.mergeDue (s : Mdl) (u : Nat) : Bool :=
  decide (s.reg Reg.FTL_MERGE_MERGE_AT ≤ s.logCount u)
    || (decide (7340032 < s.ftl.index.length)
        && s.ftl.index.all fun e => decide (s.logCount e.unitOf ≤ s.logCount u))

/-- Restart a copy from the beginning into a fresh stripe after its target failed (R533); one of cold data takes the most-worn again (R528). -/
def Mdl.restartCopy (s : Mdl) (c : Copy) : Mdl :=
  let e := s.stripe c.target
  let cold := c.unit.any fun u => (s.unit u).mapped && (s.stripe (s.unit u).stripe).valid == unitSectors
  let s := (s.abandonCopy c).countSat Reg.FTL_GC_COUNT_RESTARTS
  match s.takeTarget e.slot e.role e.light cold e.owner with
  | none => s.abandonForSpace
  | some r => r.2.beginCopy c.kind r.1 (match c.unit with | some u => r.2.mergeSources u | none => c.sources) c.unit

/-- Mark the die-block of group `g` of stripe `i` failed, for a reason of Table 14-10's FLASH_BLOCK (R533, R536, R537, R554). -/
def Mdl.markFailed (s : Mdl) (i g why : Nat) : Mdl :=
  let e := s.stripe i
  let a := e.place g
  if bit e.failed g then s
  else
    let s := ((s.logBook 0x08 (a.phys + why * 2 ^ 26)).total .flashBlocks).cartCount a.slot 0 1 0
    let s := s.setStripe i { e with failed := e.failed + 2 ^ g }
    let s := (s.setBlk a { s.blk a with failed := true }).journal 0x0B (i + g * 2 ^ 19)
    match s.ftl.copies.find? fun c => c.target == i && c.kind != .migration with
    | some c => s.restartCopy c
    | none =>
      if e.state = .opened then
        if e.role = 1 then
          if (s.unit e.owner).zone then
            ((s.finishZone e.owner true).emit (.notice 0xBF e.owner))
          else s.sealFill e.owner
        else s.sealStripe i
      else s

/-- Is the table of a stripe's groups all erased? -/
def allErased : Nat := 65535

/-- An erased stripe is FREE (Table 11-3); its sectors are gone. -/
def Mdl.freeStripe (s : Mdl) (i : Nat) : Mdl :=
  let e := s.stripe i
  let s := s.leftDiscards i
  let keep := fun (k : Nat) => k / unitSectors != i
  let s := { s with ftl := { s.ftl with
    data := s.ftl.data.filter fun p => keep p.1
    bad := s.ftl.bad.filter fun p => keep p.1
    unitLists := Table.set [] s.ftl.unitLists i [], next := Table.set 0 s.ftl.next i 0 } }
  s.putStripe i { e with state := .free, role := 0, owner := 0, erases := min 65535 (e.erases + 1), rows := 0, erased := 0 }

/-- Erase all 16 die-blocks of a STALE or ERASING stripe at once: the whole of Table 11-3's path to FREE, for erases that
ignore windows (R101, R598). -/
def Mdl.eraseWhole (s : Mdl) (i : Nat) : Mdl :=
  let s := s.substFailed i (List.range 16)
  let e := s.stripe i
  if e.state = .stale ∨ e.state = .erasing then
    let s := (List.range 16).foldl (fun s g =>
      let a := e.place g
      let s := (s.journal 0x21 (a.phys + s.epoch * 2 ^ 32)).journal 0x22 (a.phys + s.epoch * 2 ^ 32)
      (s.setBlk a { BlkSt.init with failed := (s.blk a).failed }).cartCount a.slot 1 0 0) s
    s.freeStripe i
  else s

end Sys2Proof.Machine
end

