-- ==== Sys2Proof/Machine/Flash.lean ====
section
/-! DEFINITION. What flash programs, erases, checks, copies, the journal and the scrubber do (R472 to R509, R523 to R559).
A command carries the phase of the current epoch at which it happens. -/
namespace Sys2Proof.Machine

/-- The Ephemeris target of a die group of a slot (Table 2-16). -/
def flashTarget (slot g : Nat) : Nat := slot + 16 * g

/-- The power-loss sequence and a shutdown ignore windows (R101): stage 4 is the power-loss sequence, and a controller
has processed a shutdown notification. -/
def Mdl.ignoreWindows (s : Mdl) : Bool := s.stage == 4 || s.host.ctls.any fun p => p.2.shut

/-- Sectors of data a stripe has taken so far. -/
def Mdl.dataSectors (s : Mdl) (i : Nat) : Nat :=
  let e := s.stripe i
  if (s.moving i).isSome then 240 * e.rows
  else if e.role = 1 then (if s.ftl.copies.any fun c => c.target == i && c.kind != .migration then unitSectors else (s.unit e.owner).fill)
  else if e.role = 3 then 512 * Table.get 0 s.ftl.next i
  else if s.ftl.copies.any fun c => c.target == i && c.kind != .migration then unitSectors
  else Table.get 0 s.ftl.next i

/-! ### Refresh (R487) -/

/-- The unit and sector, or nothing, whose newest copy is a stripe's sector. -/
def Mdl.ownerOf (s : Mdl) (i p : Nat) : Option (Nat × Nat) :=
  let e := s.stripe i
  let cand : Option (Nat × Nat) :=
    if e.role = 1 then some (e.owner, p)
    else s.ftl.index.findSome? fun x => match x with
      | .put u y st q _ => if st = i ∧ q = p then some (u, y) else none
      | _ => none
  cand.bind fun c => if s.source c.1 c.2 = .at i p then some c else none

/-- The far page whose current copy holds a stripe's sector. -/
def Mdl.farOwner (s : Mdl) (i p : Nat) : Option Nat :=
  (s.ftl.far.find? fun f => f.2 == i * 240 + p / 512 + 1).map (·.1)

/-- Rewrite one refreshed codeword: a log-stripe update, or the whole far page (R487). -/
def Mdl.refreshOne (s : Mdl) (i p : Nat) : Mdl :=
  let e := s.stripe i
  if e.role = 3 then
    match s.farOwner i p with
    | some key => (s.farPut e.slot key).getD s
    | none => s
  else match s.ownerOf i p with
    | some (u, x) => (s.logWrite u x (s.stripeSector i p)).getD s
    | none => s

/-- Refreshes of a slot that are due take place in its program window. -/
def Mdl.refreshSlot (s : Mdl) (slot : Nat) : Mdl :=
  let due := s.med.refresh.filter fun r => (s.stripe r.1).slot == slot
  let s := { s with med := { s.med with refresh := s.med.refresh.filter fun r => (s.stripe r.1).slot != slot } }
  if s.readOnly then s else due.foldl (fun s r => s.refreshOne r.1 r.2) s

/-! ### Programs and erases (R473 to R476, R497 to R499) -/

/-- A migration copy whose target's die-block of group `g` failed restarts (R533), for a reason of Table 14-10's FLASH_BLOCK: the block is marked failed and a spare one of its group taken,
and what the others hold is erased again. -/
def Mdl.restartMigration (s : Mdl) (c : Copy) (g why : Nat) : Mdl :=
  match s.ftl.migration with
  | none => s
  | some m =>
    let a := s.workPlace c.target g
    let s := (((s.setBlk a { s.blk a with failed := true }).logBook 0x08 (a.phys + why * 2 ^ 26)).total .flashBlocks).cartCount a.slot 0 1 0
    let r := (s.takeSpare m.target g (c.blk.getD g (0, 0)).1).elim (c.blk, s) fun t => (c.blk.set g t.1, t.2)
    ((r.2.abandonCopy c).countSat Reg.FTL_GC_COUNT_RESTARTS).beginCopy .migration c.target c.sources none r.1

/-- Has group `g` of stripe `i` data for a further page row: the stripe is OPEN, or sealed with rows that the buffer still holds, or moves to the
spare cartridge (R474, R545)? -/
def Mdl.programDue (s : Mdl) (i g : Nat) : Bool :=
  let b := s.blk (s.workPlace i g)
  ((s.stripe i).state == .opened || (s.stripe i).state == .sealed || (s.moving i).isSome) && decide (b.rows < 512) && decide (b.rows * 240 < s.dataSectors i)

/-- Can the next page row of group `g` of stripe `i` be programmed, but for windows (Table 10-3)? -/
def Mdl.programReady (s : Mdl) (i g : Nat) : Bool :=
  let a := s.workPlace i g
  let b := s.blk a
  s.programDue i g && b.checked && !b.reerase && !b.failed && !(bit (s.stripe i).failed g && (s.moving i).isNone)
    && s.die a.slot a.die == .idle && !s.svc.cartHold.contains a.slot

/-- In a slot's GC window a copy's program goes before host data's (Table 2-17): is one ready in the same die group? -/
def Mdl.copyFirst (s : Mdl) (i g : Nat) : Bool :=
  let slot := (s.workPlace i g).slot
  s.windowOpen 3 slot && !(s.ftl.copies.any fun c => c.target == i)
    && s.ftl.copies.any fun c => (s.workPlace c.target g).slot == slot && s.programReady c.target g

/-- A program of the next page row of group `g` of stripe `i` is issued when Table 10-3 and Table 2-17 allow it. -/
def Mdl.flashProgram (s : Mdl) (phase i g : Nat) : Mdl :=
  let s := s.atPhase phase
  let a := s.workPlace i g
  if s.programReady i g && (s.ignoreWindows || (decide (1100000 ≤ s.remaining 1 (flashTarget a.slot g)) && !s.copyFirst i g)) then
    let b := s.blk a
    let s := s.refreshSlot a.slot
    let s := { s with med := { s.med with programSeq := s.med.programSeq + 1 } }
    s.setDie a.slot a.die (.programming a.block b.rows)
  else if s.programDue i g then s.want 1 (flashTarget a.slot g) else s

/-- Rows of a stripe that are complete. -/
def Mdl.completeRows (s : Mdl) (e : Stripe) : Nat :=
  (List.range 16).foldl (fun a g => min a (s.blk (e.place g)).rows) 512

/-- A row of a stripe may have become complete: ROWS, the FILL record of a fill, and the seal after the last row. -/
def Mdl.rowDone (s : Mdl) (i : Nat) : Mdl :=
  let e := s.stripe i
  let n := s.completeRows e
  if e.rows < n then
    let s := s.setStripe i { e with rows := n }
    let s := if e.role = 1 ∧ (s.unit e.owner).stripe = i then s.journal 0x06 (e.owner + min (s.unit e.owner).fill (n * 240) * 2 ^ 19) else s
    if n = 512 then
      let s := s.sealStripe i
      if e.role = 1 ∧ (s.unit e.owner).stripe = i then
        s.setUnit e.owner { s.unit e.owner with filling := false, full := (s.unit e.owner).zone }
      else s
    else s
  else s

/-- A die-block that no stripe holds is marked failed (R476), for a reason of Table 14-10's FLASH_BLOCK. -/
def Mdl.loseBlock (s : Mdl) (a : BlkAddr) (why : Nat) : Mdl :=
  (((s.setBlk a { s.blk a with failed := true }).logBook 0x08 (a.phys + why * 2 ^ 26)).total .flashBlocks).cartCount a.slot 0 1 0

/-- A program ends (R476, R478, R536). -/
def Mdl.programEnd (s : Mdl) (slot die : Nat) (pass : Bool) : Mdl :=
  match s.die slot die with
  | .programming block row =>
    let a : BlkAddr := ⟨slot, die, block⟩
    let s := s.setDie slot die .idle
    let s :=
      match s.movingTo a with
      | some i =>
        if pass then (s.count Reg.FTL_PROGRAMMED_SECTORS 16).setBlk a { s.blk a with rows := row + 1 }
        else (s.moving i).elim s fun c => s.restartMigration c (dieGroup die) 0
      | none => match s.stripeOf a with
        | none => if pass then s.setBlk a { s.blk a with rows := row + 1 } else s.loseBlock a 0
        | some i =>
          if pass then
            let s := (s.count Reg.FTL_PROGRAMMED_SECTORS 16).setBlk a { s.blk a with rows := row + 1 }
            s.rowDone i
          else s.markFailed i (dieGroup die) 0
    s.serveWaiting slot die
  | _ => s

/-- Is group `g`'s die-block of stripe `i` due for an erase? -/
def Mdl.eraseDue (s : Mdl) (i g : Nat) : Bool :=
  let e := s.stripe i
  e.state == .stale || (e.state == .erasing && !bit e.erased g) || (s.blk (s.workPlace i g)).reerase

/-- In the erase window of a die group of a slot, the failed die-blocks there that secure discards wait for are sent their erase, whose outcome
the module learns then (a free value): one that fails is counted and logged (R551). -/
def Mdl.eraseFailed (s : Mdl) (slot g : Nat) : Mdl :=
  let here := fun (a : BlkAddr) => a.slot == slot && dieGroup a.die == g
  let mine := (s.ftl.discards.flatMap (·.bad)).filter here
  let s : Mdl := { s with ftl := { s.ftl with discards := s.ftl.discards.map fun d => { d with bad := d.bad.filter fun a => !here a } } }
  mine.eraseDups.foldl (fun (s : Mdl) a =>
    let r := s.fresh 1
    if r.1 = 1 then (r.2.count Reg.FTL_DISCARD_UNERASED).logBook 0x08 (a.phys + 3 * 2 ^ 26) else r.2) s

/-- An erase of group `g`'s die-block of stripe `i` is issued when Table 10-3 and Table 2-17 allow it. ERASE_INTENT is written
first (R497); a STALE stripe becomes ERASING, its failed die-blocks replaced (Table 11-3). -/
def Mdl.flashErase (s : Mdl) (phase i g : Nat) : Mdl :=
  let s := s.atPhase phase
  let e := s.stripe i
  let slot := (s.workPlace i g).slot
  let due := s.eraseDue i g
  let open_ := s.ignoreWindows || decide (200000 ≤ s.remaining 2 (flashTarget slot g))
  let s := if open_ && !s.svc.cartHold.contains slot then s.eraseFailed slot g else s
  if due && open_ && !s.svc.cartHold.contains slot then
    let s := if e.state = .stale then s.substFailed i (List.range 16) else s
    let e := s.stripe i
    if e.state = .retired then s.spareCheck
    else
      let a := s.workPlace i g
      if s.die a.slot a.die = .idle then
        let s := if e.state = .stale then s.putStripe i { e with state := .erasing, erased := 0 } else s
        let s := (s.setBlk a { s.blk a with intent := true }).journal 0x21 (a.phys + s.epoch * 2 ^ 32)
        s.setDie a.slot a.die (.erasing a.block)
      else s
  else if due then s.want 2 (flashTarget slot g) else s

/-- A die-block has passed its erase: ERASE_DONE, and the stripe that waits for it, with its 16th, is FREE (R497, Table 11-3). -/
def Mdl.erasePassed (s : Mdl) (a : BlkAddr) : Mdl :=
  let g := dieGroup a.die
  let s := ((s.setBlk a { BlkSt.init with again := (s.blk a).reerase }).journal 0x22 (a.phys + s.epoch * 2 ^ 32)).cartCount a.slot 1 0 0
  match if (s.movingTo a).isSome then none else s.stripeOf a with
  | none => s
  | some i =>
    let e := s.stripe i
    if e.state = .erasing then
      let m := e.erased + if bit e.erased g then 0 else 2 ^ g
      let s := s.setStripe i { e with erased := m }
      if m = allErased then s.freeStripe i else s
    else s

/-- An erase ends (R476, R497, R499, Table 11-3). -/
def Mdl.eraseEnd (s : Mdl) (slot die : Nat) (pass : Bool) : Mdl :=
  match s.die slot die with
  | .erasing block =>
    let a : BlkAddr := ⟨slot, die, block⟩
    let g := dieGroup die
    let s := s.setDie slot die .idle
    let s : Mdl :=
      if pass then s.erasePassed a
      else match if (s.movingTo a).isSome then none else s.stripeOf a with
        | none => match (s.movingTo a).bind s.moving with
          | some c => s.restartMigration c g 1
          | none => s.loseBlock a 1
        | some i =>
          let s := s.markFailed i g 1
          if (s.stripe i).state = .erasing then
            match s.substBlock i g with
            | some s => s
            | none => s.retireStripe i
          else s
    (s.spareCheck.serveWaiting slot die).showWear slot
  | _ => s

/-- 100 µs before its erase window ends, a running erase is suspended; one suspended for reads stays so (R475, R482). A shutdown does not regard
windows (R101). -/
def Mdl.eraseSuspend (s : Mdl) (phase slot die : Nat) : Mdl :=
  let s := s.atPhase phase
  if s.ignoreWindows then s
  else if s.remaining 2 (flashTarget slot (dieGroup die)) ≤ 100000 then
    match s.die slot die with
    | .erasing b => (s.setDie slot die (.suspended b none)).serveWaiting slot die
    | .suspended b _ => (s.setDie slot die (.suspended b none)).serveWaiting slot die
    | _ => s
  else s

/-- A suspended erase resumes in its group's window (R475, R476); after a suspend for reads those that have come since wait on (R482). -/
def Mdl.eraseResume (s : Mdl) (phase slot die : Nat) : Mdl :=
  let s := s.atPhase phase
  let left := s.remaining 2 (flashTarget slot (dieGroup die))
  match s.die slot die with
  | .suspended b reads =>
    let need := if reads.isSome then 100000 else 200000
    if (s.ignoreWindows ∨ need ≤ left) ∧ ¬ s.svc.cartHold.contains slot then s.setDie slot die (.erasing b) else s
  | _ => s

/-- The erased-state check before a die-block's first program (R499): `worst` is the highest count of programmed bits of its
sample pages. -/
def Mdl.erasedCheck (s : Mdl) (i g worst : Nat) : Mdl :=
  let a := s.workPlace i g
  let b := s.blk a
  if b.rows ≠ 0 ∨ b.checked then s
  else if worst ≤ s.reg Reg.MED_ERASE_THRESHOLD then s.setBlk a { b with checked := true, again := false }
  else if b.again then (match s.moving i with
    | some c => s.restartMigration c g 4
    | none => s.markFailed i g 4)
  else (s.setBlk a { b with reerase := true }).countSat Reg.MED_ERASE_REERASED

/-! ### Codewords (R485 to R488) -/

/-- The data sector of a stripe that a codeword of group `g`, row `r` holds (R471); none for parity. -/
def Stripe.sectorAt (e : Stripe) (row g cw : Nat) : Option Nat :=
  if g = e.parity then none
  else
    let j := if g < e.parity then g else g - 1
    some (row * 240 + j * 16 + cw)

/-- One codeword of stripe `i`, group `g`, row, codeword 0 to 15, recovered at a step of Table 10-7 with a corrected bit count:
the counts of Table 10-14, refresh and retirement (R485 to R488). -/
def Mdl.codeword (s : Mdl) (i row g cw step nbits : Nat) : Mdl :=
  let nbits := if step = 5 then 0 else nbits
  let e := s.stripe i
  let a := e.place g
  let sl := a.slot
  let s := if 0 < nbits then s.countSat (Reg.MED_SLOT_ECC_CORRECTED sl) else s
  let s := s.setReg (Reg.MED_SLOT_ECC_MAX_BITS sl) (max (s.reg (Reg.MED_SLOT_ECC_MAX_BITS sl)) nbits)
  let s := match step with
    | 2 => s.countSat (Reg.MED_SLOT_ECC_RETRIED sl)
    | 3 => s.countSat (Reg.MED_SLOT_ECC_SOFT sl)
    | 4 => s.countSat (Reg.MED_SLOT_ECC_REBUILT sl)
    | 5 => s.countSat (Reg.MED_SLOT_ECC_UNRECOVERED sl)
    | _ => s
  let limit := if e.light then s.reg Reg.MED_REFRESH_LIGHT else s.reg Reg.MED_REFRESH_STRONG
  let s :=
    if step < 5 ∧ (2 ≤ step ∨ limit < nbits) ∧ ¬ s.readOnly then
      let s := s.countSat (Reg.MED_SLOT_ECC_REFRESHED sl)
      match e.sectorAt row g cw with
      | some p => { s with med := { s.med with refresh := (i, p) :: s.med.refresh } }
      | none => s
    else s
  if step = 4 then (s.setBlk a { s.blk a with candidate := true }).markFailed i g 2
  else if step = 5 then
    let s := s.logBook 0x09 (a.physCw row cw)
    match e.sectorAt row g cw with
    | some p => { s with ftl := { s.ftl with bad := Table.set false s.ftl.bad (i * unitSectors + p) true } }
    | none => s
  else s

/-! ### Diagnostic raw reads (R477, Table 10-20) -/

/-- A raw read ends: the page's undecoded bytes, free values, go to the host, whose DMA may fail (Table 10-20). -/
def Mdl.rawEnd (s : Mdl) (dmaOk : Bool) : Mdl :=
  let s := if dmaOk then
      let d := s.freshBytes 18592
      d.2.emit (.dma (s.reg Reg.MED_DIAG_BUF_BUF) d.1)
    else s
  s.setRegs [(Reg.MED_DIAG_STATUS_DONE, 1), (Reg.MED_DIAG_STATUS_ERR, if dmaOk then 0 else 3)]

/-- MED_DIAG_CMD RAW_READ: the address is checked, and a raw read of a die that is erasing that block is refused. -/
def Mdl.rawRead (s : Mdl) (dmaOk : Bool) : Mdl :=
  let v := s.reg Reg.MED_DIAG_ADDR_ADDR
  let slot := bits v 0 4
  let die := 16 * bits v 4 3 + bits v 8 4
  let block := bits v 12 14
  let done := fun (s : Mdl) (err : Nat) => s.setRegs [(Reg.MED_DIAG_STATUS_DONE, 1), (Reg.MED_DIAG_STATUS_ERR, err)]
  if s.flag Reg.MED_DIAG_STATUS_BUSY then s.setReg Reg.MED_DIAG_STATUS_ERR 4
  else if 8 < slot ∨ 8448 ≤ block ∨ bit v 7 ∨ ¬ s.flag (Reg.MED_SLOT_STATUS_POWERED slot) then done s 1
  else
    let inErase := match s.die slot die with
      | .erasing b => b == block
      | .suspended b _ => b == block
      | _ => false
    if inErase then done s 2
    else
      let r : DieRead := ⟨⟨slot, die, block⟩, bits v 28 9, 4, .background⟩
      if s.dieAct r = .wait then
        let s : Mdl := { s with med := { s.med with raw := some (r.blk, dmaOk) } }
        (s.startRead r).setReg Reg.MED_DIAG_STATUS_BUSY 1
      else s.rawEnd dmaOk

/-- A raw read that waited is served when its die is free for it. -/
def Mdl.rawDone (s : Mdl) (slot die : Nat) : Mdl :=
  match s.med.raw with
  | some (a, dmaOk) =>
    if a.slot = slot ∧ a.die = die ∧ ¬ s.med.waiting.any (fun r => r.blk == a && !r.fore) then
      ({ s with med := { s.med with raw := none } }.setReg Reg.MED_DIAG_STATUS_BUSY 0).rawEnd dmaOk
    else s
  | none => s

/-! ### Garbage collection (R527 to R535) -/

/-- The victim score of a stripe (R528). -/
def Mdl.victimScore (s : Mdl) (e : Stripe) (mean : Nat) : Nat :=
  let u := e.valid * 65536 / 122880
  let age := min (s.epoch - e.sealEpoch) 4095
  let gap := min (mean - e.erases) 4095
  (65536 - u) * (256 + s.reg Reg.FTL_GC_WEIGHTS_AGE_W * age) / (65536 + u) + s.reg Reg.FTL_GC_WEIGHTS_WEAR_W * gap

/-- The stripe of a list with the highest score; ties to the lower index. -/
def Mdl.bestVictim (s : Mdl) (mean : Nat) (l : List (Nat × Stripe)) : Option (Nat × Stripe) :=
  l.foldl (fun (a : Option (Nat × Stripe)) p =>
    match a with
    | none => some p
    | some q => if s.victimScore q.2 mean < s.victimScore p.2 mean then some p else some q) none

/-- Sort victims by descending score, ties by index. -/
def Mdl.byScore (s : Mdl) (mean : Nat) : Nat → List (Nat × Stripe) → List (Nat × Stripe)
  | 0, _ => []
  | n + 1, l =>
    match s.bestVictim mean l with
    | none => []
    | some v => v :: Mdl.byScore s mean n (l.filter fun p => p.1 != v.1)

/-- The further sources of a copy set: while their VALID fits in 122,880 sectors, up to eight sources (R529). -/
def takeSources : Nat → Nat → List (Nat × Stripe) → List Nat
  | 0, _, _ => []
  | _, _, [] => []
  | n + 1, sum, p :: t => if sum + p.2.valid ≤ unitSectors then p.1 :: takeSources n (sum + p.2.valid) t else []

/-- The garbage-collection engine of a slot works in its GC window (R527 to R530): a repair first, otherwise the victim. -/
def Mdl.gcSelect (s : Mdl) (slot : Nat) : Mdl :=
  let sealed := s.listed.filter fun p => p.2.slot == slot && p.2.state == .sealed && p.2.role != 4 && !s.isSource p.1
  let start := fun (s : Mdl) (i : Nat) (e : Stripe) (kind : CopyKind) (sources : List Nat) (cold : Bool) =>
    if e.role = 1 then s.startMerge e.owner cold kind
    else match s.takeTarget slot e.role e.light cold 0 with
      | none => s.abandonForSpace
      | some r => r.2.beginCopy kind r.1 (if sources.isEmpty then [i] else sources) none
  match sealed.find? fun p => p.2.failed != 0 with
  | some p => start s p.1 p.2 .repair [] false
  | none =>
    let mean := s.meanErases slot
    let cands := sealed.filter fun p => p.2.role == 1 || p.2.role == 2 || p.2.role == 3
    match s.bestVictim mean cands with
    | none => s
    | some v =>
      if v.2.role = 1 then start s v.1 v.2 .merge [] (v.2.valid == unitSectors)
      else
        let more := s.byScore mean 7 (cands.filter fun p => p.1 != v.1 && p.2.role == v.2.role)
        start s v.1 v.2 .set (v.1 :: takeSources 7 v.2.valid more) false

/-- The log-index entries whose sector lies in one of these stripes, with the new positions in a target. -/
def movePuts (sources : List Nat) (target : Nat) : Nat → List LogEnt → List LogEnt × Nat × List (Nat × Nat)
  | n, [] => ([], n, [])
  | n, .put u x st p q :: t =>
    if sources.contains st then
      let r := movePuts sources target (n + 1) t
      (.put u x target n q :: r.1, r.2.1, (st * unitSectors + p, n) :: r.2.2)
    else
      let r := movePuts sources target n t
      (.put u x st p q :: r.1, r.2.1, r.2.2)
  | n, e :: t =>
    let r := movePuts sources target n t
    (e :: r.1, r.2.1, r.2.2)

/-- A sector of a copy's target whose source was beyond recovery is so too. -/
def Mdl.carryBad (s : Mdl) (bad : Bool) (st p : Nat) : Mdl :=
  if bad then { s with ftl := { s.ftl with bad := Table.set false s.ftl.bad (st * unitSectors + p) true } } else s

/-- The map switch of a merge of unit `u` whose target holds its content (R523, R532): entries that existed when the merge began are
dropped. -/
def Mdl.switchMerge (s : Mdl) (c : Copy) (u : Nat) : Mdl :=
  let old := s.unit u
  let gone := s.ftl.index.filter fun e => e.unitOf == u && decide (e.seqOf < c.seq)
  let kept := s.ftl.index.filter fun e => !(e.unitOf == u && decide (e.seqOf < c.seq))
  let live := gone.filterMap fun e => match e with
    | .put _ x st p _ => if s.source u x = .at st p then some st else none
    | _ => none
  let newer := (List.range unitSectors).filter fun x => kept.any fun e => e.covers u x
  let s := live.foldl (fun s st => s.lowerValid st 1) s
  let s := { s with ftl := { s.ftl with index := kept } }
  let s := s.setStripe c.target { s.stripe c.target with valid := unitSectors - newer.length, rows := 512 }
  let m := { MapEntry.none with stripe := c.target, mapped := true, zone := old.zone, fill := unitSectors, full := old.full }
  let s := s.mapSet u { m with byController := old.byController }
  let s := s.sealStripe c.target
  let s :=
    if old.mapped ∧ ¬ old.lost then
      (s.setStripe old.stripe { s.stripe old.stripe with valid := 0 }).staleIfEmpty old.stripe
    else s
  (if c.kind = .merge then s.countSat Reg.FTL_GC_COUNT_MERGES else s).showLog

/-- Commit of a merge of unit `u`: its content at the merge's start goes into the target (R523). A sector that no step recovers stays unrecovered
in the target (DEDUCED, assumption log entry 14). -/
def Mdl.commitMerge (s : Mdl) (c : Copy) (u : Nat) : Mdl :=
  let old := s.unit u
  let xs := ((s.ftl.data.filter fun p => old.mapped && p.1 / unitSectors == old.stripe).map fun p => p.1 % unitSectors)
    ++ s.ftl.index.filterMap fun e => match e with
      | .put v x _ _ _ => if v = u then some x else none
      | _ => none
  let s := xs.foldl (fun s x => match s.sourceBefore (some c.seq) u x with
    | .at st p => (s.setStripeSector c.target x (s.stripeSector st p)).carryBad (s.sectorBad st p) c.target x
    | .lost => s.carryBad true c.target x
    | .zeros => s.setStripeSector c.target x 0) s
  s.switchMerge c u

/-- Commit of a copy of log stripes: each live sector whose entry still names a source is switched (R530, R532). -/
def Mdl.commitLog (s : Mdl) (c : Copy) : Mdl :=
  let kept := s.ftl.index.filter fun e => match e with
    | .put u x st p _ => !c.sources.contains st || s.source u x == .at st p
    | _ => true
  let r := movePuts c.sources c.target 0 kept
  let s := r.2.2.foldl (fun (s : Mdl) m =>
    (s.setStripeSector c.target m.2 (Table.get 0 s.ftl.data m.1)).carryBad (s.sectorBad (m.1 / unitSectors) (m.1 % unitSectors)) c.target m.2) s
  let s := { s with ftl := { s.ftl with
    index := r.1
    next := Table.set 0 s.ftl.next c.target unitSectors } }
  let s := s.setStripe c.target { s.stripe c.target with valid := r.2.1, rows := 512 }
  let s := s.sealStripe c.target
  c.sources.foldl (fun s i => (s.setStripe i { s.stripe i with valid := 0 }).staleIfEmpty i) s

/-- Commit of a copy of far stripes: each page still mapped to a source is switched (R532). -/
def Mdl.commitFar (s : Mdl) (c : Copy) : Mdl :=
  let pages := s.ftl.far.filter fun p => c.sources.contains ((p.2 - 1) / 240)
  let moved := (List.range pages.length).foldl (fun (f : Table Nat) k =>
    Table.set 0 f (pages.getD k (0, 0)).1 (c.target * 240 + k + 1)) s.ftl.far
  let s := { s with ftl := { s.ftl with far := moved, next := Table.set 0 s.ftl.next c.target pages.length } }
  let s := s.setStripe c.target { s.stripe c.target with valid := 512 * pages.length, rows := 512 }
  let s := s.sealStripe c.target
  c.sources.foldl (fun s i => (s.setStripe i { s.stripe i with valid := 0 }).staleIfEmpty i) s

/-- Commit of a migrated stripe: its entry names its place on the spare cartridge (R532, R545). -/
def Mdl.commitMigration (s : Mdl) (c : Copy) : Mdl :=
  match s.ftl.migration with
  | none => s
  | some m =>
    let e := s.stripe c.target
    if e.slot = m.source then s.putStripe c.target { e with slot := m.target, failed := 0, blk := c.blk } else s

/-- COPY_COMMIT of a copy whose target holds everything: it switches the maps (R531, R532). -/
def Mdl.commitCopy (s : Mdl) (c : Copy) : Mdl :=
  let s := s.journal 0x09 c.number
  let s := { s with ftl := { s.ftl with copies := s.ftl.copies.filter fun d => d.number != c.number } }
  let role := (s.stripe c.target).role
  let s :=
    match c.unit with
    | some u => s.commitMerge c u
    | none =>
      if c.kind = CopyKind.migration then s.commitMigration c
      else if role = 2 then s.commitLog c else s.commitFar c
  let s := s.countSat Reg.FTL_GC_COUNT_COPIES
  match s.ftl.migration with
  | some m => (s.migrateEntries m).showMigrate
  | none => s

/-- Has the target of a copy its last row (R531 step 3)? -/
def Mdl.targetDone (s : Mdl) (c : Copy) : Bool :=
  (List.range 16).all fun g => decide (s.dataSectors c.target ≤ 240 * (s.blk (s.workPlace c.target g)).rows)

/-- COPY_VERIFY_COMMIT: with its sources read and its target's last row programmed, a copy is read back and committed, or the target's die-block of
group `fail` is marked failed and the copy restarts (R531 to R533). -/
def Mdl.copyCommit (s : Mdl) (number : Nat) (fail : Option Nat) : Mdl :=
  match s.ftl.copies.find? fun c => c.number == number with
  | none => s
  | some c =>
    if !(c.unread.isEmpty && s.targetDone c) then s
    else match fail with
      | some g => if c.kind = .migration then s.restartMigration c g 2 else s.markFailed c.target g 2
      | none => s.commitCopy c

/-- The next SEALED entry of the migration's source, in ascending index, begins its copy (R545). -/
def Mdl.migrateNext (s : Mdl) : Mdl :=
  match s.ftl.migration with
  | none => s
  | some m =>
    let due := s.listed.find? fun p => p.1 / 65536 == m.bank && p.2.slot == m.source && p.2.state == .sealed && !s.isSource p.1
    match due with
    | some p => s.beginCopy .migration p.1 [p.1] none ((List.range 16).map (formatBlock (s.badBlocks m.target) (p.1 % 65536)))
    | none => s

/-- The work of a slot's GC window: sources are read, and the migration of its bank goes on, otherwise repairs and victims (R100, R527). -/
def Mdl.gcWindow (s : Mdl) (slot : Nat) : Mdl :=
  let s := s.readSources slot
  match s.ftl.migration with
  | some m => if m.source = slot then s.migrateNext else s.gcSelect slot
  | none => s.gcSelect slot

/-- When no entry names the source, the bank is bound to the spare slot and the source retires (R545). -/
def Mdl.migrationEnd (s : Mdl) : Mdl :=
  match s.ftl.migration with
  | none => s
  | some m =>
    let s := s.migrateEntries m
    if s.entriesNaming m.source ≠ 0 ∧ m.source ≠ m.target then s.showMigrate
    else
      let old := s.reg Reg.FTL_BANK_SLOT_SLOTS
      let s := s.setReg Reg.FTL_BANK_SLOT_SLOTS (old - bits old (4 * m.bank) 4 * 2 ^ (4 * m.bank) + m.target * 2 ^ (4 * m.bank))
      let s := s.journal 0x0D (m.bank + m.target * 2 ^ 3)
      let s := s.setRegs [(Reg.MED_SLOT_STATUS_ROLE m.source, 3), (Reg.MED_SLOT_STATUS_ROLE m.target, 1),
        (Reg.MED_SLOT_STATUS_POWERED m.source, b2n (m.source == m.target))]
      let s := (s.logBook 0x0B (m.source + m.target * 16 + 2 ^ 8)).total .migrations
      let s := { s with ftl := { s.ftl with migration := none, lostSlots := s.ftl.lostSlots.filter (· ≠ m.source) } }
      let s := (s.showMigrate).showSpare
      if s.readOnly && decide (0 < s.spareWith (s.reg Reg.FTL_FAR_LIMIT_LIMIT)) then
        (s.setReg Reg.FTL_STATUS_MEDIA 0).journal 0x0F 0
      else s

/-- The FTL registers that show counts of the tables (Tables 11-12, 11-17, 11-19), as they stand when they are read. -/
def Mdl.showFtl (s : Mdl) : Mdl := ((List.range 9).foldl Mdl.showWear s).showLog.showMigrate

/-! ### Work that waits for a window (R105) -/

/-- The SCRUB target that a scrub context works on (Table 2-16). -/
def Mdl.scrubTarget (s : Mdl) (n : Nat) : Nat :=
  let x := Table.get Scrub.init s.med.scrubs n
  if x.kind = 0 then (s.stripe (x.first + x.done)).slot else 4096 + (x.first + x.done) / 23552

/-- Background work that waits, by class and target: programs and erases of stripes and suspended erases, what a slot's garbage collection would
take up, and the targets of running scrubs (R504). -/
def Mdl.pendingWork (s : Mdl) : List (Nat × Nat) :=
  let groups := fun (i : Nat) => (List.range 16).map fun g => (g, flashTarget (s.workPlace i g).slot g)
  let work := s.listed.flatMap fun (p : Nat × Stripe) =>
    (((groups p.1).filter fun q => s.programDue p.1 q.1).map fun q => (1, q.2))
      ++ (((groups p.1).filter fun q => s.eraseDue p.1 q.1).map fun q => (2, q.2))
  let banks := ((List.range 8).filter fun b => (s.ftl.bankFormat b).2).flatMap fun b =>
    (List.range 16).map fun g => (2, flashTarget (s.ftl.bankFormat b).1 g)
  let erases := (s.med.dies.filter fun q => match q.2 with | .suspended _ _ => true | _ => false).map fun q =>
    (2, flashTarget (q.1 / 128) (dieGroup (q.1 % 128)))
  let gc := (s.activeSlots.filter fun sl =>
    (s.ftl.copies.any fun c => c.unread.contains sl) || (match s.ftl.migration with | some m => m.source == sl | none => false)
      || s.listed.any fun (p : Nat × Stripe) => p.2.slot == sl && p.2.state == .sealed && p.2.role != 4 && !s.isSource p.1).map fun sl => (3, sl)
  let scrubs := ((List.range 4).filter fun n => s.flag (Reg.SCB_STATUS_BUSY n)).map fun n => (4, s.scrubTarget n)
  work ++ banks ++ erases ++ gc ++ scrubs

/-! ### Journal blocks and checkpoints (R542, R556, R557) -/

/-- Active cartridges that may take a page program at the current phase (Table 2-17, R101). -/
def Mdl.programSlots (s : Mdl) : List Nat :=
  s.activeSlots.filter fun sl => s.ignoreWindows
    || (!s.svc.cartHold.contains sl && (List.range 16).any fun g => decide (1100000 ≤ s.remaining 1 (flashTarget sl g)))

/-- A journal block: up to 255 records are programmed on two active cartridges, each in a program window (R98, R556). -/
def Mdl.journalBlock (s : Mdl) (phase : Nat) : Mdl :=
  let s := s.atPhase phase
  let n := min 255 s.ftl.buffer.length
  if n = 0 ∨ s.programSlots.length < 2 then s
  else { s with ftl := { s.ftl with buffer := s.ftl.buffer.take (s.ftl.buffer.length - n) } }.count Reg.FTL_PROGRAMMED_SECTORS 2

/-- The 64 bytes of a lifetime counter record (Table 14-7). -/
def CartId.record (c : CartId) : List Byte :=
  let body := leBytes 8 c.seq ++ leBytes 8 c.totalErases ++ leBytes 4 c.failedBlocks ++ leBytes 4 c.retiredStripes ++ leBytes 4 c.powerOnHours
    ++ leBytes 1 c.lastSlot ++ leBytes 1 c.lastRole ++ leBytes 2 0 ++ leBytes 16 c.lastModule ++ leBytes 12 0
  body ++ leBytes 4 (crc32 body)

/-- The counters go to the next of the 64 slots, which SEQ numbers in rotation (R676). -/
def CartId.store (c : CartId) : CartId :=
  { c with counters := Table.set 0 c.counters (c.seq % 64) (leNat c.record) }

/-- Each cartridge's lifetime counters go to its next counter slot (R542). -/
def Mdl.writeCounters (s : Mdl) : Mdl :=
  let upd := fun (s : Mdl) (sl : Nat) =>
    match Table.get none s.svc.cartIds sl with
    | none => s
    | some c =>
      let c := { c with seq := c.seq + 1, powerOnHours := s.svc.poh, lastSlot := sl, lastRole := s.reg (Reg.MED_SLOT_STATUS_ROLE sl)
                        lastModule := s.svc.serial }
      { s with svc := { s.svc with cartIds := Table.set none s.svc.cartIds sl (some c.store) } }
  (List.range 9).foldl upd s

/-- A checkpoint (R557): which journal stripe and row hold it is open, a free value in its record (log entry 13). -/
def Mdl.checkpoint (s : Mdl) : Mdl :=
  let n := (s.ftl.checkpoint + 1) % 65536
  let f := s.fresh 29
  let s := (f.2.journal 0x0E (n + f.1 * 2 ^ 16)).writeCounters
  { s with ftl := { s.ftl with checkpoint := n, sinceCheckpoint := 0 } }

/-- The event of a checkpoint: due after 256 MiB of records, a migration's end or a shutdown. -/
def Mdl.checkpointWrite (s : Mdl) : Mdl := s.checkpoint

/-- Far stripes become STALE at start-up after a cold reset or power loss (R526, R559). -/
def Mdl.staleFar (s : Mdl) : Mdl :=
  let fars := (s.listed.filter fun p => p.2.role == 3 && (p.2.state == .opened || p.2.state == .sealed)).map (·.1)
  let s := { s with ftl := { s.ftl with far := [], openFar := [] } }
  fars.foldl (fun s i => s.staleStripe i) s

/-- Map restore (R559): copies without COPY_COMMIT are abandoned, the dump area is replayed, die-blocks whose erase was cut short are erased again
(R498), far stripes go STALE. Levels of SPARE_PCT crossed before are not reported again (R549). -/
def Mdl.mapRestore (s : Mdl) (afterLoss : Bool) : Mdl :=
  let s : Mdl := s.ftl.copies.foldl (fun s c => if c.kind = .migration then s.eraseTarget c else s.staleStripe c.target) s
  let s := { s with ftl := { s.ftl with copies := [], discards := [], dumped := false } }
  let intents := (s.med.blocks.filter fun p => p.2.intent && !p.2.failed).map fun p => BlkAddr.ofKey p.1
  let s := { s with med := { s.med with dies := [], waiting := [], channels := [], raw := none } }
  let s := intents.foldl (fun (s : Mdl) a => (s.journal 0x21 (a.phys + s.epoch * 2 ^ 32)).erasePassed a) s
  let s := s.countSat Reg.MED_ERASE_REERASED intents.length
  let s := s.staleFar
  let s := s.setRegs [(Reg.FTL_STATUS_AFTER_LOSS, b2n afterLoss), (Reg.FTL_STATUS_MEDIA, b2n s.ftl.mediaRo),
    (Reg.FTL_BANK_SLOT_SLOTS, s.ftl.bankSlots)]
  let s := [(Reg.FTL_STATUS_WARN10, 10), (Reg.FTL_STATUS_WARN5, 5), (Reg.FTL_STATUS_WARN2, 2)].foldl (fun (s : Mdl) p => s.setBit p.1 (decide (s.sparePct ≤ p.2))) s
  ((List.range 9).foldl Mdl.showWear s).showSpare.showLog

/-! ### Fills and lost cartridges (R520, R543) -/

/-- Fills that no write has extended for 64 boundaries are sealed (R520). -/
def Mdl.fillTimeout (s : Mdl) (u : Nat) : Mdl :=
  let m := s.unit u
  if m.filling ∧ m.lastFill + 64 ≤ s.epoch then s.sealFill u else s

/-- Open a zone (R575): with 224 stripes open, the fill least recently extended is sealed first. -/
def Mdl.zoneRoom (s : Mdl) : Mdl :=
  if s.openFills < 224 then s
  else
    let fills := s.ftl.map.filter fun p => p.2.filling
    let oldest := fills.foldl (fun (a : Option (Nat × MapEntry)) p =>
      match a with
      | none => some p
      | some q => if p.2.lastFill < q.2.lastFill then some p else some q) none
    match oldest with
    | some p => s.sealFill p.1
    | none => s

end Sys2Proof.Machine
end

