-- ==== Sys2Proof/Machine/Limuc.lean ====
section
/-! DEFINITION. Sending on Limuc: routes, link credits, replay, requests and their allowance (R618 to R637). -/
namespace Sys2Proof.Machine

/-- The SPAN settings in use: those of the chart in force, at start-up those of the chart being loaded (R152), or outside any span (R127). -/
def Mdl.spanCfg (s : Mdl) : SpanCfg := match s.cht.chart, s.cht.next with
  | some c, _ => c.span
  | none, some n => n.1.span
  | none, none => .outside

def Mdl.myModule (s : Mdl) : Nat := s.reg Reg.SPN_STATUS_MODULE

def Mdl.link (s : Mdl) (n : Nat) : LinkSt := Table.get .init s.spn.links n
def Mdl.setLink (s : Mdl) (n : Nat) (l : LinkSt) : Mdl :=
  { s with spn := { s.spn with links := Table.set .init s.spn.links n l } }
def Mdl.linkActive (s : Mdl) (n : Nat) : Bool := s.reg (Reg.SPN_LINK_STATE n) == 3

/-- The virtual channel of a message type (Tables 13-4 and 13-6); 4 for a type that is not used. -/
def vcOf (type : Nat) : Nat :=
  match type with
  | 0x01 | 0x02 | 0x03 | 0x07 | 0x15 => 0
  | 0x81 | 0x82 | 0x84 | 0x85 | 0x87 | 0x90 | 0x95 => 1
  | 0x04 | 0x05 | 0x10 | 0x11 | 0x12 | 0x13 | 0x14 => 2
  | 0x06 | 0x08 | 0x09 | 0x0A | 0x0B => 3
  | _ => 4

/-- Is the type a request that has a response (Table 13-6)? -/
def isRequest (type : Nat) : Bool :=
  [0x01, 0x02, 0x03, 0x04, 0x05, 0x07, 0x10, 0x11, 0x12, 0x13, 0x14, 0x15].contains type

/-- The response type of a request (Table 13-6). -/
def responseOf (type : Nat) : Nat :=
  match type with
  | 0x01 => 0x81 | 0x02 => 0x82 | 0x03 => 0x82 | 0x04 => 0x84 | 0x05 => 0x85 | 0x07 => 0x87 | 0x15 => 0x95 | _ => 0x90

/-- Flits of a message: one for the message and its data flits of 248 bytes (R622). -/
def msgFlits (m : LMsg) : Nat := 1 + ceilDiv m.stream.length 248

/-- The link towards a module (R627). -/
def Mdl.routeTo (s : Mdl) (dst : Nat) : Option Nat :=
  let e := Table.get 0 s.spanCfg.routes dst
  let prim := bits e 0 3
  let alt := bits e 4 3
  if bit e 3 && s.linkActive prim then some prim
  else if bit e 7 && s.linkActive alt then some alt
  else none

/-- The virtual channels by their rank (Table 13-4). -/
def vcRanks : List Nat := [3, 1, 0, 2]

/-- Send the flits of a message that link credits and the 512 flits of the replay buffer allow (R618, R620); what of it is left, if anything. CREDIT
messages need neither. One message rides in one flit, its data flits follow it (DESIGN CHOICE, assumption log entry 15). -/
def Mdl.sendFlits (s : Mdl) (n : Nat) (h : HeldMsg) : Mdl × Option HeldMsg :=
  let l := s.link n
  let free := 512 - l.unacked.length
  let k := if h.msg.type = 0x09 then h.left else min h.left (min free (l.credits.getD h.vc 0))
  if k = 0 then (s, some h)
  else
    let credits := if h.msg.type = 0x09 then l.credits else l.credits.set h.vc (l.credits.getD h.vc 0 - k)
    let flits := (List.range k).map fun i => ((l.sendSeq + i) % 1024, h.vc, if i = 0 ∧ h.left = msgFlits h.msg then [h.msg] else [])
    let s := s.setLink n { l with credits := credits, unacked := l.unacked ++ flits, sendSeq := (l.sendSeq + k) % 1024 }
    let s := s.count (Reg.SPN_LINK_FLITS_TX n) k
    if k = h.left then (s.emit (.limuc n h.msg), none) else (s, some { h with left := h.left - k })

/-- Send the messages of one virtual channel in order, as far as they go (R619); those that are left. -/
def Mdl.sendChannel (s : Mdl) (n : Nat) : List HeldMsg → Mdl × List HeldMsg
  | [] => (s, [])
  | h :: t =>
    match s.sendFlits n h with
    | (s, none) => Mdl.sendChannel s n t
    | (s, some h) => (s, h :: t)

/-- Send what a link holds while credits and replay space last: the channels by their ranks, each in order (R619). What stays held keeps its
place. -/
def Mdl.releaseHeld (s : Mdl) (n : Nat) : Mdl :=
  let held := (s.link n).held
  let r := vcRanks.foldl (fun (r : Mdl × List HeldMsg) vc =>
    let q := r.1.sendChannel n (held.filter (·.vc == vc))
    (q.1, r.2 ++ q.2)) (s, [])
  r.1.setLink n { r.1.link n with held := r.2.insertionSort fun a b => a.no ≤ b.no }

/-- Put a message on a link, behind those of its channel that wait (R618 to R620). -/
def Mdl.sendOn (s : Mdl) (n : Nat) (m : LMsg) : Mdl :=
  let l := s.link n
  (s.setLink n { l with held := l.held ++ [⟨l.heldNext, vcOf m.type, m, msgFlits m⟩], heldNext := l.heldNext + 1 }).releaseHeld n

/-- A message that has no route is counted on the primary link of its route entry (R627). -/
def Mdl.unrouted (s : Mdl) (dst : Nat) : Mdl :=
  match s.routeTo dst with
  | some _ => s
  | none => s.countSat (Reg.SPN_LINK_UNREACHABLE (bits (Table.get 0 s.spanCfg.routes dst) 0 3))

/-- Route a message that is not a request: discarded and counted when no route is available (R627). -/
def Mdl.route (s : Mdl) (m : LMsg) : Mdl :=
  match s.routeTo m.dst with
  | some n => s.sendOn n m
  | none => s.unrouted m.dst

/-- Twin links usable now, in the order R648 gives: the other one than last time first. -/
def Mdl.twinLink (s : Mdl) : Option Nat :=
  let next := if s.spn.lastTwin = 6 then 7 else 6
  let up := fun n => s.linkActive n && (s.link n).twinOk
  if up next then some next else if up s.spn.lastTwin then some s.spn.lastTwin else none

/-- A response to a request (R621): the same TAG and traffic class. Between twins it travels on links 6 and 7 in turn (R622, R648). -/
def Mdl.respond (s : Mdl) (m : LMsg) (status addr : Nat) (data : List Byte) : Mdl :=
  let r : LMsg := { type := responseOf m.type, tc := m.tc, hops := 0, dst := m.src, src := s.myModule, tag := m.tag, addr := addr
                    status := status, data := data, stream := [] }
  if 0x10 ≤ m.type ∧ m.type ≤ 0x15 then
    match s.twinLink with
    | some n => ({ s with spn := { s.spn with lastTwin := n } }).sendOn n r
    | none => s
  else s.route r

/-- A module marked lost in the directory (R642). -/
def Mdl.peerLost (s : Mdl) (m : Nat) : Bool := (Table.get DirEntry.absent s.spn.directory m).state == 2

/-- Does a request of this type count against its class's allowance (R633)? -/
def counted (type : Nat) : Bool := type == 0x01 || type == 0x02 || type == 0x03 || type == 0x04 || type == 0x05

/-- May this module send requests: admitted to the span, or refused (R641)? -/
def Mdl.mayRequest (s : Mdl) : Bool :=
  let st := s.reg Reg.SPN_STATUS_STATE
  st != 3 && st != 4

/-- Inject a request that has its allowance. -/
def Mdl.inject (s : Mdl) (r : SpanReq) (n : Nat) : Mdl :=
  let s := if counted r.msg.type then s.count (Reg.SPN_CLASS_IN_FLIGHT r.msg.tc) (msgFlits r.msg) else s
  let s := { s with spn := { s.spn with reqs := s.spn.reqs ++ [r] } }
  s.sendOn n r.msg

/-- Send a request to another module: its TAG, its allowance, its route, the window of a BULK (R634). None when it ends UNREACHABLE at the source (R627,
R641, R642). -/
def Mdl.request (s : Mdl) (dst tc type addr : Nat) (data stream : List Byte) (purpose : ReqUse) : Option Mdl :=
  let tag := s.spn.nextTag % 65536
  let m : LMsg := { type := type, tc := tc, hops := 0, dst := dst, src := s.myModule, tag := tag, addr := addr, status := 0
                    data := data, stream := stream }
  let r : SpanReq := ⟨tag, m, purpose, none⟩
  if s.peerLost dst || !s.mayRequest then none
  else
    match s.routeTo dst with
    | none => none
    | some n =>
      let s := { s with spn := { s.spn with nextTag := s.spn.nextTag + 1 } }
      let fits := !counted type
        || decide (s.reg (Reg.SPN_CLASS_IN_FLIGHT tc) + msgFlits m ≤ s.reg (Reg.SPN_CLASS_ALLOWANCE tc))
      let window := type != 0x04 || s.mayRun 7 tc
      if fits && window then some (s.inject r n)
      else some { s with spn := { s.spn with blocked := s.spn.blocked ++ [r] } }

/-- Try blocked requests again, in order (R633, R634). -/
def Mdl.tryBlocked (s : Mdl) : Mdl :=
  let l := s.spn.blocked
  let s := { s with spn := { s.spn with blocked := [] } }
  let keep := fun (s : Mdl) (q : SpanReq) => { s with spn := { s.spn with blocked := s.spn.blocked ++ [q] } }
  l.foldl (fun s q =>
    match s.routeTo q.msg.dst with
    | some n =>
      if decide (s.reg (Reg.SPN_CLASS_IN_FLIGHT q.msg.tc) + msgFlits q.msg ≤ s.reg (Reg.SPN_CLASS_ALLOWANCE q.msg.tc))
          && (q.msg.type != 0x04 || s.mayRun 7 q.msg.tc) then s.inject q n
      else keep s q
    | none => keep s q) s

/-- A request ends: its flits leave the class's count, and blocked requests are tried again (R633). -/
def Mdl.reqEnd (s : Mdl) (r : SpanReq) : Mdl :=
  let s := { s with spn := { s.spn with reqs := s.spn.reqs.filter fun q => q.tag != r.tag } }
  let s := if counted r.msg.type then
      s.setReg (Reg.SPN_CLASS_IN_FLIGHT r.msg.tc) (s.reg (Reg.SPN_CLASS_IN_FLIGHT r.msg.tc) - msgFlits r.msg)
    else s
  s.tryBlocked

/-- The local offset of a page of the sender's window in a holder's span range (R331, R334). -/
def spanOffset (rpage inPage : Nat) : Nat := 2 ^ 48 + rpage * 2 ^ 21 + inPage

/-- The data of a directory message (Table 13-9): OP, TERM and broadcast number in their bytes, and a payload. -/
def dirData (op b8 b10 b12 seq : Nat) : List Byte :=
  leBytes 1 op ++ List.replicate 7 0 ++ leBytes 2 b8 ++ leBytes 2 b10 ++ leBytes 6 b12 ++ List.replicate 13 0 ++ leBytes 1 seq

/-- A directory message to one module. -/
def Mdl.sendDir (s : Mdl) (dst op b8 b10 b12 : Nat) (purpose : ReqUse) : Option Mdl :=
  s.request dst 0 0x07 0 (dirData op b8 b10 b12 0) [] purpose

/-- Send a broadcast on the TRANSIT_FWD links that are ACTIVE, except one (R629). -/
def Mdl.fwdLinks (s : Mdl) (except : Option Nat) : List Nat :=
  (List.range 8).filter fun n => bit s.spanCfg.transitFwd n && s.linkActive n && some n != except

/-- Broadcast a directory message of this module (R629, R640). -/
def Mdl.broadcast (s : Mdl) (op b8 b10 b12 : Nat) : Mdl :=
  let q := (s.spn.bcastSeq + 1) % 256
  let s := { s with spn := { s.spn with bcastSeq := q, seenSeq := q } }
  let d := dirData op b8 b10 b12 q
  let m : LMsg := { type := 0x08, tc := 0, hops := 0, dst := s.myModule, src := s.myModule, tag := 0, addr := 0, status := 0
                    data := d, stream := [] }
  (s.fwdLinks none).foldl (fun s n => s.sendOn n m) s

/-- LINK6_UP and LINK7_UP (Table 13-22). -/
def Mdl.showTwinLinks (s : Mdl) : Mdl :=
  s.setRegs [(Reg.TWN_STATUS_LINK6_UP, b2n (s.linkActive 6 && (s.link 6).twinOk)), (Reg.TWN_STATUS_LINK7_UP, b2n (s.linkActive 7 && (s.link 7).twinOk))]

/-- Send a twin request to the partner on a link. -/
def Mdl.twinOn (s : Mdl) (type : Nat) (data stream : List Byte) (purpose : ReqUse) (n : Nat) : Mdl :=
  let tag := s.spn.nextTag % 65536
  let m : LMsg := { type := type, tc := 0, hops := 0, dst := s.reg Reg.TWN_STATUS_PARTNER, src := s.myModule, tag := tag, addr := 0
                    status := 0, data := data, stream := stream }
  let s := { s with spn := { s.spn with nextTag := s.spn.nextTag + 1, lastTwin := n, reqs := s.spn.reqs ++ [SpanReq.mk tag m purpose none] } }
  s.sendOn n m

/-- Send a twin request to the partner on links 6 and 7 in turn (R648); none when both are down. -/
def Mdl.twinSend (s : Mdl) (type : Nat) (data stream : List Byte) (purpose : ReqUse) : Option Mdl :=
  s.twinLink.map (s.twinOn type data stream purpose)

/-- The data of a TWIN_CTRL message (Table 13-6): OP, twin state and PAIR_GEN. A module in SEEKING gives its journaled state, which is
what R651 compares (DEDUCED, assumption log entry 25). -/
def Mdl.twinCtrlData (s : Mdl) (op : Nat) : List Byte :=
  leBytes 1 op ++ leBytes 1 (if s.reg Reg.TWN_STATUS_STATE = 1 then s.twn.journaled else s.reg Reg.TWN_STATUS_STATE) ++ leBytes 6 (s.reg Reg.TWN_PAIR_GEN_GEN) ++ List.replicate 24 0

/-- Send a TWIN_CTRL message when a twin link can carry it. -/
def Mdl.twinCtrl (s : Mdl) (op : Nat) : Mdl := (s.twinSend 0x15 (s.twinCtrlData op) [] (.ctrl op)).getD s

end Sys2Proof.Machine
end

