-- ==== Sys2Proof/Machine/Macro.lean ====
section
/-! DEFINITION. The macro-operation descriptor (Tables 5-1 to 5-4), scale blocks (R310 to R317) and the drain's epilogue
(R300 to R308). -/
namespace Sys2Proof.Machine

/-! ### The descriptor -/

/-- `n` bytes of a descriptor from byte `o` (Table 5-1). -/
def Desc.field (d : BitVec 1024) (o n : Nat) : Nat := d.toNat / 2 ^ (8 * o) % 2 ^ (8 * n)
def Desc.opcode (d : BitVec 1024) : Nat := Desc.field d 0 1
def Desc.tag (d : BitVec 1024) : Nat := Desc.field d 0x78 4

/-- A descriptor by its fields. -/
structure Macro where
  op : Nat
  fmtA : Nat
  fmtB : Nat
  fmtC : Nat
  flags : Nat
  epi : Nat
  order : Nat
  m : Nat
  n : Nat
  k : Nat
  batch : Nat
  aAddr : Nat
  bAddr : Nat
  cAddr : Nat
  lda : Nat
  ldb : Nat
  ldc : Nat
  lenAxis : Nat
  every : Nat
  live : Nat
  res : Nat
  bsa : Nat
  bsb : Nat
  bsc : Nat
  aux0 : Nat
  aux1 : Nat
  lenAddr : Nat
  param : Nat
  tag : Nat
  glue : Nat
  deriving DecidableEq, Repr

/-- Read a descriptor (Table 5-1). -/
def Macro.of (d : BitVec 1024) : Macro :=
  let f := Desc.field d
  { op := f 0 1, fmtA := f 1 1, fmtB := f 2 1, fmtC := f 3 1, flags := f 4 2, epi := f 6 1, order := f 7 1
    m := f 8 4, n := f 0xC 4, k := f 0x10 4, batch := f 0x14 4, aAddr := f 0x18 8, bAddr := f 0x20 8, cAddr := f 0x28 8
    lda := f 0x30 4, ldb := f 0x34 4, ldc := f 0x38 4, lenAxis := f 0x3C 1, every := f 0x3D 1, live := f 0x3E 1, res := f 0x3F 1
    bsa := f 0x40 8, bsb := f 0x48 8, bsc := f 0x50 8, aux0 := f 0x58 8, aux1 := f 0x60 8, lenAddr := f 0x68 8
    param := f 0x70 8, tag := f 0x78 4, glue := f 0x7C 4 }

/-- The model slot and the layer of a progress tag (R357, R362). -/
def Macro.tagLayer (x : Macro) : Option (Nat × Nat) := if bit x.tag 31 then some (bits x.tag 24 7, bits x.tag 8 16) else none

def Macro.toChain (x : Macro) : Bool := bit x.flags 2
def Macro.wideOk (x : Macro) : Bool := bit x.flags 3
def Macro.legacy (x : Macro) : Bool := bit x.flags 4
def Macro.fuse (x : Macro) : Bool := bit x.flags 5
def Macro.scale (x : Macro) : Nat := bits x.epi 0 2
def Macro.bias (x : Macro) : Bool := bit x.epi 2
def Macro.act (x : Macro) : Nat := bits x.epi 3 3
def Macro.sr (x : Macro) : Bool := bit x.epi 6
def Macro.nonsat (x : Macro) : Bool := bit x.epi 7
def Macro.loop (x : Macro) : Nat := bits x.order 0 2
/-- Legacy chain steps, up to the first 0 (R257). -/
def Macro.steps (x : Macro) : List Nat := ((List.range 4).map fun i => bits x.param (4 * i) 4).takeWhile (· ≠ 0)
/-- Does the macro-operation use a scale block? -/
def Macro.usesBlock (x : Macro) : Bool := (x.op == 1 || x.op == 2 || x.op == 7) && x.scale != 0
def Macro.fa (x : Macro) : Fmt := (Fmt.ofCode x.fmtA).getD .none
def Macro.fb (x : Macro) : Fmt := (Fmt.ofCode x.fmtB).getD .none
def Macro.fc (x : Macro) : Fmt := (Fmt.ofCode x.fmtC).getD .none
/-- Formats that R314 counts. -/
def Fmt.counted (f : Fmt) : Bool := f == .e4m3 || f == .e5m2 || f == .int8 || f == .int4

/-! ### Scale blocks -/

/-- FP32 of a natural number of memory bits. -/
def f32Of (v : Nat) : F32 := BitVec.ofNat 32 v

/-- Magnitude comparison of FP32 values, NaN below all: is |x| < |y|? -/
def F32.magLt (x y : F32) : Bool := !y.isNan && (x.isNan || decide (x.mag < y.mag))

/-- The smallest n from 1 to 8 with amax * 2^-n no greater than F; 8 for infinity (R315). -/
def riseBy (amax : F32) (top : Nat) : Nat :=
  let ok := fun n => match amax.num with
    | .fin _ m e =>
      let r := exactAdd m (e - (n : Int)) (-(top : Int)) 0
      decide (r.1 ≤ (0 : Int))
    | _ => false
  ((List.range 7).map (· + 1)).find? ok |>.getD 8

/-- Is amax * 4 < F (R315)? -/
def headroom (amax : F32) (top : Nat) : Bool :=
  match amax.num with
  | .fin _ m e =>
    let r := exactAdd m (e + 2) (-(top : Int)) 0
    decide (r.1 < (0 : Int))
  | _ => false

/-- Is the block at an address CARRIED? -/
def Mdl.carried (s : Mdl) (acct a : Nat) : Bool := s.memNat acct a 1 % 2 == 1

/-- EXP of a block, signed. -/
def Mdl.blockExp (s : Mdl) (acct a : Nat) : Int := toSigned 8 (s.memNat acct (a + 1) 1)

/-- set_exp of R315. -/
def Mdl.setExp (s : Mdl) (acct a : Nat) (e : Int) : Mdl :=
  let old := s.blockExp acct a
  if e = old then s
  else
    let at_ := if old < e then a + 0x24 else a + 0x28
    let s := s.memWrite acct at_ (leBytes 4 (s.memNat acct at_ 4 + 1))
    let b := (e % 256).toNat
    let s := s.memWrite acct (a + 1) (leBytes 1 b)
    let h := s.memNat acct (a + 3) 1 % 8
    let s := s.memWrite acct (a + 0x40 + 8 * h) (leBytes 6 s.epoch ++ leBytes 1 b)
    s.memWrite acct (a + 3) (leBytes 1 ((h + 1) % 8))

/-- The roll of a carried block at a macro-operation's first tile (R315). -/
def Mdl.rollScale (s : Mdl) (acct a : Nat) : Mdl :=
  if s.memNat acct (a + 8) 6 < s.epoch then
    let conv := s.memNat acct (a + 0x10) 8
    let clamped := s.memNat acct (a + 0x18) 8
    let amax := f32Of (s.memNat acct (a + 0x20) 4)
    let top := topOf ((Fmt.ofCode (s.memNat acct (a + 6) 1)).getD .none)
    let e := s.blockExp acct a
    let s :=
      if 0 < conv then
        if s.memNat acct (a + 4) 2 * conv < clamped * 65536 then
          (s.setExp acct a (min (e + riseBy amax top) 127)).memWrite acct (a + 2) (leBytes 1 0)
        else if headroom amax top then
          let h := s.memNat acct (a + 2) 1 + 1
          if h = 64 then (s.setExp acct a (max (e - 1) (-127))).memWrite acct (a + 2) (leBytes 1 0)
          else s.memWrite acct (a + 2) (leBytes 1 h)
        else s.memWrite acct (a + 2) (leBytes 1 0)
      else s
    let s := s.memWrite acct (a + 8) (leBytes 6 s.epoch)
    s.memWrite acct (a + 0x10) (List.replicate 20 0)
  else s

/-- What a macro-operation adds to its carried block when it ends, if it came to its first tile (R314, R315). -/
def Mdl.addScaleCounts (s : Mdl) (r : MacroRun) : Mdl :=
  let x := Macro.of r.entry.desc
  let a := x.aux0
  let acct := r.entry.acct
  if x.usesBlock && x.scale != 3 && x.fc.counted && r.block.any (·.1) then
    let s := s.memWrite acct (a + 0x10) (leBytes 8 (s.memNat acct (a + 0x10) 8 + r.converted))
    let s := s.memWrite acct (a + 0x18) (leBytes 8 (s.memNat acct (a + 0x18) 8 + r.clamped))
    let s := if (f32Of (s.memNat acct (a + 0x20) 4)).magLt r.amax then
        s.memWrite acct (a + 0x20) (leBytes 4 r.amax.mag)
      else s
    s.memWrite acct (a + 6) (leBytes 1 x.fmtC)
  else s

/-! ### The epilogue (R300 to R308) -/

/-- The constants of a macro-operation's epilogue: whether its block is carried, the EXP its roll returned. -/
structure Epi where
  carried : Bool
  exp : Int
  deriving DecidableEq, Repr

/-- Steps 1 to 4 of Table 6-6 for element (b, i, j); `rd` reads a byte of an operand element: the element's first bit (8 * address), an
address, an offset from it. -/
def Macro.epiSteps (x : Macro) (rd : Nat → Nat → Nat → Byte) (e : Epi) (b i j : Nat) (y : F32) : F32 :=
  let nat4 := fun a => leNat ((List.range 4).map (rd (8 * a) a))
  let y :=
    if x.scale = 1 ∨ x.scale = 2 then
      let v := f32Of (nat4 (x.aux0 + 0x80 + 4 * (if x.scale = 1 then i else j)))
      F32.ofNum (y.num.mul (v.num.scale (if e.carried then -e.exp else 0)))
    else y
  let y := if x.bias then F32.add y (f32Of (nat4 (x.aux1 + 4 * j))) else y
  let y := activate x.act y
  if x.legacy then
    let at_ := x.aux1 + b * x.bsc + i * x.ldc
    let row := rd (8 * (at_ + x.fc.scaleArea x.n) + j * x.fc.width) at_
    let elem := if x.steps.any (fun c => c == 1 || c == 2) then F32.ofNum (x.fc.valueAt row x.n j) else F32.zero
    legacyChain elem (f32Of (x.param / 2 ^ 32)) x.steps y
  else y

/-- d_i and q_i of a found row scale (R313): a_i as a finite magnitude. -/
def foundScale (a : F32) (top : Nat) : F32 × F32 :=
  let least : F32 := 0x00800000#32
  let d := if a.mag = 0 then F32.one
    else match a.num with
      | .fin _ m e =>
        let q := F32.divMag m top e
        if q.mag < least.mag then least else q
      | _ => F32.one
  let q := match d.num with
    | .fin _ m e => if m = 0 then F32.one else F32.divMag 1 m (-e)
    | _ => F32.one
  (d, q)

/-- A row segment after conversion: element bits, block scales, how many were clamped, largest magnitude (R314). -/
structure ConvRow where
  codes : List Nat
  scales : List Nat
  clamped : Nat
  amax : F32
  deriving DecidableEq, Repr

/-- Cut a list into pieces of `n`; `k` bounds the pieces. -/
def chunks {α : Type} (n : Nat) : Nat → List α → List (List α)
  | 0, _ => []
  | k + 1, l => if l.isEmpty then [] else l.take n :: chunks n k (l.drop n)

/-- Rounding of element (b, i, j) (R304, R308). -/
def Macro.rounding (x : Macro) (b i j : Nat) : Rounding := if x.sr then .sr (srBits x.tag b i j) else .rne

/-- Step 6 of Table 6-6 for columns `j0` onwards of row i of batch b; `found` after a found row scale, where a finite value
that rounds beyond F becomes F (R313). -/
def Macro.convRow (x : Macro) (b i j0 : Nat) (ys : List F32) : ConvRow :=
  let f := x.fc
  let amax := ys.foldl (fun (a : F32) y => if a.magLt y then BitVec.ofNat 32 y.mag else a) F32.zero
  if f.isMx then
    let bs := chunks 32 (ys.length + 1) ys
    let scales := bs.map (mxScale f)
    let codes := (List.range bs.length).flatMap fun q =>
      (List.range (bs.getD q []).length).map fun t =>
        if (bs.getD q []).all (·.mag == 0) then 0
        else mxElem f (x.rounding b i (j0 + 32 * q + t)) (scales.getD q 0) ((bs.getD q []).getD t F32.zero)
    ⟨codes, scales, 0, amax⟩
  else
    let cs := (List.range ys.length).map fun t =>
      let y := ys.getD t F32.zero
      let c := convert f x.nonsat (x.rounding b i (j0 + t)) y
      if x.scale = 3 && y.isFinite && c.clamped then
        match f with
        | .e5m2 => Conv.mk (if y.sign then 0xFB else 0x7B) true
        | .e4m3 => Conv.mk (if y.sign then 0xFE else 0x7E) true
        | _ => c
      else c
    ⟨cs.map (·.bits), [], (cs.filter (·.clamped)).length, amax⟩

/-- The number that packs element codes of width `w`, the first lowest. -/
def packCodes (w : Nat) : List Nat → Nat
  | [] => 0
  | c :: t => c % 2 ^ w + 2 ^ w * packCodes w t

/-- The writes of columns `j0` onwards of a row of `n` elements of format `f`: (offset in the row, bytes). Old bytes are read
through `rd`: bits of the last byte that belong to a column not written keep their value, and the row's spare bits are zero
(R245, R246, R288, R289). -/
def Fmt.rowWrites (f : Fmt) (n j0 : Nat) (rd : Nat → Byte) (codes scales : List Nat) : List (Nat × List Byte) :=
  if codes.isEmpty then []
  else
    let w := f.width
    let sa := f.scaleArea n
    let lo := j0 * w
    let nb := codes.length * w
    let first := lo / 8
    let head := lo % 8
    let v := packCodes w codes
    let last := (lo + nb + 7) / 8
    let tailBits := 8 * last - (lo + nb)
    let old := fun o => (rd (sa + o)).toNat
    let full := j0 + codes.length = n
    let v := bits (old first) 0 head + v * 2 ^ head
      + (if full ∨ tailBits = 0 then 0 else bits (old (last - 1)) (8 - tailBits) tailBits * 2 ^ (head + nb))
    let body := (sa + first, leBytes (last - first) v)
    if f.isMx then
      let pad := if full then List.replicate (sa - (j0 / 32 + scales.length)) (0 : Byte) else []
      [(j0 / 32, scales.map (BitVec.ofNat 8) ++ pad), body]
    else [body]

/-- Logical cores whose drain applies the epilogue: those of the columns of C (R313). -/
def Macro.epiCores (x : Macro) : List Nat := List.range (min 8 (ceilDiv x.n 64))

/-- Logical cores that the walk uses. -/
def Macro.cores (x : Macro) : List Nat :=
  List.range (match x.op with
    | 1 | 2 | 5 | 6 => min 8 (ceilDiv x.n 64)
    | 3 => if bits x.param 0 2 = 0 then 1 else 0
    | 4 => if bit x.param 19 then 1 else max 1 (min 8 (ceilDiv x.n 2048))
    | _ => 0)

/-- The lane mode of an opcode's passes. -/
def Macro.mode (x : Macro) : Option Nat :=
  match x.op with
  | 1 | 2 => some 0
  | 3 => if bits x.param 0 2 = 0 then some 0 else none
  | 4 => some 1
  | 5 => some 2
  | 6 => some 3
  | _ => none

end Sys2Proof.Machine
end

