-- ==== Sys2Proof/Machine/Tier.lean ====
section
/-! DEFINITION. The tier engine: pages, frames, quotas, promotion, eviction, far writes, accesses and tier commands (R325 to
R350, R370). An access that meets a far or a moving page waits, as does a read of remote bytes: nothing of it happens but the promotion, or
the request to the holder (R328, R337, R347). -/
namespace Sys2Proof.Machine

/-! ### Pages and frames -/

/-- Bytes of a page. -/
def pageBytes : Nat := 2 ^ 21

def pageKey (acct page : Nat) : Nat := acct * 2 ^ 26 + page
def Mdl.page (s : Mdl) (acct p : Nat) : Page := Table.get .none s.tir.map (pageKey acct p)
def Mdl.setPage (s : Mdl) (acct p : Nat) (x : Page) : Mdl :=
  { s with tir := { s.tir with map := Table.set .none s.tir.map (pageKey acct p) x } }

/-- Does a page hold a frame (STATE 1, or 4)? -/
def Page.framed (p : Page) : Bool := p.state == .hbm || p.state == .moving

/-- Pages an account holds in a tier: 0 HBM, 1 far, 2 remote ("Frames, quotas and migration"). -/
def Mdl.held (s : Mdl) (acct tier : Nat) : Nat :=
  (s.tir.map.filter fun p => p.1 / 2 ^ 26 == acct && match tier with
    | 0 => p.2.framed
    | 1 => p.2.state == .far
    | _ => p.2.state == .remote).length + if tier = 0 then (s.tir.frames.filter fun f => f.1 / 2 ^ 26 == acct).length else 0

/-- LIMIT and GUARANTEE of an account in a tier (R129): its own entry, the DEFAULT entry, or neither. -/
def Mdl.quota (s : Mdl) (acct tier : Nat) : Option Nat × Nat :=
  let qs : List Quota := match s.cht.chart with
    | some c => c.quotas.filter fun q => q.tier == tier
    | none => []
  let own := qs.find? fun q => !q.dflt && q.acct == acct
  match own.or (qs.find? fun q => q.dflt) with
  | some q => (if q.limit = 0xFFFFFFFF then none else some q.limit, q.guarantee)
  | none => (none, 0)

/-- Has an account room for one more page in a tier? -/
def Mdl.underLimit (s : Mdl) (acct tier : Nat) : Bool := match (s.quota acct tier).1 with
  | some l => decide (s.held acct tier < l)
  | none => true

/-- The unmet guarantee of an account. -/
def Mdl.unmet (s : Mdl) (acct : Nat) : Nat := (s.quota acct 0).2 - s.held acct 0

/-- Accounts with a quota entry or a mapped page. -/
def Mdl.knownAccounts (s : Mdl) : List Nat :=
  let a := match s.cht.chart with
    | some c => (c.quotas.filter fun q => q.tier == 0 && !q.dflt).map (·.acct)
    | none => []
  let b := s.tir.map.map fun p => p.1 / 2 ^ 26
  (a ++ b).foldl (fun l x => if l.contains x then l else x :: l) []

/-- System frames of a physical die (R330): the lowest ones (DESIGN CHOICE, assumption log entry 17). -/
def Mdl.sysFrames (s : Mdl) (p : Nat) : Nat := Table.get 0 s.tir.sysFrames p

/-- Frames in use on a physical die, system frames apart: those of pages, and those that a far write has freed for a page that waits. -/
def Mdl.usedFrames (s : Mdl) (p : Nat) : List Nat :=
  ((s.tir.map.filter fun x => x.2.framed && x.2.pdie == p).map fun x => x.2.frame)
    ++ (s.tir.frames.filter fun f => f.2.1 == p).map fun f => f.2.2

/-- Free frames of a physical die. -/
def Mdl.freeFrames (s : Mdl) (p : Nat) : Nat := 23552 - s.sysFrames p - (s.usedFrames p).length

/-- The first number from `i` not in a list, within `n` tries. -/
def firstNotIn (l : List Nat) : Nat → Nat → Nat
  | 0, i => i
  | n + 1, i => if l.contains i then firstNotIn l n (i + 1) else i

/-- The lowest free frame of a physical die (DESIGN CHOICE, assumption log entry 17). -/
def Mdl.lowestFrame (s : Mdl) (p : Nat) : Nat :=
  let used := s.usedFrames p
  firstNotIn used (used.length + 1) (s.sysFrames p)

/-- Dies in service that a lost die's number does not name (R43). -/
def Mdl.liveDies (s : Mdl) : List Nat := s.logDies.filter fun p => !s.svc.retiredDie p

/-- Physical dies in service whose network and HBM domain holds frames, nearest to die `h` first in ring order, the lower
logical number on a tie (R335). -/
def Mdl.nearDies (s : Mdl) (h : Nat) : List Nat :=
  let ds := s.liveDies
  let dist := fun p => min ((p + 4 - h % 4) % 4) ((h % 4 + 4 - p) % 4)
  (List.range 3).flatMap fun k => ds.filter fun p => dist p == k

/-- The die in service with the most free frames; the lower logical number on a tie. -/
def Mdl.roomiestDie (s : Mdl) : Nat :=
  (s.liveDies.foldl (fun (a : Option Nat) p => match a with
    | none => some p
    | some q => if s.freeFrames q < s.freeFrames p then some p else some q) none).getD 0

/-- The die a page's frame is taken on: HOME, or the die with the most free frames when HOME is out of service (R335). -/
def Mdl.homeOf (s : Mdl) (x : Page) : Nat := if s.liveDies.contains x.home then x.home else s.roomiestDie

/-! ### Eviction and frames (R336 to R345) -/

/-- Is a page clean: FAR_COPY set and DIRTY clear? -/
def Page.clean (x : Page) : Bool := x.farCopy && !x.dirty

/-- May this page be written to the far region now (R341, R344, R345)? -/
def Mdl.farWritable (s : Mdl) (acct p : Nat) : Bool :=
  !s.readOnly && s.underLimit acct 1 && match s.farSlot acct p with
    | some sl => s.farRoom sl
    | none => false

/-- Does an ATOMIC_ADD in flight use a page (R336)? -/
def Mdl.addsTo (s : Mdl) (acct p : Nat) : Bool := s.clusters.any fun y => (y.2.early ++ y.2.cur.toList).any fun m =>
  m.entry.acct == acct && Desc.opcode m.entry.desc == 9 &&
    let x := Macro.of m.entry.desc
    (List.range x.batch).any fun b => decide (x.cAddr + b * x.bsc < (p + 1) * pageBytes) && decide (p * pageBytes < x.cAddr + b * x.bsc + 8 * x.n)

/-- Is the page's frame promised to a page that waits for it (R336)? -/
def Mdl.promised (s : Mdl) (key : Nat) : Bool := s.tir.victims.any fun v => v.2 == key

/-- A candidate for eviction (R336), whose frame no page waits for yet; only a clean one when no page may be written to the far region (R385). -/
def Mdl.candidate (s : Mdl) (cleanOnly : Bool) (k : Nat × Page) : Bool :=
  let a := k.1 / 2 ^ 26
  let p := k.1 % 2 ^ 26
  k.2.state == .hbm && !k.2.pin && !s.promised k.1 && !s.addsTo a p && (k.2.clean || (!cleanOnly && s.farWritable a p))

/-- Is candidate `a` colder than `b` on die `h` (R336)? -/
def colder (h : Nat) (a b : Nat × Page) : Bool :=
  let k := fun (x : Nat × Page) => (b2n (!x.2.clean), x.2.access, b2n (x.2.pdie != h), x.1)
  let x := k a
  let y := k b
  if x.1 ≠ y.1 then decide (x.1 < y.1)
  else if x.2.1 ≠ y.2.1 then decide (x.2.1 < y.2.1)
  else if x.2.2.1 ≠ y.2.2.1 then decide (x.2.2.1 < y.2.2.1)
  else decide (x.2.2.2 < y.2.2.2)

/-- The coldest candidate among the accounts that `ok` allows (R336). -/
def Mdl.coldest (s : Mdl) (h : Nat) (cleanOnly : Bool) (ok : Nat → Bool) : Option (Nat × Page) :=
  (s.tir.map.filter fun k => ok (k.1 / 2 ^ 26) && s.candidate cleanOnly k).foldl (fun (a : Option (Nat × Page)) k =>
    match a with
    | none => some k
    | some b => if colder h k b then some k else some b) none

/-- A page in HBM becomes far: a clean one frees its frame at once, a dirty one with its far write (R336, R340, R341). -/
def Mdl.evict (s : Mdl) (k : Nat × Page) : Mdl :=
  let a := k.1 / 2 ^ 26
  let p := k.1 % 2 ^ 26
  let gone := { k.2 with state := .far, farCopy := true, dirty := false, frame := 0, pdie := 0, farWrite := false, leaving := false }
  if k.2.clean then s.setPage a p gone
  else
    match (s.farSlot a p).bind fun sl => s.farPut sl k.1 with
    | some s => (s.setPage a p gone).countSat Reg.TIR_COUNT_DEMOTE
    | none => s

/-- What the search for a frame comes to (R336): a frame of a die, a wait for a page that leaves, or Memory Quota Exceeded. -/
inductive FrameGot where
  | got (die frame : Nat) (s : Mdl)
  | wait (s : Mdl)
  | none

/-- Pages that leave HBM, their far writes not ended. -/
def Mdl.leavingPages (s : Mdl) : List (Nat × Page) := s.tir.map.filter fun k => k.2.leaving

/-- A page is to leave HBM (R336, R339, R386): at once when it is clean, else when its far write has ended (R340). -/
def Mdl.sendFar (s : Mdl) (k : Nat × Page) : Mdl :=
  if k.2.clean then s.evict k else s.setPage (k.1 / 2 ^ 26) (k.1 % 2 ^ 26) { k.2 with leaving := true }

/-- Page `key` waits for no frame any more. -/
def Mdl.dropWish (s : Mdl) (key : Nat) : Mdl :=
  { s with tir := { s.tir with victims := s.tir.victims.filter (fun v => v.1 != key), frames := s.tir.frames.filter fun f => f.1 != key } }

/-- The frame of the coldest candidate of the accounts that `ok` allows, for page `key` (R336): a clean one's at once, a dirty one's after its far
write, which ends with the frame given to `key`. -/
def Mdl.evictFor (s : Mdl) (h key : Nat) (cleanOnly : Bool) (ok : Nat → Bool) : FrameGot :=
  match s.coldest h cleanOnly ok with
  | some k =>
    if k.2.clean then .got k.2.pdie k.2.frame (s.evict k)
    else
      let s := s.sendFar k
      .wait { s with tir := { s.tir with victims := (key, k.1) :: s.tir.victims } }
  | none =>
    let going := fun (k : Nat × Page) => ok (k.1 / 2 ^ 26) && s.farWritable (k.1 / 2 ^ 26) (k.1 % 2 ^ 26)
    if !cleanOnly && s.leavingPages.any going then .wait s else .none

/-- Does a page leave HBM for another that waits for its frame? -/
def Mdl.stillLeaves (s : Mdl) (key : Nat) : Bool :=
  let x := s.page (key / 2 ^ 26) (key % 2 ^ 26)
  x.state == .hbm && x.leaving && s.farWritable (key / 2 ^ 26) (key % 2 ^ 26)

/-- A frame for page `p` of account `a` on die `h` (R336): the one that a far write has freed for it, or else by the search. -/
def Mdl.obtainFrame (s : Mdl) (a p h : Nat) (cleanOnly : Bool := false) : FrameGot :=
  let key := pageKey a p
  match s.tir.frames.find? fun f => f.1 == key with
  | some f => .got f.2.1 f.2.2 (s.dropWish key)
  | none =>
    if s.tir.victims.any fun v => v.1 == key && s.stillLeaves v.2 then .wait s
    else
      let s := s.dropWish key
      let free := (s.nearDies h).find? fun p => decide (0 < s.freeFrames p)
      let total := s.liveDies.foldl (fun n p => n + s.freeFrames p) 0
      let others := s.knownAccounts.foldl (fun n b => if b = a then n else n + s.unmet b) 0
      if !s.underLimit a 0 then s.evictFor h key cleanOnly (· == a)
      else
        match (if 0 < s.unmet a ∨ others < total then free else none) with
        | some p => .got p (s.lowestFrame p) s
        | none =>
          match s.evictFor h key cleanOnly (fun b => b != a && decide ((s.quota b 0).2 < s.held b 0)) with
          | .none => s.evictFor h key cleanOnly (· == a)
          | r => r

/-! ### Page faults (R328, Tables 7-21 and 7-22) -/

/-- Why an access ended (Table 7-22). -/
inductive PageFault where
  | notMapped | quota | unreachable | lost
  deriving DecidableEq, Repr

def PageFault.kind : PageFault → Nat
  | .notMapped => 1 | .quota => 2 | .unreachable => 3 | .lost => 4
/-- The page fault of a KIND. -/
def PageFault.ofKind (k : Nat) : PageFault := match k with | 2 => .quota | 3 => .unreachable | 4 => .lost | _ => .notMapped
def PageFault.status : PageFault → Status
  | .notMapped => .pageNotMapped | .quota => .memoryQuotaExceeded | .unreachable => .spanPeerUnreachable
  | .lost => .deviceMemoryLost

/-- Record an access that ended, unless the record holds a fault. -/
def Mdl.recordFault (s : Mdl) (f : PageFault) (acct addr : Nat) : Mdl :=
  if s.flag Reg.TIR_FAULT_ADDR_VALID then s
  else s.setRegs [(Reg.TIR_FAULT_ADDR_ADDR, addr), (Reg.TIR_FAULT_ADDR_ACCOUNT, acct), (Reg.TIR_FAULT_ADDR_VALID, 1),
    (Reg.TIR_FAULT_INFO_KIND, f.kind)]

/-- Record an access that ended here; one that found no route to its holder is counted on the link (R627). -/
def Mdl.recordPage (s : Mdl) (f : PageFault) (acct addr : Nat) : Mdl :=
  let x := s.page acct (addr / pageBytes)
  (if f = .unreachable ∧ x.state = .remote then s.unrouted x.module else s).recordFault f acct addr

/-! ### Promotion (R335 to R337, R486) -/

/-- A page with its HOME: on the first promotion the die of the accessing cluster, or the roomiest die (R335). -/
def Mdl.withHome (s : Mdl) (x : Page) (cause : Option Nat) : Page :=
  if x.homed then x else { x with home := cause.getD s.roomiestDie, homed := true }

/-- A page enters STATE 5 (R370, R486, R489, R494, R543). -/
def Mdl.losePage (s : Mdl) (a p : Nat) : Mdl :=
  let x := s.page a p
  if x.state = .unmapped ∨ x.state = .remote ∨ x.state = .lost then s
  else
    let s := s.farDrop (pageKey a p)
    (s.setPage a p { x with state := .lost, frame := 0, pdie := 0, farCopy := false, farWrite := false, leaving := false }).count Reg.TIR_LOST_PAGES

/-- Does a promotion of a page wait for a frame? -/
def Mdl.waitsFrame (s : Mdl) (a p : Nat) : Bool := s.tir.waiting.any fun q => q.acct == a && q.page == p

/-- A promotion's frame is obtained and its read joins the Coudé path: STATE 4 (R337, R363). While its frame is held by a page that leaves
it waits; none for Memory Quota Exceeded. -/
def Mdl.beginPromote (s : Mdl) (a p : Nat) (cause : Option Nat) (cls : CoudeClass) (cleanOnly : Bool := false) : Option Mdl :=
  let x := s.withHome (s.page a p) cause
  if s.waitsFrame a p then some s
  else match s.obtainFrame a p (s.homeOf x) cleanOnly with
    | .got d f s =>
      let s := s.setPage a p { x with state := .moving, farCopy := true, dirty := false, pdie := d, frame := f }
      some { s with tir := { s.tir with coude := s.tir.coude ++ [CoudeReq.mk a p cls none] } }
    | .wait s =>
      let s := s.setPage a p x
      some { s with tir := { s.tir with waiting := s.tir.waiting ++ [CoudeReq.mk a p cls none] } }
    | .none => none

/-- A page that stays in HBM: PIN set, and no far write of it goes on (Table 7-1). -/
def Page.pinned (x : Page) : Page := { x with pin := true, farWrite := false, leaving := false }

/-- Pages that can no longer be written to the far region stay (R344, R345). -/
def Mdl.keepUnwritable (s : Mdl) : Mdl :=
  (s.leavingPages.filter fun k => !k.2.farWrite && !s.farWritable (k.1 / 2 ^ 26) (k.1 % 2 ^ 26)).foldl
    (fun s k => s.setPage (k.1 / 2 ^ 26) (k.1 % 2 ^ 26) { k.2 with leaving := false }) s

/-- The promotions that wait for frames are tried again, in the order of their requests. -/
def Mdl.serveFrames (s : Mdl) : Mdl :=
  let s := s.keepUnwritable
  s.tir.waiting.foldl (fun (s : Mdl) q => if (s.page q.acct q.page).state = .far then (s.beginPromote q.acct q.page none q.cls).getD s else s)
    { s with tir := { s.tir with waiting := [] } }

/-- Move an HBM page's frame to another die when one is free there (R350, R371). -/
def Mdl.moveFrame (s : Mdl) (a p die : Nat) : Mdl :=
  let x := s.page a p
  if x.state = .hbm ∧ x.pdie ≠ die ∧ s.liveDies.contains die ∧ 0 < s.freeFrames die then
    s.setPage a p { x with pdie := die, frame := s.lowestFrame die }
  else s

/-- A page is to be pinned, with its HOME, once it is in HBM; `move`: it also moves to that die where a frame allows (R354, R366, R371). -/
def Mdl.wishPin (s : Mdl) (a p die : Nat) (move : Bool) : Mdl :=
  let key := pageKey a p
  { s with tir := { s.tir with pins := (key, die, move) :: s.tir.pins.filter fun w => w.1 != key } }

/-- A page is not to be pinned any more. -/
def Mdl.dropPin (s : Mdl) (a p : Nat) : Mdl := { s with tir := { s.tir with pins := s.tir.pins.filter fun w => w.1 != pageKey a p } }

/-- A page has reached HBM: what was to be done with it then is done. -/
def Mdl.landed (s : Mdl) (a p : Nat) : Mdl :=
  let key := pageKey a p
  let s : Mdl := { s with tir := { s.tir with late := s.tir.late.filter fun l => l.2 != key } }
  match s.tir.pins.find? fun w => w.1 == key with
  | some w =>
    let s := (s.dropPin a p).setPage a p { (s.page a p).pinned with home := w.2.1, homed := true }
    if w.2.2 then s.moveFrame a p w.2.1 else s
  | none => s

/-- A promoted page reaches HBM: STATE 1, FAR_COPY set and DIRTY clear (R337). -/
def Mdl.arrive (s : Mdl) (a p : Nat) : Mdl :=
  let s := { s with tir := { s.tir with coude := s.tir.coude.filter fun q => q.copy.isSome || !(q.acct == a && q.page == p) } }
  let x := s.page a p
  if x.state = .moving then (s.setPage a p { x with state := .hbm, farCopy := true, dirty := false }).landed a p else s

/-- The first touch of a page after a boundary raises ACCESS when it misses the dome cache: a free value (R338). -/
def Mdl.touch (s : Mdl) (a p : Nat) : Mdl :=
  let x := s.page a p
  if x.touched then s
  else
    let r := s.fresh 1
    if r.1 = 1 then r.2.setPage a p { x with touched := true, access := min 255 (x.access + 1) } else r.2

/-- A write dirties a page and stops its far write: it stays in HBM (R342). -/
def Mdl.dirtyPage (s : Mdl) (a p : Nat) : Mdl :=
  let x := s.page a p
  let s := s.setPage a p { x with dirty := true, farWrite := false, leaving := x.leaving && !x.farWrite }
  if x.farWrite then s.countSat Reg.TIR_COUNT_DEMOTE_STOPPED else s

/-! ### Accesses (R328, R342, R347, R349) -/

/-- How something accesses pages: the physical die of its cluster, its job, the layer of its progress tag, its traffic class, and who it is. -/
structure Accessor where
  die : Option Nat
  job : Option Nat
  layer : Option (Nat × Nat)
  tc : Nat
  who : Reader
  deriving DecidableEq, Repr

/-- An access in traffic class 0 that no cluster and no job makes. -/
def Accessor.of (who : Reader) : Accessor := ⟨none, none, none, 0, who⟩

/-- Why an access does not take place: a page fault at an address (Table 7-22), or it waits (R328). -/
inductive AccessEnd where
  | fault (f : PageFault) (addr : Nat)
  | wait (f : WaitFor)
  deriving DecidableEq, Repr

/-- Is a page in an Almanac range of the slot whose NEED_LAYER is the accessor's layer (R362)? -/
def Mdl.lateFor (s : Mdl) (w : Accessor) (a p : Nat) : Bool :=
  match w.layer with
  | none => false
  | some (slot, layer) =>
    s.reg (Reg.TIR_MODEL_ID_ACCOUNT slot) == a &&
      (Table.get ModelSt.init s.tir.models slot).almanac.any fun e =>
        e.needLayer == layer && (e.kind == 1 || e.kind == 3) &&
          let n := if e.kind = 3 then e.pages * e.experts else e.pages
          decide (e.addr / pageBytes ≤ p) && decide (p < e.addr / pageBytes + n)

/-- Can a module be reached with a request (R349, R641, R642)? -/
def Mdl.reachable (s : Mdl) (module : Nat) : Bool := !s.peerLost module && (s.routeTo module).isSome && s.mayRequest

/-- The pages that a byte range meets. -/
def pagesOf (addr n : Nat) : List Nat :=
  if n = 0 then [] else (List.range ((addr + n - 1) / pageBytes - addr / pageBytes + 1)).map (addr / pageBytes + ·)

/-- The 64-byte lines of a remote page, or of a part of it, that a byte range meets. -/
def linesOf (addr n : Nat) : List Nat := if n = 0 then [] else (List.range ((addr + n - 1) / 64 - addr / 64 + 1)).map fun i => 64 * (addr / 64 + i)

/-- The part of a byte range that lies in a page: its first byte and its length. -/
def partIn (addr n p : Nat) : Nat × Nat := (max addr (p * pageBytes), min (addr + n) ((p + 1) * pageBytes) - max addr (p * pageBytes))

/-- The first page of a range whose STATE makes an access wait: far or moving. An access that meets an unmapped or lost page before it ends
there. -/
def Mdl.waitPage (s : Mdl) (a addr n : Nat) : Option Nat :=
  match (pagesOf addr n).find? fun p => (s.page a p).state != .hbm && (s.page a p).state != .remote with
  | some p => if (s.page a p).state = .far ∨ (s.page a p).state = .moving then some p else none
  | none => none

/-- The lines of remote pages in a range that have not come yet for who reads them (R347). -/
def Mdl.missingLines (s : Mdl) (w : Accessor) (a addr n : Nat) : List Nat :=
  ((pagesOf addr n).filter fun p => (s.page a p).state == .remote && s.reachable (s.page a p).module).flatMap fun p =>
    (linesOf (partIn addr n p).1 (partIn addr n p).2).filter fun l => !s.spn.lines.any fun q => q.who == w.who && q.key == memKey a l

/-- What an access waits for: the pages of a far or moving range, then the bytes that a read has of remote ones. -/
def Mdl.waitFor (s : Mdl) (w : Accessor) (a addr n : Nat) (write : Bool) : Option WaitFor :=
  match s.waitPage a addr n with
  | some p => some (.page p)
  | none => if write || (s.missingLines w a addr n).isEmpty then none else some (.lines addr n)

/-- The page fault that the tier map gives one page, or that a remote read of it has met (R328, R347, R349). -/
def Mdl.pageFault (s : Mdl) (w : Accessor) (a addr n p : Nat) (write : Bool) : Option PageFault :=
  let x := s.page a p
  match x.state with
  | .unmapped => some .notMapped
  | .lost => some .lost
  | .remote =>
    let ls := if write then [] else (linesOf (partIn addr n p).1 (partIn addr n p).2).map (memKey a)
    match s.spn.lines.find? fun q => q.who == w.who && q.kind != 0 && ls.contains q.key with
    | some q => some (PageFault.ofKind q.kind)
    | none => if s.reachable x.module then none else some .unreachable
  | _ => none

/-- The dome cache and the tier map see an access to a page in HBM (R338, R342). -/
def Mdl.usePage (s : Mdl) (a p : Nat) (write : Bool) : Mdl :=
  if (s.page a p).state = .hbm then
    let s := s.touch a p
    if write then s.dirtyPage a p else s
  else s

/-- Count a request of a job (R637). -/
def Mdl.countIssued (s : Mdl) (job : Option Nat) : Mdl := match job with
  | none => s
  | some j => match Table.get none s.sch.jobs j with
    | none => s
    | some x => { s with sch := { s.sch with jobs := Table.set none s.sch.jobs j (some { x with issued := x.issued + 1 }) } }

/-- A request to the holder of a remote page (R347): a line read, a line written with the mask of its bytes, or an add. One that finds no route
is counted (R627). -/
def Mdl.remoteRequest (s : Mdl) (w : Accessor) (a addr type : Nat) (data : List Byte) (use_ : ReqUse) : Mdl :=
  let x := s.page a (addr / pageBytes)
  match s.request x.module w.tc type (spanOffset x.rpage (addr % pageBytes)) data [] use_ with
  | some s => s.countIssued w.job
  | none => s.unrouted x.module

/-- Ask for the lines of a range that have not come and are not under way: one READ64 each (R347). -/
def Mdl.askLines (s : Mdl) (w : Accessor) (a addr n : Nat) : Mdl :=
  (s.missingLines w a addr n).foldl (fun (s : Mdl) l =>
    let use_ := ReqUse.line (w.job.getD 4096) a l w.who
    if (s.spn.reqs ++ s.spn.blocked).any fun r => r.purpose == use_ then s else s.remoteRequest w a l 0x01 [] use_) s

/-- The bytes that a reader has had of remote pages are used up; what is still under way serves nothing more. -/
def Mdl.dropLines (s : Mdl) (who : Reader → Bool) : Mdl :=
  let idle := fun (r : SpanReq) => match r.purpose with
    | .line j a addr w => if who w then { r with purpose := .access j a addr w } else r
    | _ => r
  { s with spn := { s.spn with
      lines := s.spn.lines.filter fun l => !who l.who, reqs := s.spn.reqs.map idle, blocked := s.spn.blocked.map idle
      parked := s.spn.parked.map idle } }

/-- Send the bytes just written to the remote pages of a range to their holders: one WRITE64 a line (R347). -/
def Mdl.flushRemote (s : Mdl) (w : Accessor) (a addr n : Nat) : Mdl :=
  ((pagesOf addr n).filter fun p => (s.page a p).state == .remote).foldl (fun s p =>
    (linesOf (partIn addr n p).1 (partIn addr n p).2).foldl (fun (s : Mdl) l =>
      let mask := (List.range 64).foldl (fun m b => if addr ≤ l + b ∧ l + b < addr + n then m + 2 ^ b else m) 0
      s.remoteRequest w a l 0x02 (leBytes 8 mask ++ s.memRead a l 64) (.access (w.job.getD 4096) a l w.who)) s) s

/-- Access a byte range before reading it or writing it (R328): it waits, or ends at its first page fault, or its pages are used. -/
def Mdl.access (s : Mdl) (w : Accessor) (a addr n : Nat) (write : Bool) : Except AccessEnd Mdl :=
  match s.waitFor w a addr n write with
  | some f => .error (.wait f)
  | none => match (pagesOf addr n).findSome? fun p => (s.pageFault w a addr n p write).map fun f => (f, (partIn addr n p).1) with
    | some f => .error (.fault f.1 f.2)
    | none => .ok ((pagesOf addr n).foldl (fun (s : Mdl) p => s.usePage a p write) s)

/-- Write bytes to a range: its pages are accessed, the bytes are written, remote ones are sent. -/
def Mdl.storeBytes (s : Mdl) (w : Accessor) (a addr : Nat) (l : List Byte) : Except AccessEnd Mdl :=
  (s.access w a addr l.length true).map fun s => (s.memWrite a addr l).flushRemote w a addr l.length

/-- Read bytes of a range. -/
def Mdl.loadBytes (s : Mdl) (w : Accessor) (a addr n : Nat) : Except AccessEnd (List Byte × Mdl) :=
  (s.access w a addr n false).map fun s => (s.memRead a addr n, s)

/-! ### Far writes and the sweep (R339 to R342, R525) -/

/-- Is a program window open for a cartridge, with time for a page program (R98, R340)? -/
def Mdl.programOpen (s : Mdl) (slot : Nat) : Bool :=
  s.ignoreWindows || (List.range 16).any fun g => decide (1100000 ≤ s.remaining 1 (flashTarget slot g))

/-- In a program window, a page that leaves HBM begins its far write on its cartridge (R340, R341); outside one the write stays pending
work of the class (R105). -/
def Mdl.beginFarWrite (s : Mdl) (a p : Nat) : Mdl :=
  let x := s.page a p
  if x.state = .hbm ∧ x.leaving ∧ ¬ x.farWrite ∧ s.farWritable a p then
    match s.farSlot a p with
    | some sl => if s.programOpen sl then s.setPage a p { x with farWrite := true } else s.want 1 (flashTarget sl 0)
    | none => s
  else s

/-- The frame that a page has left is the one of the page that waited for it (R336). -/
def Mdl.giveFrame (s : Mdl) (key die frame : Nat) : Mdl := match s.tir.victims.find? fun v => v.2 == key with
  | some v =>
    let s := s.dropWish v.1
    { s with tir := { s.tir with frames := (v.1, die, frame) :: s.tir.frames } }
  | none => s

/-- A far write ends: the page map is set, the old copy is dead, and the page's frame is free (R340, R525). -/
def Mdl.endFarWrite (s : Mdl) (a p : Nat) : Mdl :=
  let x := s.page a p
  if x.farWrite then
    let s := s.evict (pageKey a p, x)
    if (s.page a p).farWrite then s.setPage a p { x with farWrite := false, leaving := false } else s.giveFrame (pageKey a p) x.pdie x.frame
  else s

/-- The sweep of a logical die's physical die (R339): candidates on it, of accounts above their guarantee, until its free frames and those
of the pages that leave reach HIGH. -/
def Mdl.sweepDie (s : Mdl) (p : Nat) : Nat → Mdl
  | 0 => s
  | n + 1 =>
    if s.reg Reg.TIR_WATER_HIGH ≤ s.freeFrames p + (s.leavingPages.filter fun k => k.2.pdie == p).length then s
    else
      let cands := s.tir.map.filter fun k =>
        let a := k.1 / 2 ^ 26
        k.2.pdie == p && !k.2.leaving && s.candidate false k && decide ((s.quota a 0).2 < s.held a 0)
      match cands.foldl (fun (a : Option (Nat × Page)) k => match a with
        | none => some k
        | some b => if colder p k b then some k else some b) none with
      | none => s
      | some k => Mdl.sweepDie (s.sendFar k) p n

/-- Free frames below LOW start the sweep (R339). -/
def Mdl.watermarkSweep (s : Mdl) : Mdl :=
  s.liveDies.foldl (fun s p =>
    if s.freeFrames p < s.reg Reg.TIR_WATER_LOW then s.sweepDie p s.tir.map.length else s) s

/-- Release what a page holds, and its content (R350, UNMAP). A remote mapping is released at its holder too (R346). -/
def Mdl.unmapPage (s : Mdl) (a p : Nat) : Mdl :=
  let x := s.page a p
  let s := ((s.farDrop (pageKey a p)).dropWish (pageKey a p)).dropPin a p
  let s := { s with mem := s.mem.clear (memKey a (p * pageBytes)) pageBytes }
  let s := s.setPage a p .none
  if x.state = .remote ∨ x.fetching then
    (s.sendDir x.module 0x10 (x.rpage % 16384) 2 0 (.page a p false)).getD (s.unrouted x.module)
  else s

/-- What one page of a tier command comes to: done, an error of Table 7-4, a wait for a move or a frame (R343), or for the holder (R346). -/
inductive PageStep where
  | done (s : Mdl)
  | error (code : Nat) (s : Mdl)
  | wait (s : Mdl)
  | asked (s : Mdl)

/-- Map a page in HBM, zero-filled (R350). -/
def Mdl.mapHbm (s : Mdl) (a p : Nat) (home : Option Nat) (cleanOnly : Bool := false) : PageStep :=
  let h := home.getD s.roomiestDie
  match s.obtainFrame a p (if s.liveDies.contains h then h else s.roomiestDie) cleanOnly with
  | .got d f s =>
    let s := { s with mem := s.mem.clear (memKey a (p * pageBytes)) pageBytes }
    .done (s.setPage a p { Page.none with state := .hbm, home := h, homed := true, pdie := d, frame := f })
  | .wait s => .wait s
  | .none => .error 2 s

/-! ### Accesses that wait (R328, R337, R362) -/

/-- Is a demand promotion of a page under way? -/
def Mdl.demanded (s : Mdl) (a p : Nat) : Bool := (s.tir.coude ++ s.tir.waiting).any fun q => q.acct == a && q.page == p && q.cls == .demand

/-- An access that waits for a demand promotion counts in TIR_ALM.LATE, once (R362). -/
def Mdl.countLate (s : Mdl) (w : Accessor) (a p : Nat) : Mdl :=
  let k := (w.who, pageKey a p)
  if s.demanded a p && s.lateFor w a p && !s.tir.late.contains k then
    { s with tir := { s.tir with late := k :: s.tir.late } }.countSat Reg.TIR_ALM_LATE
  else s

/-- An access waits for a page: a far one's demand promotion begins, unless it waits for a frame already (R337, R362); none for Memory Quota
Exceeded. -/
def Mdl.awaitPage (s : Mdl) (w : Accessor) (a p : Nat) : Option Mdl :=
  if (s.page a p).state ≠ .far ∨ s.waitsFrame a p then some (s.countLate w a p)
  else (s.beginPromote a p w.die .demand).map fun s => (s.countSat Reg.TIR_COUNT_DEMAND).countLate w a p

/-- An access waits: its page is promoted, or its remote lines are asked for; none for Memory Quota Exceeded. -/
def Mdl.beginWait (s : Mdl) (w : Accessor) (a : Nat) : WaitFor → Option Mdl
  | .page p => s.awaitPage w a p
  | .lines addr n => some (s.askLines w a addr n)

/-- The address at which a wait stands. -/
def WaitFor.addr : WaitFor → Nat
  | .page p => p * pageBytes
  | .lines a _ => a

/-! ### Remote placement (R346) -/

/-- The lowest index of this module's window at a holder that no page of this module names (DESIGN CHOICE, log entry 17). -/
def Mdl.windowSlot (s : Mdl) (holder : Nat) : Nat :=
  let used := (s.tir.map.filter fun k => k.2.state == .remote && k.2.module == holder).map fun k => k.2.rpage % 16384
  let asked := s.spn.reqs.filterMap fun r => match r.purpose with
    | .page _ _ true => if r.msg.dst = holder then some (leNat ((r.msg.data.drop 8).take 2)) else none
    | _ => none
  firstNotIn (used ++ asked) (used.length + asked.length + 1) 0

/-- Ask a holder to map a page (R346): none when it cannot be reached. -/
def Mdl.askRemote (s : Mdl) (a p holder : Nat) : Option Mdl :=
  s.sendDir holder 0x10 (s.windowSlot holder) 1 0 (.page a p true)

/-- Is a request one of those that bring in a page? -/
def SpanReq.pulls (r : SpanReq) (a p : Nat) : Bool := match r.purpose with
  | .line _ b addr .page => b == a && addr / pageBytes == p
  | _ => false

/-- Bring a remote page into HBM, on die `home` or the roomiest one: a frame is obtained, and the page is in STATE 4 while its bytes are read from
its holder. -/
def Mdl.fetchRemote (s : Mdl) (a p : Nat) (home : Option Nat) : PageStep :=
  let x := s.page a p
  if !s.reachable x.module then .error 3 s
  else
    let h := match home with
      | some h => if s.liveDies.contains h then h else s.roomiestDie
      | none => s.roomiestDie
    match s.obtainFrame a p h with
    | .none => .error 2 s
    | .wait s => .wait s
    | .got die f s =>
      let s := s.setPage a p { x with state := .moving, fetching := true, home := home.getD die, homed := true, pdie := die, frame := f }
      .wait ((linesOf (p * pageBytes) pageBytes).foldl (fun (s : Mdl) l =>
        s.remoteRequest (.of .page) a l 0x01 [] (.line 4096 a l .page)) s)

/-- A page whose bytes have come from its holder is in HBM, and its mapping there is released. -/
def Mdl.fetched (s : Mdl) (a p : Nat) : Mdl :=
  let x := s.page a p
  let s := (s.setPage a p { x with state := .hbm, fetching := false, dirty := true, farCopy := false, rpage := 0, module := 0 }).landed a p
  (s.sendDir x.module 0x10 (x.rpage % 16384) 2 0 (.page a p false)).getD (s.unrouted x.module)

/-- A page that could not be brought in is remote again. -/
def Mdl.unfetch (s : Mdl) (a p : Nat) : Mdl :=
  let x := s.page a p
  let s : Mdl := { s with spn := { s.spn with
    blocked := s.spn.blocked.filter fun r => !r.pulls a p
    reqs := s.spn.reqs.map fun r => if r.pulls a p then { r with purpose := .sync } else r } }
  s.setPage a p { x with state := .remote, fetching := false, frame := 0, pdie := 0 }

/-! ### Tier commands (R350, Tables 7-3 and 7-4) -/

/-- Bring a page into HBM for PIN or MOVE: a far one at the commands' priority (R363). -/
def Mdl.intoHbm (s : Mdl) (a p : Nat) : PageStep :=
  match (s.page a p).state with
  | .far => match s.beginPromote a p none .command with
    | some s => .wait s
    | none => .error 2 s
  | .remote => s.fetchRemote a p none
  | .unmapped | .lost => .error 1 s
  | .moving => .wait s
  | .hbm => .done s

/-- MAP of one page (Table 7-3). -/
def Mdl.mapStep (s : Mdl) (c : TierCmd) (p : Nat) : PageStep :=
  if (s.page c.acct p).state ≠ .unmapped then .error 1 s
  else match c.tier with
    | 0 => s.mapHbm c.acct p none
    | 1 =>
      if s.farWritable c.acct p then
        match (s.farSlot c.acct p).bind fun sl => s.farPut sl (pageKey c.acct p) with
        | some s => .done (s.setPage c.acct p { Page.none with state := .far, farCopy := true })
        | none => .error 2 s
      else .error 2 s
    | _ =>
      if !s.underLimit c.acct 2 then .error 2 s
      else match s.askRemote c.acct p c.module with
        | some s => .asked s
        | none => .error 3 s

/-- MOVE of one page (Table 7-3): a pinned page is never demoted, and a remote page never moves to another holder. A dirty page is far when
its far write has ended (R340). -/
def Mdl.moveStep (s : Mdl) (c : TierCmd) (p : Nat) : PageStep :=
  let x := s.page c.acct p
  if x.state = .unmapped ∨ x.state = .lost then .error 1 s
  else if x.state = .moving then .wait s
  else match c.tier with
    | 0 => s.intoHbm c.acct p
    | 1 =>
      if x.state = .far then .done s
      else if x.pin then .error 4 s
      else if !s.farWritable c.acct p then .error 2 s
      else if x.leaving then .wait s
      else if x.state = .remote then s.fetchRemote c.acct p none
      else if x.clean then .done (s.evict (pageKey c.acct p, x))
      else .wait (s.sendFar (pageKey c.acct p, x))
    | _ =>
      if x.state = .remote then (if x.module = c.module then .done s else .error 4 s)
      else if x.pin then .error 4 s
      else if !s.underLimit c.acct 2 then .error 2 s
      else match s.askRemote c.acct p c.module with
        | some s => .asked s
        | none => .error 3 s

/-- One page of a tier command (Table 7-3); one outside the range fails. UNMAP, PIN, UNPIN and MOVE wait for a page in STATE 4 (R343). -/
def Mdl.pageStep (s : Mdl) (c : TierCmd) (p : Nat) : PageStep :=
  let x := s.page c.acct p
  if 2 ^ 26 ≤ p then .error 4 s
  else match c.op with
  | 1 => s.mapStep c p
  | 2 => if x.state = .unmapped then .error 1 s else if x.state = .moving then .wait s else .done (s.unmapPage c.acct p)
  | 3 => match s.intoHbm c.acct p with
    | .done s => .done (s.setPage c.acct p (s.page c.acct p).pinned)
    | r => r
  | 4 =>
    if x.state = .unmapped then .error 1 s else if x.state = .moving then .wait s
    else .done ((s.dropPin c.acct p).setPage c.acct p { x with pin := false })
  | 5 =>
    match s.moveStep c p with
    | .done t => if c.tier = 1 ∧ (t.page c.acct p).state ≠ .far then t.moveStep c p else .done t
    | r => r
  | _ =>
    match s.logDies[c.home]? with
    | none => .error 4 s
    | some die =>
      if x.state = .unmapped then .error 1 s
      else .done ((s.setPage c.acct p { x with home := die, homed := true }).moveFrame c.acct p die)

/-- A tier command ends: DONE, ERR and PAGES_DONE. -/
def Mdl.tierEnd (s : Mdl) (err done : Nat) : Mdl :=
  { s with tir := { s.tir with cmd := none } }.setRegs
    [(Reg.TIR_CMD_STATUS_BUSY, 0), (Reg.TIR_CMD_STATUS_DONE, 1), (Reg.TIR_CMD_STATUS_ERR, err), (Reg.TIR_CMD_STATUS_PAGES_DONE, done)]

/-- A tier command waits at its next page. -/
def Mdl.tierWait (s : Mdl) (c : TierCmd) : Mdl :=
  { s with tir := { s.tir with cmd := some c } }.setRegs [(Reg.TIR_CMD_STATUS_BUSY, 1), (Reg.TIR_CMD_STATUS_PAGES_DONE, c.done)]

/-- Run a tier command from its next page until it ends or waits; `n` bounds the pages. -/
def Mdl.tierRun (s : Mdl) (c : TierCmd) : Nat → Mdl
  | 0 => s.tierEnd 0 c.done
  | n + 1 =>
    if c.count ≤ c.done then s.tierEnd 0 c.done
    else
      match s.pageStep c (c.addr / pageBytes + c.done) with
      | .done s => Mdl.tierRun s { c with done := c.done + 1 } n
      | .error e s => s.tierEnd e c.done
      | .wait s => s.tierWait { c with asked := false }
      | .asked s => s.tierWait { c with asked := true }

/-- A tier command that waits for a move or a frame goes on (R343). -/
def Mdl.tierResume (s : Mdl) : Mdl := match s.tir.cmd with
  | some c => if c.asked then s else s.tierRun c (c.count + 1)
  | none => s

/-- A tier command is written (R350): its arguments are latched and checked. -/
def Mdl.tierCommand (s : Mdl) (op tier home acct : Nat) : Mdl :=
  if s.flag Reg.TIR_CMD_STATUS_BUSY then s.setReg Reg.TIR_CMD_STATUS_ERR 5
  else
    let addr := s.reg Reg.TIR_CMD_ADDR_ADDR
    let count := s.reg Reg.TIR_CMD_ARG_COUNT
    if acct = 0xFFFF ∨ addr % pageBytes ≠ 0 ∨ 2 ^ 47 ≤ addr
        ∨ ((op = 1 ∨ op = 5) ∧ 2 < tier) ∨ op < 1 ∨ 6 < op then s.tierEnd 4 0
    else s.tierRun ⟨op, tier, home, acct, addr, count, s.reg Reg.TIR_CMD_ARG_MODULE, 0, false⟩ (count + 1)

/-- The holder has answered a MAP_REQ of the command under way (R346): outcome 0 done, 3 quota exceeded. A page moved out keeps
its bytes: they travel to the holder in bulk moves. -/
def Mdl.tierMapped (s : Mdl) (a p rpage module outcome : Nat) : Mdl :=
  match s.tir.cmd with
  | none => s
  | some c =>
    if c.asked ∧ c.acct = a ∧ c.addr / pageBytes + c.done = p then
      if outcome = 0 then
        let was := (s.page a p).state
        let s := s.farDrop (pageKey a p)
        let s := s.setPage a p { Page.none with state := .remote, rpage := rpage, module := module }
        let s := if was = .unmapped then s
          else (List.range 32).foldl (fun s i =>
            let off := i * 65536
            (s.request module 0 0x04 (spanOffset rpage off) (leBytes 16 65536) (s.memRead a (p * pageBytes + off) 65536)
              (.access 4096 a (p * pageBytes + off) .page)).getD (s.unrouted module)) s
        s.tierRun { c with done := c.done + 1, asked := false } (c.count + 1)
      else s.tierEnd (if outcome = 3 then 2 else 3) c.done
    else s

/-! ### Boundaries, die faults, charts (R338, R370, R371) -/

/-- Every ACCESS is halved (R338). -/
def Mdl.halveAccess (s : Mdl) : Mdl :=
  s.tir.map.foldl (fun s k => s.setPage (k.1 / 2 ^ 26) (k.1 % 2 ^ 26) { k.2 with access := k.2.access / 2 }) s

/-- A boundary: the next miss to each page counts again (R338). -/
def Mdl.newTouches (s : Mdl) : Mdl :=
  s.tir.map.foldl (fun s k => if k.2.touched then s.setPage (k.1 / 2 ^ 26) (k.1 % 2 ^ 26) { k.2 with touched := false } else s) s

/-- Pages with a frame on a lost die (R370). -/
def Mdl.loseDiePages (s : Mdl) (die : Nat) : Mdl :=
  let s := s.tir.map.foldl (fun s k =>
    let a := k.1 / 2 ^ 26
    let p := k.1 % 2 ^ 26
    if k.2.framed && k.2.pdie == die then
      if k.2.fetching then s.unfetch a p
      else if k.2.clean then s.setPage a p { k.2 with state := .far, frame := 0, pdie := 0, farWrite := false, leaving := false } else s.losePage a p
    else s) s
  { s with tir := { s.tir with sysFrames := Table.set 0 s.tir.sysFrames die 0, frames := s.tir.frames.filter fun f => f.2.1 != die } }

/-- A page whose frame becomes a system frame takes another: on its die, on the nearest that has one, or it leaves HBM (R330, R335, R336). -/
def Mdl.leaveSystem (s : Mdl) (k : Nat × Page) : Mdl :=
  let a := k.1 / 2 ^ 26
  let p := k.1 % 2 ^ 26
  let used := s.usedFrames k.2.pdie
  if (used.filter fun f => decide (512 ≤ f)).length < 23040 then s.setPage a p { k.2 with frame := firstNotIn used (used.length + 1) 512 }
  else match (s.nearDies k.2.pdie).find? fun d => decide (0 < s.freeFrames d) with
    | some d => s.setPage a p { k.2 with pdie := d, frame := s.lowestFrame d }
    | none => if s.candidate false k then s.sendFar k else s

/-- 512 system frames on each logical die (R330): pages that hold frames in that range leave them. -/
def Mdl.reserveSystem (s : Mdl) : Mdl :=
  let s : Mdl := { s with tir := { s.tir with sysFrames := s.logDies.foldl (fun t p => Table.set 0 t p 512) [] } }
  (s.tir.map.filter fun k => k.2.framed && decide (k.2.frame < 512) && s.logDies.contains k.2.pdie).foldl (fun s k => s.leaveSystem k) s

/-- Unmap every page of every account (R329, R598). -/
def Mdl.clearTiers (s : Mdl) : Mdl :=
  let s := s.ftl.far.foldl (fun s f => s.farDrop f.1) s
  { s with tir := { s.tir with map := [], coude := [], waiting := [], victims := [], frames := [], pins := [], late := [], cmd := none }, mem := [] }

end Sys2Proof.Machine
end

