-- ==== Sys2Proof/Machine/Placement.lean ====
section
/-! DEFINITION. Model slots, the Almanac, the Coudé path and activation channels (R353 to R369, R371). -/
namespace Sys2Proof.Machine

/-! ### Models and the Almanac (R353 to R362) -/

def Mdl.modelSt (s : Mdl) (n : Nat) : ModelSt := Table.get .init s.tir.models n
def Mdl.setModelSt (s : Mdl) (n : Nat) (m : ModelSt) : Mdl :=
  { s with tir := { s.tir with models := Table.set .init s.tir.models n m } }

/-- Mapped pages of a range of an account, in ascending order. -/
def Mdl.pagesIn (s : Mdl) (a first n : Nat) : List (Nat × Page) :=
  (s.tir.map.filter fun k => k.1 / 2 ^ 26 == a && decide (first ≤ k.1 % 2 ^ 26) && decide (k.1 % 2 ^ 26 < first + n)).map
    fun k => (k.1 % 2 ^ 26, k.2)

/-- FETCH of a range (R359). -/
def Mdl.fetchRange (s : Mdl) (a first n : Nat) : Mdl :=
  (s.pagesIn a first n).foldl (fun s (k : Nat × Page) =>
    if k.2.state = .far then
      match s.beginPromote a k.1 none .almanac with
      | some s => s.countSat Reg.TIR_ALM_FETCHED
      | none => s.countSat Reg.TIR_ALM_SKIPPED
    else s) s

/-- RELEASE of a range (R360): `pinnedToo` for the experts an EXPERTS entry leaves (R361). -/
def Mdl.releaseRange (s : Mdl) (a first n : Nat) (pinnedToo : Bool) : Mdl :=
  (s.pagesIn a first n).foldl (fun s (k : Nat × Page) =>
    if k.2.state = .hbm && (pinnedToo || !k.2.pin) then s.setPage a k.1 { k.2 with access := 0 } else s) s

/-- The expert of highest rank among those not yet taken: ACCESS of its first page, the lower number on a tie (R361). -/
def Mdl.bestExpert (s : Mdl) (a first pages : Nat) (taken : List Nat) (n : Nat) : Option Nat :=
  ((List.range n).filter fun e => !taken.contains e).foldl (fun (b : Option Nat) e => match b with
    | none => some e
    | some x => if (s.page a (first + x * pages)).access < (s.page a (first + e * pages)).access then some e else some x) none

/-- The first `k` experts by rank (R361). -/
def Mdl.rankExperts (s : Mdl) (a first pages n : Nat) : Nat → List Nat → List Nat
  | 0, taken => taken
  | k + 1, taken =>
    match s.bestExpert a first pages taken n with
    | some e => Mdl.rankExperts s a first pages n k (taken ++ [e])
    | none => taken

/-- An Almanac entry fires (R359 to R361). -/
def Mdl.fireEntry (s : Mdl) (a : Nat) (e : AlmEntry) : Mdl :=
  let first := e.addr / pageBytes
  match e.kind with
  | 1 => s.fetchRange a first e.pages
  | 2 => s.releaseRange a first e.pages false
  | 3 =>
    let top := s.rankExperts a first e.pages e.experts e.predict []
    let s := top.foldl (fun s x => s.fetchRange a (first + x * e.pages) e.pages) s
    ((List.range e.experts).filter fun x => !top.contains x).foldl
      (fun s x => s.releaseRange a (first + x * e.pages) e.pages true) s
  | _ => s

/-- Entries of a slot that a trigger fires, in order. -/
def Mdl.fireSlot (s : Mdl) (n : Nat) (p : AlmEntry → Bool) : Mdl :=
  let a := s.reg (Reg.TIR_MODEL_ID_ACCOUNT n)
  ((s.modelSt n).almanac.filter p).foldl (fun s e => s.fireEntry a e) s

/-- The entries that trigger `t` fires at `v`: a layer, a phase, or the LOAD itself (Table 7-6); held while the slot's group is mixed (R168). -/
def Mdl.fireAt (s : Mdl) (n t v : Nat) : Mdl :=
  let p := fun (e : AlmEntry) => e.trigger == t && (t == 2 || (if t = 0 then e.atLayer else e.atPhase) == v)
  if (s.modelSt n).almanac.any p then s.whole (0x0A00 + n) (.fire n t v) fun s => s.fireSlot n p else s

/-- A progress event (R357). -/
def Mdl.progressEvent (s : Mdl) (slot layer : Nat) : Mdl :=
  s.fireAt slot 0 layer

/-- AT_PHASE of an epoch is reached (Table 7-6). -/
def Mdl.phaseTrigger (s : Mdl) (phase : Nat) : Mdl :=
  s.tir.models.foldl (fun s m => s.fireAt m.1 1 phase) s

/-- One Almanac entry of 32 bytes (Table 7-6). -/
def readAlm (l : List Byte) : AlmEntry :=
  let f := fun o n => leNat ((l.drop o).take n)
  { kind := f 0 1, trigger := f 1 1, atLayer := f 2 2, atPhase := f 4 2, needLayer := f 6 2, addr := f 8 8, pages := f 16 4
    experts := f 20 2, predict := f 22 2 }

/-- The resident pages of a slot: (page, physical die) of every layer range that the chart marks resident for its MODEL (R354). -/
def Mdl.residentPages (s : Mdl) (n : Nat) : List (Nat × Nat) :=
  let model := s.reg (Reg.TIR_MODEL_ID_MODEL n)
  let ranges : List LayerEnt := match s.cht.chart with
    | some c => c.layers.filter fun l => l.model == model && bit l.flags 0
    | none => []
  let dies := s.logDies
  ranges.flatMap fun r =>
    match dies[r.die]? with
    | none => []
    | some d =>
      (((s.modelSt n).layers.drop r.first).take (r.last + 1 - r.first)).flatMap fun l =>
        (List.range l.2).map fun i => (l.1 / pageBytes + i, d)

/-- A resident page is to have its HOME and PIN, and to be promoted (R354); an ERR code when it cannot be had. `move`: it goes to that die where
a frame allows (R366, R371). -/
def Mdl.pinResident (s : Mdl) (a : Nat) (pd : Nat × Nat) (move : Bool) : Option Nat × Mdl :=
  let p := pd.1
  let x := s.page a p
  match x.state with
  | .unmapped | .lost => (some 1, s)
  | .remote =>
    match s.fetchRemote a p (some pd.2) with
    | .error e s => (some e, s)
    | .done s | .wait s | .asked s => (none, s.wishPin a p pd.2 move)
  | .far =>
    let s := s.setPage a p { x with home := pd.2, homed := true }
    match s.beginPromote a p none .command with
    | some s => (none, s.wishPin a p pd.2 move)
    | none => (some 2, s)
  | .moving => (none, (s.setPage a p { x with home := pd.2, homed := true }).wishPin a p pd.2 move)
  | .hbm =>
    let s := s.setPage a p { x.pinned with home := pd.2, homed := true }
    (none, if move then s.moveFrame a p pd.2 else s)

/-- A slot's ERR shows its first error. -/
def Mdl.modelErr (s : Mdl) (n e : Nat) : Mdl :=
  if s.reg (Reg.TIR_MODEL_CTRL_ERR n) = 0 then s.setReg (Reg.TIR_MODEL_CTRL_ERR n) e else s

/-- Pin pages in turn (R354, R371); one that cannot be had sets ERR, and the others are still pinned. -/
def Mdl.pinAll (s : Mdl) (n a : Nat) (move : Bool) (l : List (Nat × Nat)) : Mdl :=
  l.foldl (fun s pd => match s.pinResident a pd move with
    | (none, s) => s
    | (some e, s) => s.modelErr n e) s

def Mdl.cat (s : Mdl) (n : Nat) : CatSt := Table.get .init s.cats n
def Mdl.setCat (s : Mdl) (n : Nat) (x : CatSt) : Mdl := { s with cats := Table.set .init s.cats n x }

/-- Unpin pages of a catalogue's image. -/
def Mdl.catUnpin (s : Mdl) (a : Nat) (l : List Nat) : Mdl :=
  l.foldl (fun s p => (if (s.page a p).state = .unmapped then s else s.setPage a p { s.page a p with pin := false }).dropPin a p) s

/-- A page that ATTACH pins cannot be had: the pins are released, ERR is 0xB, and the catalogue is DETACHED again (Table 9-4). -/
def Mdl.attachFailed (s : Mdl) (n : Nat) (base pages : Nat) : Mdl :=
  let x := s.cat n
  let s := s.catUnpin x.acct ((List.range pages).map (base / pageBytes + ·))
  (s.setCat n { CatSt.init with accepted := x.accepted, queries := x.queries }).setRegs
    [(Reg.CAT_CMD_STATUS_BUSY, 0), (Reg.CAT_CMD_STATUS_DONE, 1), (Reg.CAT_CMD_STATUS_ERR, 0x0B)]

/-- A page that was to be pinned cannot be had: the LOADING slots whose page it is show the error (R354), and an ATTACHING catalogue whose page it is
is detached (R428). -/
def Mdl.pinFailed (s : Mdl) (a p e : Nat) : Mdl :=
  let s := (List.range 128).foldl (fun (s : Mdl) n =>
    if s.reg (Reg.TIR_MODEL_CTRL_STATE n) = 1 ∧ s.reg (Reg.TIR_MODEL_ID_ACCOUNT n) = a ∧ (s.residentPages n).any (fun pd => pd.1 == p) then
      s.modelErr n e
    else s) (s.dropPin a p)
  s.cats.foldl (fun s q => match q.2.state, q.2.coming with
    | .attaching, some b =>
      if q.2.acct = a ∧ b.1 / pageBytes ≤ p ∧ p < b.1 / pageBytes + b.2 then s.attachFailed q.1 b.1 b.2 else s
    | _, _ => s) s

/-- Pages that are to be pinned and that nothing brings in yet are asked for again (R354, R366, R371). -/
def Mdl.pinsGoOn (s : Mdl) : Mdl :=
  s.tir.pins.foldl (fun (s : Mdl) w =>
    let a := w.1 / 2 ^ 26
    let p := w.1 % 2 ^ 26
    match (s.page a p).state with
    | .moving | .hbm => s
    | _ => if s.waitsFrame a p then s else match s.pinResident a (p, w.2.1) w.2.2 with
      | (none, s) => s
      | (some e, s) => s.pinFailed a p e) s

/-- A LOADING slot whose tables have been read becomes READY when every resident page is in HBM (R354); held while its legacy group is
mixed (R168). -/
def Mdl.modelReady (s : Mdl) (n : Nat) : Mdl :=
  let a := s.reg (Reg.TIR_MODEL_ID_ACCOUNT n)
  if s.reg (Reg.TIR_MODEL_CTRL_STATE n) = 1 ∧ (s.modelSt n).known then
    if s.mixed (0x0A00 + n) then s.beginHold (0x0A00 + n) (.modelLoad n)
    else if (s.residentPages n).all (fun pd => let x := s.page a pd.1; x.state == .hbm && x.pin) then s.setReg (Reg.TIR_MODEL_CTRL_STATE n) 2
    else s
  else s

/-- The tables of a slot that LOAD has asked for are read once their pages are in HBM; the resident pages are pinned and the load triggers
fire (R354, R358). -/
def Mdl.modelRead (s : Mdl) (n : Nat) : Mdl :=
  let a := s.reg (Reg.TIR_MODEL_ID_ACCOUNT n)
  let la := s.reg (Reg.TIR_MODEL_LAYERS_ADDR n)
  let lc := s.reg (Reg.TIR_MODEL_LAYERS_COUNT n)
  let aa := s.reg (Reg.TIR_MODEL_ALMANAC_ADDR n)
  let ac := s.reg (Reg.TIR_MODEL_ALMANAC_COUNT n)
  let w : Accessor := .of (.model n)
  let failed := fun (code : Nat) => ((s.setModelSt n .init).dropLines (· == .model n)).setReg (Reg.TIR_MODEL_CTRL_ERR n) code
  let stopped := fun (e : AccessEnd) => match e with
    | .fault f _ => failed (match f with | .quota => 2 | .unreachable => 3 | _ => 1)
    | .wait f => (s.beginWait w a f).getD (failed 2)
  if !(s.modelSt n).reading then s
  else if s.mixed (0x0A00 + n) then s.beginHold (0x0A00 + n) (.modelLoad n)
  else match s.loadBytes w a la (16 * lc) with
    | .error e => stopped e
    | .ok (lb, s1) =>
      match s1.loadBytes w a aa (32 * ac) with
      | .error e => stopped e
      | .ok (ab, s2) =>
        let layers := (List.range lc).map fun i => (leNat ((lb.drop (16 * i)).take 8), leNat ((lb.drop (16 * i + 8)).take 4))
        let alm := (List.range ac).map fun i => readAlm ((ab.drop (32 * i)).take 32)
        let s := ((s2.dropLines (· == .model n)).setModelSt n ⟨alm, layers, false, true⟩).setReg (Reg.TIR_MODEL_CTRL_LAYERS n) lc
        let s := s.pinAll n a false (s.residentPages n)
        (s.fireAt n 2 0).modelReady n

/-- LOAD on a model slot (R354, R358), held while its legacy group is mixed (R168). In a LOADING slot what was held goes on. -/
def Mdl.modelLoad (s : Mdl) (n : Nat) : Mdl :=
  if s.reg (Reg.TIR_MODEL_CTRL_STATE n) = 1 then (s.modelRead n).modelReady n
  else if s.reg (Reg.TIR_MODEL_CTRL_STATE n) ≠ 0 then s
  else if s.mixed (0x0A00 + n) then s.beginHold (0x0A00 + n) (.modelLoad n)
  else
    let a := s.reg (Reg.TIR_MODEL_ID_ACCOUNT n)
    let la := s.reg (Reg.TIR_MODEL_LAYERS_ADDR n)
    let lc := s.reg (Reg.TIR_MODEL_LAYERS_COUNT n)
    let aa := s.reg (Reg.TIR_MODEL_ALMANAC_ADDR n)
    let ac := s.reg (Reg.TIR_MODEL_ALMANAC_COUNT n)
    if a = 0xFFFF ∨ la % 16 ≠ 0 ∨ 16384 < lc ∨ aa % 32 ≠ 0 ∨ 8192 < ac ∨ 2 ^ 47 < la + 16 * lc ∨ 2 ^ 47 < aa + 32 * ac then
      s.setReg (Reg.TIR_MODEL_CTRL_ERR n) 4
    else
      ((s.setRegs [(Reg.TIR_MODEL_CTRL_STATE n, 1), (Reg.TIR_MODEL_CTRL_ERR n, 0)]).setModelSt n ⟨[], [], true, false⟩).modelRead n

/-- UNLOAD on a model slot (R355): its pages are unpinned and come first for eviction; the slot is EMPTY again. -/
def Mdl.modelUnload (s : Mdl) (n : Nat) : Mdl :=
  let a := s.reg (Reg.TIR_MODEL_ID_ACCOUNT n)
  let st := s.reg (Reg.TIR_MODEL_CTRL_STATE n)
  if st ≠ 1 ∧ st ≠ 2 then s
  else if s.mixed (0x0A00 + n) then s.beginHold (0x0A00 + n) (.modelUnload n)
  else
    let s := (s.residentPages n).foldl (fun s pd =>
      let x := s.page a pd.1
      if x.state = .unmapped then s else (s.dropPin a pd.1).setPage a pd.1 { x with pin := false, access := 0 }) s
    (s.setModelSt n .init).setRegs [(Reg.TIR_MODEL_CTRL_STATE n, 0), (Reg.TIR_MODEL_CTRL_LAYERS n, 0)]

/-- The page read of the Coudé path that ends: the oldest of the first class that has one (R363). -/
def Mdl.coudeHead (s : Mdl) : Option CoudeReq :=
  let pick := fun (c : CoudeClass) => s.tir.coude.find? fun q => q.cls == c
  ((pick .demand).or (pick .almanac)).or (pick .command)

/-- What waits for moves and frames in the tier engine goes on: promotions, the tier command, the loading of model slots. -/
def Mdl.tierSettle (s : Mdl) : Mdl :=
  (List.range 128).foldl (fun s n => (s.modelRead n).modelReady n) s.serveFrames.pinsGoOn.tierResume

/-- A read of the Coudé path ends: a page reaches HBM (R337, R354), or a Memory Copy has its flash source (R593). -/
def Mdl.coudeArrive (s : Mdl) : Mdl :=
  match s.coudeHead with
  | none => s
  | some q => match q.copy with
    | some n =>
      { s with
        tir := { s.tir with coude := s.tir.coude.filter (· != q) }
        host := { s.host with fetched := s.host.fetched.map fun f => if f.seq = n then { f with flashRead := true } else f } }
    | none => (s.arrive q.acct q.page).tierSettle

/-- A far write ends (R340, R525), and what waits for its frame goes on. -/
def Mdl.farWriteEnd (s : Mdl) (a p : Nat) : Mdl := (s.endFarWrite a p).tierSettle

/-- Nothing brings in a remote page any more: the tier command that waits for it, or the slots whose page it is, show the error (Table 7-4). -/
def Mdl.fetchFailed (s : Mdl) (a p e : Nat) : Mdl :=
  let s := (s.unfetch a p).pinFailed a p e
  match s.tir.cmd with
  | some c => if c.acct = a ∧ c.addr / pageBytes + c.done = p then s.tierEnd e c.done else s
  | none => s

/-- A read of a remote page that is brought in ends with a STATUS of Table 13-7; with the last one the page is in HBM. -/
def Mdl.pulled (s : Mdl) (a p st : Nat) : Mdl :=
  let x := s.page a p
  if !(x.state == .moving && x.fetching) then s
  else if st ≠ 0 then s.fetchFailed a p (if st = 3 then 2 else 3)
  else if (s.spn.reqs ++ s.spn.blocked).any fun r => r.pulls a p then s
  else (s.fetched a p).tierSettle

/-! ### Activation channels (R365 to R369) -/

def Mdl.ach (s : Mdl) (n : Nat) : AchSt := Table.get .init s.tir.channels n
def Mdl.setAch (s : Mdl) (n : Nat) (c : AchSt) : Mdl :=
  { s with tir := { s.tir with channels := Table.set .init s.tir.channels n c } }

/-- The size of a slot in bytes (Table 7-27). -/
def Mdl.achSlotBytes (s : Mdl) (n : Nat) : Nat :=
  let u := s.reg (Reg.TIR_ACH_CFG_SLOT_UNITS n)
  (if u = 0 then 16384 else u) * 4096

/-- The address of a slot (R365). -/
def Mdl.achSlotAddr (s : Mdl) (n slot : Nat) : Nat := s.reg (Reg.TIR_ACH_BASE_BASE n) + slot * s.achSlotBytes n

/-- Do both ends of the channel lie in this module? Its one entry then serves both (assumption log entry 18). -/
def Mdl.achInside (s : Mdl) (n : Nat) : Bool := s.reg (Reg.TIR_ACH_CFG_PEER_MODULE n) == s.myModule

def Mdl.achOpen (s : Mdl) (n : Nat) : Bool := s.reg (Reg.TIR_ACH_STATUS_STATE n) == 1

/-- Set a slot's state. -/
def Mdl.setSlot (s : Mdl) (n i : Nat) (x : AchSlot) : Mdl :=
  let c := s.ach n
  s.setAch n { c with slots := c.slots.set i x }

/-- The slot at a place of the ring, if it is in a state (R367). -/
def AchSt.at_ (c : AchSt) (x : AchSlot) (i : Nat) : Option Nat := if c.slots[i]? == some x then some i else none

/-- The slot the next execution fills: slots are filled in ring order. -/
def Mdl.achFree (s : Mdl) (n : Nat) : Option Nat :=
  if s.achOpen n then (s.ach n).at_ .free (s.reg (Reg.TIR_ACH_STATUS_NEXT n)) else none
/-- The slot the next execution consumes: slots are consumed in ring order. -/
def Mdl.achReady (s : Mdl) (n : Nat) : Option Nat :=
  if s.achOpen n && (s.achInside n || s.reg (Reg.TIR_ACH_CFG_DIR n) == 1) then (s.ach n).at_ .ready (s.ach n).take else none

/-- Pin the pages of a channel's slots on its die, promoting them as needed (R366); none when one of them cannot be had. -/
def Mdl.achPin (s : Mdl) (a die : Nat) : List Nat → Option Mdl
  | [] => some s
  | p :: t => match s.pinResident a (p, die) true with
    | (none, s) => Mdl.achPin s a die t
    | (some _, _) => none

/-- Enable or disable a channel's end (R365, R366, R368), held while its legacy group is mixed (R168). A BROKEN channel opens only after ENABLE
has been 0. -/
def Mdl.achEnable (s : Mdl) (n : Nat) (on : Bool) : Mdl :=
  if on then
    if s.reg (Reg.TIR_ACH_STATUS_STATE n) = 2 then s
    else if s.mixed (0x0A80 + n) then s.beginHold (0x0A80 + n) (.channel n)
    else
      let s := s.setReg (Reg.TIR_ACH_CFG_ENABLE n) 1
      let count := s.reg (Reg.TIR_ACH_CFG_SLOT_COUNT n)
      let a := s.reg (Reg.TIR_ACH_CFG_ACCOUNT n)
      let base := s.reg (Reg.TIR_ACH_BASE_BASE n)
      let len := count * s.achSlotBytes n
      let local_ := s.reg (Reg.TIR_ACH_CFG_LOCAL_DIE n)
      let fail := s.setRegs [(Reg.TIR_ACH_STATUS_ERR n, 1), (Reg.TIR_ACH_STATUS_STATE n, 0)]
      match s.logDies[local_]? with
      | none => fail
      | some die =>
        if count < 1 ∨ 64 < count ∨ a = 0xFFFF ∨ base % pageBytes ≠ 0 ∨ 2 ^ 47 < base + len
            ∨ (local_ = s.reg (Reg.TIR_ACH_CFG_PEER_DIE n) ∧ s.achInside n) then fail
        else
          match s.achPin a die ((List.range (ceilDiv len pageBytes)).map (base / pageBytes + ·)) with
          | none => fail
          | some s =>
            (s.setAch n ⟨List.replicate count .free, 0, []⟩).setRegs [(Reg.TIR_ACH_STATUS_ERR n, 0), (Reg.TIR_ACH_STATUS_STATE n, 1),
              (Reg.TIR_ACH_STATUS_NEXT n, 0)]
  else
    (s.setAch n .init).setRegs [(Reg.TIR_ACH_CFG_ENABLE n, 0), (Reg.TIR_ACH_STATUS_STATE n, 0), (Reg.TIR_ACH_STATUS_NEXT n, 0)]

/-- The pieces of an activation stream to the IN end on another module: 65,536 bytes each, the last marked (Table 13-6). -/
def Mdl.achStream (s : Mdl) (n slot tc : Nat) : Option Mdl :=
  let size := s.achSlotBytes n
  let a := s.reg (Reg.TIR_ACH_CFG_ACCOUNT n)
  let peer := s.reg (Reg.TIR_ACH_CFG_PEER_MODULE n)
  let pieces := ceilDiv size 65536
  (List.range pieces).foldl (fun (r : Option Mdl) i => r.bind fun s =>
    let off := i * 65536
    let len := min 65536 (size - off)
    let head := n + slot * 2 ^ 8 + off * 2 ^ 16 + len * 2 ^ 64 + (if i + 1 = pieces then 2 ^ 81 else 0)
    s.request peer tc 0x05 0 (leBytes 16 head) (s.memRead a (s.achSlotAddr n slot + off) len) (.act n slot)) (some s)

/-- The slots of an OUT end wait for the copy (Table 7-7): over the ring inside the module, or as a stream. -/
def Mdl.achCopy (s : Mdl) (n slot tc : Nat) : Mdl :=
  let s := s.setSlot n slot (.inFlight tc false)
  if s.mixed (0x0A80 + n) then s.beginHold (0x0A80 + n) (.copy n slot tc)
  else if s.achInside n then s
  else (s.achStream n slot tc).getD (s.unrouted (s.reg (Reg.TIR_ACH_CFG_PEER_MODULE n)))

/-- The IN end's copy of a slot is written (Table 7-7). -/
def Mdl.slotArrived (s : Mdl) (n slot : Nat) : Mdl :=
  let from_ := match (s.ach n).slots[slot]? with
    | some (.inFlight _ _) => s.achInside n
    | some .free => !s.achInside n
    | _ => false
  if s.achOpen n && from_ then
    (s.setSlot n slot .ready).count (Reg.TIR_ACH_STATUS_MOVED n)
  else s

/-- A piece of a slot has come to the IN end; with the last one its copy is written (R367). -/
def Mdl.pieceArrived (s : Mdl) (n slot off : Nat) : Mdl × Bool :=
  let c := s.ach n
  let got := Table.get [] c.got slot
  let got := if got.contains off then got else off :: got
  let whole := decide (ceilDiv (s.achSlotBytes n) 65536 ≤ got.length)
  (s.setAch n { c with got := Table.set [] c.got slot (if whole then [] else got) }, whole)

/-- A piece of a slot has been answered at the OUT end; with the last one, if none has failed, the slot is READY there (Table 7-7). -/
def Mdl.pieceAnswered (s : Mdl) (n slot st : Nat) : Mdl := match (s.ach n).slots[slot]? with
  | some (.inFlight tc failed) =>
    let failed := failed || st != 0
    if (s.spn.reqs ++ s.spn.blocked).any (fun r => r.purpose == .act n slot) || failed then s.setSlot n slot (.inFlight tc failed)
    else s.setSlot n slot .ready
  | _ => s

/-- A credit returns to the OUT end: the slot is FREE (Table 7-7). -/
def Mdl.slotCredit (s : Mdl) (n slot : Nat) : Mdl :=
  let moved := (s.setSlot n slot .free).count (Reg.TIR_ACH_STATUS_MOVED n)
  match (s.ach n).slots[slot]? with
  | some (.inFlight _ _) => moved
  | some .ready => if s.achInside n ∨ s.reg (Reg.TIR_ACH_CFG_DIR n) = 1 then s else moved
  | _ => s

/-- An input slot has been consumed: FREE, and its credit goes back, over Limuc on the control channel (Table 7-7). -/
def Mdl.slotConsumed (s : Mdl) (n slot : Nat) : Mdl :=
  if (s.ach n).slots[slot]? = some .consuming then s.whole (0x0A80 + n) (.credit n slot) fun s =>
    let s := s.setSlot n slot .free
    if s.achInside n then s
    else s.route { type := 0x0A, tc := 0, hops := 0, dst := s.reg (Reg.TIR_ACH_CFG_PEER_MODULE n), src := s.myModule, tag := 0
                   addr := 0, status := 0, data := leBytes 8 (n + slot * 2 ^ 8), stream := [] }
  else s

/-- A channel breaks: every slot BROKEN (Table 7-7). -/
def Mdl.breakChannel (s : Mdl) (n : Nat) : Mdl :=
  if s.achOpen n then
    let c := s.ach n
    (s.setAch n { c with slots := c.slots.map fun _ => .broken }).setReg (Reg.TIR_ACH_STATUS_STATE n) 2
  else s

/-- In-flight slots whose IN end was not enabled are sent again at a boundary, and counted (Table 7-7). -/
def Mdl.achRetry (s : Mdl) : Mdl :=
  (List.range 64).foldl (fun s n =>
    if s.achOpen n && !s.mixed (0x0A80 + n) && !s.achInside n && s.reg (Reg.TIR_ACH_CFG_DIR n) == 0 then
      (List.range (s.ach n).slots.length).foldl (fun s i =>
        let sent := (s.spn.reqs ++ s.spn.blocked).any fun r => r.purpose == .act n i
        match (s.ach n).slots[i]?, sent with
        | some (.inFlight tc _), false => (s.achCopy n i tc).countSat (Reg.TIR_ACH_STATUS_NOT_READY n)
        | _, _ => s) s
    else s) s

/-! ### Charts (R371) -/

/-- A chart comes into force: system frames are reserved again, READY slots return to LOADING, and resident ranges are pinned where it names
them. Channels follow in the scheduler's part of the change. -/
def Mdl.tierChartChange (s : Mdl) : Mdl :=
  (List.range 128).foldl (fun s n =>
    if s.reg (Reg.TIR_MODEL_CTRL_STATE n) = 2 then
      let s := s.setReg (Reg.TIR_MODEL_CTRL_STATE n) 1
      (s.pinAll n (s.reg (Reg.TIR_MODEL_ID_ACCOUNT n)) true (s.residentPages n)).modelReady n
    else s) s.reserveSystem

end Sys2Proof.Machine
end

