-- ==== Sys2Proof/Machine/CatOps.lean ====
section
/-! DEFINITION. Catalogues: images, generations, the live bitmap, and what ends with a batch (R423 to R438). -/
namespace Sys2Proof.Machine


/-! ### Images (R424 to R426, Tables 9-1 to 9-3) -/

/-- The header of a catalogue image (Table 9-2), and its base. -/
structure CatImage where
  acct : Nat
  base : Nat
  kind : Nat
  metric : Nat
  code : Nat
  vecFmt : Nat
  codeBytes : Nat
  dim : Nat
  degree : Nat
  entryCount : Nat
  items : Nat
  lists : Nat
  generation : Nat
  baseEpoch : Nat
  vecScale : F32
  centFmt : Nat
  rrNsid : Nat
  rrFmt : Nat
  rrStrideLog2 : Nat
  rrLba : Nat
  sections : List Nat
  deriving DecidableEq, Repr

/-- Read an image's header. -/
def Mdl.catImage (s : Mdl) (a base : Nat) : CatImage :=
  let f := fun o n => s.memNat a (base + o) n
  { acct := a, base := base, kind := f 6 1, metric := f 7 1, code := f 8 1, vecFmt := f 9 1, codeBytes := f 0x0A 2, dim := f 0x0C 2
    degree := f 0x0E 1, entryCount := f 0x0F 1, items := f 0x10 4, lists := f 0x14 4, generation := f 0x18 8
    baseEpoch := f 0x20 6, vecScale := BitVec.ofNat 32 (f 0x28 4), centFmt := f 0x2C 1, rrNsid := f 0x30 4, rrFmt := f 0x34 1
    rrStrideLog2 := f 0x35 1, rrLba := f 0x38 8, sections := (List.range 16).map fun i => f (0x40 + 8 * i) 8 }

def CatImage.fmt (i : CatImage) : Fmt := (Fmt.ofCode i.vecFmt).getD .none
def CatImage.cent (i : CatImage) : Fmt := (Fmt.ofCode i.centFmt).getD .none
/-- The address of a section. -/
def CatImage.at_ (i : CatImage) (sec : Nat) : Nat := i.base + i.sections.getD sec 0
/-- Smaller scores rank higher (R444). -/
def CatImage.smallest (i : CatImage) : Bool := i.metric != 0
/-- The row stride of VECTORS. -/
def CatImage.vecStride (i : CatImage) : Nat := ceilDiv i.codeBytes 64 * 64
/-- 64 sub-quantisers per 32 bytes of PQ4 code. -/
def CatImage.subs (i : CatImage) : Nat := 2 * i.codeBytes
def CatImage.subDim (i : CatImage) : Nat := i.dim / max 1 i.subs

/-- FIRST and COUNT of a list (Table 9-3). -/
def Mdl.catList (s : Mdl) (i : CatImage) (l : Nat) : Nat × Nat :=
  (s.memNat i.acct (i.at_ 2 + 16 * l) 8, s.memNat i.acct (i.at_ 2 + 16 * l + 8) 4)

/-- Codes of an image: ITEMS in FLAT, the sum of COUNT in LIST. -/
def Mdl.catCodes (s : Mdl) (i : CatImage) : Nat :=
  if i.kind = 1 then (List.range i.lists).foldl (fun n l => n + (s.catList i l).2) 0 else i.items

/-- Is every header field in range for its kind (ERR 0x2)? The 16-bit limit of DIM is on VEC_FMT (DEDUCED, assumption log entry 22). -/
def CatImage.fieldsOk (i : CatImage) : Bool :=
  let f := i.fmt
  let wide := f == .fp16 || f == .bf16
  let dims := decide (32 ≤ i.dim) && decide (i.dim ≤ 4096) && i.dim % 32 == 0 && !(wide && decide (2048 < i.dim))
  let scaled := decide (i.vecScale.mag ≠ 0) && !i.vecScale.sign && i.vecScale.isFinite
  let unscaled := i.vecScale == F32.one
  let vectors := fun (l : List Fmt) => l.contains f && decide (i.metric ≤ 1) && i.codeBytes == i.dim * f.width / 8
    && (if wide then unscaled else scaled)
  let pq4 := i.vecFmt == 0 && decide (i.metric ≤ 1) && [32, 64, 96, 128].contains i.codeBytes && i.dim % max 1 i.subs == 0 && unscaled
  let sq8 := (f == .int8 || f == .e4m3) && decide (i.metric ≤ 1) && i.codeBytes == i.dim && scaled
  let bin := i.vecFmt == 0 && i.metric == 2 && [32, 64, 96, 128].contains i.codeBytes && i.dim == 8 * i.codeBytes && unscaled
  let noGraph := i.degree == 0 && i.entryCount == 0
  let kinds := match i.kind with
    | 1 => (match i.code with | 1 => pq4 | 2 => sq8 | 3 => bin | _ => false) && noGraph && decide (1 ≤ i.lists) && decide (i.lists ≤ 1048576)
        && (i.cent == .fp16 || i.cent == .bf16)
    | 2 => i.code == 0 && vectors [.int8, .e4m3, .fp16] && decide (1 ≤ i.degree) && decide (i.degree ≤ 64)
        && decide (1 ≤ i.entryCount) && decide (i.entryCount ≤ 64) && i.lists == 0 && i.centFmt == 0
    | 3 => (match i.code with | 0 => vectors [.int8, .e4m3, .fp16, .bf16] | 2 => sq8 | 3 => bin | _ => false) && noGraph
        && decide (1 ≤ i.lists) && decide (i.lists ≤ 65536) && i.centFmt == 0
    | _ => false
  let rr := (match Fmt.ofCode i.rrFmt with | some .fp16 | some .bf16 | some .fp32 => true | _ => false)
    && decide (8 ≤ i.rrStrideLog2) && decide (i.rrStrideLog2 ≤ 12)
  dims && kinds && rr && decide (i.items ≤ 0xFFFFFFFE) && decide (1 ≤ i.generation)

/-- The header's check (ERR 0x2). -/
def Mdl.catHeaderOk (s : Mdl) (i : CatImage) : Bool :=
  s.memNat i.acct i.base 4 == 0x54435847 && s.memNat i.acct (i.base + 4) 2 == 1
    && s.memNat i.acct (i.base + 0xFC) 4 == crc32 (s.memRead i.acct i.base 0xFC) && i.fieldsOk

/-- The sections a kind requires (Table 9-3). -/
def CatImage.required (i : CatImage) : List Nat :=
  match i.kind with
  | 1 => [0] ++ (if i.metric = 1 then [1] else []) ++ [2, 3, 4] ++ (if i.code = 1 then [5] else []) ++ [10, 11]
  | 2 => [6] ++ (if i.metric = 1 then [7] else []) ++ [8, 9, 10, 11]
  | _ => [2, 3, 10, 11]

/-- The bytes of a section, given the number of codes. -/
def CatImage.sectionBytes (i : CatImage) (codes : Nat) : Nat → Nat
  | 0 => i.lists * i.dim * 2
  | 1 => i.lists * 4
  | 2 => i.lists * 16
  | 3 => codes * i.codeBytes
  | 4 => codes * 4
  | 5 => i.dim * 32
  | 6 => i.items * i.vecStride
  | 7 => i.items * 4
  | 8 => i.items * i.degree * 4
  | 9 => i.entryCount * 4
  | 10 => i.items * 8
  | _ => ceilDiv (ceilDiv i.items 8) 4096 * 4096

/-- The end of an image, relative to its base: header and sections. -/
def Mdl.catEnd (s : Mdl) (i : CatImage) : Nat :=
  i.required.foldl (fun n k => max n (i.sections.getD k 0 + i.sectionBytes (s.catCodes i) k)) 256

/-- Do no two of these ranges overlap? -/
def disjoint : List (Nat × Nat) → Bool
  | [] => true
  | x :: t => t.all (fun y => x.2 == 0 || y.2 == 0 || decide (x.1 + x.2 ≤ y.1) || decide (y.1 + y.2 ≤ x.1)) && disjoint t

/-- Do the lists tile CODES without gaps, in list order? -/
def Mdl.tiles (s : Mdl) (i : CatImage) : Nat → Nat → Nat → Bool
  | 0, _, _ => true
  | n + 1, l, next =>
    let e := s.catList i l
    e.1 == next && Mdl.tiles s i n (l + 1) (next + e.2)

/-- The sections' check (ERR 0x3): present, no other, aligned, no overlap, inside the range, list ranges. -/
def Mdl.catSectionsOk (s : Mdl) (i : CatImage) : Bool :=
  let codes := s.catCodes i
  let ranges := i.required.map fun k => (i.sections.getD k 0, i.sectionBytes codes k)
  (List.range 16).all (fun k => (i.sections.getD k 0 != 0) == i.required.contains k && i.sections.getD k 0 % 4096 == 0)
    && disjoint ranges && ranges.all (fun r => decide (i.base + r.1 + r.2 ≤ 2 ^ 47))
    && (i.kind != 1 || s.tiles i i.lists 0 0)
    && (i.kind != 3 || (List.range i.lists).all fun l => decide ((s.catList i l).1 + (s.catList i l).2 ≤ i.items))

/-- An item's ID. -/
def Mdl.itemId (s : Mdl) (i : CatImage) (o : Nat) : Nat := s.memNat i.acct (i.at_ 10 + 8 * o) 8

/-- The ID table's check (ERR 0x4): strictly ascending, all below 2^64 - 1. -/
def Mdl.catIdsOk (s : Mdl) (i : CatImage) : Bool :=
  (List.range i.items).all fun o => s.itemId i o != 2 ^ 64 - 1 && (o == 0 || decide (s.itemId i (o - 1) < s.itemId i o))

/-- The ordinal of an item ID. -/
def Mdl.ordinalOf (s : Mdl) (i : CatImage) (id : Nat) : Option Nat := (List.range i.items).find? fun o => s.itemId i o == id

/-! ### Pages of an image -/

/-- The pages of an image: `n` bytes from its base. -/
def imagePages (base n : Nat) : List Nat := (List.range (ceilDiv n pageBytes)).map (base / pageBytes + ·)

/-- Every page of an image is mapped and not lost (log entry 22: a page that is not counts as a section out of range). -/
def Mdl.catMapped (s : Mdl) (a base n : Nat) : Bool :=
  (imagePages base n).all fun p => (s.page a p).state != .unmapped && (s.page a p).state != .lost

/-- Pin pages as PIN does (Table 7-3), those outside HBM once they have come; none when one of them cannot be had. -/
def Mdl.catPin (s : Mdl) (a : Nat) : List Nat → Option Mdl
  | [] => some s
  | p :: t => match s.intoHbm a p with
    | .done s => Mdl.catPin (s.setPage a p (s.page a p).pinned) a t
    | .wait s | .asked s => Mdl.catPin (s.wishPin a p (s.homeOf (s.page a p)) false) a t
    | .error _ _ => none

/-- The image of the generation that a snapshot sees (R431, R434). -/
def CatSt.imageAt (x : CatSt) (snap : Nat) : Option Nat :=
  ((if x.gen.any fun g => decide (g.since ≤ snap) then x.gen else x.old).map (·.addr))

/-- Unpin an image. -/
def Mdl.catUnpinImage (s : Mdl) (a base : Nat) : Mdl := s.catUnpin a (imagePages base (s.catEnd (s.catImage a base)))

/-! ### The live bitmap (R431 to R433) -/

/-- Bitmap pages of an image. -/
def CatImage.bitmapPages (i : CatImage) : Nat := ceilDiv (ceilDiv i.items 8) 4096

/-- The newest copy of a bitmap page of an image stamped `at_` or earlier. -/
def CatSt.copyAt (x : CatSt) (image page at_ : Nat) : Option CatCopy :=
  (x.copies.filter fun c => c.image == image && c.page == page && decide (c.stamp ≤ at_)).foldl (fun b c => match b with
    | none => some c
    | some d => if d.stamp < c.stamp then some c else some d) none

/-- The address of a snapshot copy: copies fill the control area from its end (DEDUCED, assumption log entry 22). -/
def CatSt.copyAddr (x : CatSt) (slot : Nat) : Nat := x.ctrl + x.ctrlPages * pageBytes - 4096 * (slot + 1)

/-- The address that a reader of snapshot `at_` reads a bitmap page from. -/
def CatSt.bitmapAddr (x : CatSt) (i : CatImage) (page at_ : Nat) : Nat :=
  match x.copyAt i.base page at_ with
  | some c => x.copyAddr c.slot
  | none => i.at_ 11 + 4096 * page

/-- An ordinal's live bit in a snapshot. -/
def Mdl.live (s : Mdl) (x : CatSt) (i : CatImage) (at_ o : Nat) : Bool :=
  bit (s.memNat i.acct (x.bitmapAddr i (o / 32768) at_ + o % 32768 / 8) 1) (o % 8)

/-- Snapshot copies that the control area holds beside the journal and the version tables (R429, R430). -/
def CatSt.copyRoom (x : CatSt) (bitmapPages : Nat) : Nat := (x.ctrlPages * pageBytes - 16 * 2 ^ x.journalLog2 - 16 * bitmapPages) / 4096

/-- Copies a catalogue can hold. -/
def Mdl.copyTotal (s : Mdl) (x : CatSt) : Nat :=
  let pages := fun (b : Option Nat) => match b with
    | some base => (s.catImage x.acct base).bitmapPages
    | none => 0
  x.copyRoom (pages (x.gen.map (·.addr)) + pages (x.staged.map (·.1)))

/-- Bitmap pages with a reservation for the coming boundary. -/
def CatSt.reserved (x : CatSt) : List Nat := x.pending.foldl (fun l p => if l.contains (p.2 / 32768) then l else l ++ [p.2 / 32768]) []

/-- Free snapshot copies. -/
def Mdl.copiesFree (s : Mdl) (x : CatSt) : Nat := s.copyTotal x - x.copies.length - x.reserved.length

/-! ### The end of a batch (R436, Table 9-4) -/

/-- What the end of the last batch of a generation, or of the catalogue, releases. -/
def Mdl.catSettle (s : Mdl) (n : Nat) : Mdl :=
  let x := s.cat n
  let r : CatSt × Mdl := match x.old, x.gen with
    | some o, some g =>
      if x.batches.any (fun b => decide (b.epoch < g.since)) then (x, s)
      else ({ x with old := none, copies := x.copies.filter fun c => c.image != o.addr }, s.catUnpinImage x.acct o.addr)
    | _, _ => (x, s)
  let x := r.1
  let s := r.2
  if x.state = .detaching && x.batches.isEmpty then
    let s := [x.gen.map (·.addr), x.old.map (·.addr), x.coming.map (·.1)].foldl (fun s b => match b with
      | some b => s.catUnpinImage x.acct b
      | none => s) s
    s.setCat n { CatSt.init with accepted := x.accepted, queries := x.queries }
  else s.setCat n x

/-- A running batch of a catalogue, by its job. -/
def CatSt.batch (x : CatSt) (j : Nat) : Option CatBatch := x.batches.find? (·.job == j)
/-- Change a running batch. -/
def Mdl.setBatch (s : Mdl) (n j : Nat) (f : CatBatch → CatBatch) : Mdl :=
  s.setCat n { s.cat n with batches := (s.cat n).batches.map fun b => if b.job = j then f b else b }

/-- A batch ends. -/
def Mdl.catBatchEnd (s : Mdl) (n j : Nat) : Mdl :=
  let x := s.cat n
  (s.setCat n { x with batches := x.batches.filter (fun b => b.job != j), sweeps := x.sweeps.filter fun w => w.job != j }).catSettle n

end Sys2Proof.Machine
end

