-- ==== Sys2Proof/Machine/RowPass.lean ====
section
/-! DEFINITION. The geometry of a core's row: beats, slots and cycles of a pass (R171 to R175, R188 to R193), and how the row
advances and empties. -/
namespace Sys2Proof

open Machine

/-! ### A pass: its beats and the slots they use (Table 4-2, R173 to R175) -/

def Pass.fa (p : Pass) : Fmt := (Fmt.ofCode p.fmtA).getD .none
def Pass.fb (p : Pass) : Fmt := (Fmt.ofCode p.fmtB).getD .none

/-- Does a pass multiply elements: multiply-accumulate, and the metrics inner product and L2 (R181)? -/
def Pass.elements (p : Pass) : Bool := p.mode.val == 0 || (p.mode.val == 2 && decide (p.metric.val < 2))

/-- Elements of a beat, or its bytes where beats carry codes, words or records. -/
def Pass.perBeat (p : Pass) : Nat := if p.elements then p.fa.perBeat p.fb else 32

/-- C: beats of a row (R173). -/
def Pass.chunks (p : Pass) : Nat := if p.mode.val = 1 then 0 else ceilDiv p.k p.perBeat

/-- The largest C of a pair (Table 4-2), of a Hamming word, of a code (R181) and of a record. -/
def Pass.maxChunks (p : Pass) : Nat :=
  if p.elements then
    if p.fa.cls = .c16 then 256 else if p.fa.cls = .c4 ∧ p.fb.cls = .c4 then 64 else 128
  else if p.mode.val = 2 ∧ p.metric.val = 3 then 4 else 128

/-- B = M * C. -/
def Pass.beats (p : Pass) : Nat := p.rows * p.chunks

/-- Cycles of a compare-exchange pass: loading, 66 stages, of which 21 cross lanes, and unloading (R182). -/
def Machine.sortCycles : Nat := 16 + 45 + 3 * 21 + 16

/-- Cycles in which a pass keeps physical lane 0. -/
def Pass.span (p : Pass) : Nat := if p.mode.val = 1 then Machine.sortCycles else p.beats

/-- s: bytes of a lane's stationary operand that a beat uses (R175); a table of 64 * 16 entries per code beat (R181). -/
def Pass.step (p : Pass) : Nat :=
  if p.elements then
    if p.fa.cls = .c16 then (if p.fb.cls = .c16 then 16 else 8)
    else if p.fa.cls = .c8 ∧ p.fb.cls = .c4 then 16 else 32
  else if p.mode.val = 2 ∧ p.metric.val = 3 then 1024 else 32

/-- The slots that chunk `c` uses: the first and how many (R175). A predicate's 16 terms of 24 bytes take 12 slots, and every beat of the
record may meet any of them; a sorting lane holds 32 pairs in 16 slots. -/
def Pass.slotsOf (p : Pass) (c : Nat) : Nat × Nat :=
  if p.mode.val = 1 then (0, 16)
  else if p.mode.val = 3 then (0, 12)
  else (p.step * c / 32, max 1 (p.step / 32))

/-- Slots of the whole pass. -/
def Pass.slots (p : Pass) : Nat :=
  if p.mode.val = 1 then 16 else if p.mode.val = 3 then 12 else ceilDiv (p.step * p.chunks) 32

/-- The last chunk whose bytes lie in a slot. -/
def Pass.lastChunk (p : Pass) (slot : Nat) : Nat :=
  if p.mode.val = 3 then p.chunks - 1 else min (p.chunks - 1) ((32 * (slot + 1) - 1) / p.step)

/-- A pass that the sequencer can issue (R174, R206): C within Table 4-2, at most 128 rows unless it is wide; with K 0 it is the drain of a
zeroed bank (R244). -/
def Pass.ok (p : Pass) : Bool :=
  decide (1 ≤ p.rows) && decide (p.rows ≤ 256) && (p.wide || decide (p.rows ≤ 128)) && decide (1 ≤ p.lanes) && decide (p.lanes ≤ 64)
    && (p.mode.val == 1 || ((decide (1 ≤ p.chunks) || (p.k == 0 && p.mode.val == 0 && p.firstK && p.lastK)) && decide (p.chunks ≤ p.maxChunks)
      && (!p.elements || (if p.mode.val = 0 then p.fa.pairOk p.fb else p.fa == p.fb && p.fa.cls != .other))))

end Sys2Proof

namespace Sys2Proof.Machine

/-! ### Plates partitions (R123, R186, R187) -/

/-- The partitions of a physical cluster's logical core. -/
def Mdl.partsOf (s : Mdl) (d c k : Nat) : List Part :=
  match s.cht.chart, s.logOfDie d, s.logOfCluster d c with
  | some ch, some ld, some lc => ch.parts ld lc k
  | _, _, _ => []
/-- Bytes of the partitions of a use. -/
def partBytes (ps : List Part) (use_ : Nat) : Nat := ps.foldl (fun n p => if p.use = use_ then n + 4096 * p.size else n) 0

/-- Where byte `o` of a use lies in the plates: the partitions of the use follow one another (DESIGN CHOICE, assumption log entry 21). -/
def usePlace : List Part → Nat → Nat → Option Nat
  | [], _, _ => none
  | p :: t, u, o =>
    if p.use = u then (if o < 4096 * p.size then some (4096 * p.base + o) else usePlace t u (o - 4096 * p.size)) else usePlace t u o

/-- The partitions of a physical core. -/
def Mdl.coreParts (s : Mdl) (d c k : Nat) : List Part := s.partsOf d c (((s.logCores d c).findIdx? (· == k)).getD 0)

/-- A byte of a use's partitions, which are a ring (assumption log entry 21). -/
def Mdl.partByte (s : Mdl) (d c k u o : Nat) : Byte :=
  let ps := s.coreParts d c k
  match usePlace ps u (o % max 1 (partBytes ps u)) with
  | some a => s.platesByte d c k a
  | none => 0

/-- Put bytes into a use's partitions from an offset. -/
def Mdl.partWrite (s : Mdl) (d c k u o : Nat) (l : List Byte) : Mdl :=
  let ps := s.coreParts d c k
  l.zipIdx.foldl (fun s q => match usePlace ps u ((o + q.2) % max 1 (partBytes ps u)) with
    | some a => s.platesWrite d c k a [q.1]
    | none => s) s

/-! ### Passes in the row -/

/-- Are all the row totals of a pass written, or will none be (R201)? -/
def RowPass.over (q : RowPass) : Bool :=
  q.dummy || q.count == 0 || (List.range q.pass.lanes).all fun l => decide ((if q.pass.mode.val = 1 then 1 else q.pass.rows) ≤ Table.get 0 q.done l)

/-- The last cycle of a pass's beats at physical lane 0. -/
def RowPass.last (q : RowPass) : Nat := q.start + q.count - 1

/-- The beat that stands at a physical place in a cycle. -/
def RowPass.beatAt (q : RowPass) (cycle place : Nat) : Option Nat :=
  if q.start + place ≤ cycle ∧ cycle < q.start + place + q.count then some (cycle - q.start - place) else none

/-- Cycle at whose end logical lane at `place` writes row `r` (R188, R189). -/
def RowPass.writeCycle (q : RowPass) (r place : Nat) : Nat :=
  if q.pass.mode.val = 1 then q.start + q.count - 1 else q.start + (r + 1) * q.pass.chunks - 1 + place + 4

/-- The newest pass. -/
def CoreSt.newest (x : CoreSt) : Option RowPass := x.passes.head?

/-- The newest pass, the feeder's dummy beats of a gap left out. -/
def CoreSt.newestPass (x : CoreSt) : Option RowPass := x.passes.find? fun q => q.kind != .gap

/-- Is a beat due to enter physical lane 0: the first of the pass due, or one of the newest pass (R195)? In a gap between passes none is. -/
def CoreSt.beatDue (x : CoreSt) : Bool := x.due.isSome || match x.newest with
  | some q => q.kind == .real && decide (x.cycle < q.last)
  | none => false

/-- Physical places of the logical lanes, π(0) to π(63) (R172, R29). -/
def Mdl.lanePlaces (s : Mdl) (d c k : Nat) : List Nat := mapUnits 66 64 (s.bypassed d c k).contains

/-- Is a slot released for generation `g` in the cycle reached (R191)? Dummy beats use no slot. -/
def CoreSt.released (x : CoreSt) (g lane slot : Nat) : Bool :=
  match x.passes.find? fun q => decide (q.gen < g) && !q.dummy with
  | none => true
  | some q =>
    if slot < q.pass.slots then
      if q.pass.mode.val = 1 then decide (q.start + q.count ≤ x.cycle)
      else decide (q.start + (q.pass.rows - 1) * q.pass.chunks + q.pass.lastChunk slot + lane + 1 ≤ x.cycle)
    else decide (q.start + lane ≤ x.cycle)

/-- A slot of a physical lane. -/
def CoreSt.slot (x : CoreSt) (lane slot : Nat) : WSlot := Table.get WSlot.init x.slots (lane * 128 + slot)

/-- What a slot of a lane held for a generation, where it still does (R192, R193). -/
def CoreSt.weights (x : CoreSt) (gen lane slot : Nat) : Option WGen :=
  let w := x.slot lane slot
  (w.now :: w.old).find? fun v => v.gen == gen

/-- The generation that a write with tag `tag` into a slot belongs to: the next one of that tag that uses the slot, of the passes in the row or
of the pass to come (R191). -/
def CoreSt.nextGen (x : CoreSt) (lane slot : Nat) (tag : Bool) : Option Nat :=
  let now := (x.slot lane slot).now.gen
  ((List.range (x.gen + 1 - now)).map (now + 1 + ·)).find? fun g => bit g 0 == tag
    && (g == x.gen + 1 || x.passes.any fun q => q.gen == g && !q.dummy && decide (slot < q.pass.slots))

/-- A slot with new weights; of those before it stay the ones that beats in the row were computed with (R188). -/
def CoreSt.loaded (x : CoreSt) (w : WSlot) (v : WGen) : WSlot :=
  ⟨v, (w.now :: w.old).filter fun u => x.passes.any fun q => q.gen == u.gen && !q.over⟩

/-- Do the slots that a chunk uses hold the weights of a generation at a lane (R193)? -/
def CoreSt.ready (x : CoreSt) (p : Pass) (gen lane c : Nat) : Bool :=
  let u := p.slotsOf c
  (List.range u.2).all fun i => (x.slot lane (u.1 + i)).now.gen == gen

/-- The generation a pass carries when it enters: a new one with new stationary operands (R191, R277). -/
def CoreSt.genOf (x : CoreSt) (p : Pass) : Nat := if p.newWeights || x.reload then x.gen + 1 else x.gen

/-- Would the first beat of the pass due meet a slot with an old tag at physical lane 0 (R193)? -/
def CoreSt.dueStale (x : CoreSt) (places : List Nat) : Bool := match x.due with
  | some p => p.mode.val != 1 && p.span != 0 && places.head? == some 0 && !x.ready p (x.genOf p) 0 0
  | none => false

/-- Would the next beat due at some lane meet a slot with an old tag (R193)? -/
def CoreSt.stale (x : CoreSt) (places : List Nat) : Bool :=
  x.dueStale places || x.passes.any fun q => !q.dummy && q.pass.mode.val != 1 && (places.zipIdx).any fun l =>
      decide (l.2 < q.pass.lanes) && (match q.beatAt (x.cycle + 1) l.1 with
        | some b => !x.ready q.pass q.gen l.1 (b % q.pass.chunks)
        | none => false)

/-- The first cycle after `cycle` in which a beat of chunk `c` of a pass stands at a place. -/
def RowPass.nextBeat (q : RowPass) (cycle place c : Nat) : Option Nat :=
  let n := max 1 q.pass.chunks
  let from_ := cycle + 1 - (q.start + place)
  let b := from_ + (c + n - from_ % n) % n
  if b < q.count then some (q.start + place + b) else none

/-- The first cycle to come in which a beat would meet a slot with an old tag at some lane (R193). -/
def CoreSt.staleAt (x : CoreSt) (places : List Nat) : Option Nat :=
  (x.passes.flatMap fun q => if q.dummy || q.pass.mode.val == 1 then [] else
      places.zipIdx.flatMap fun l => if l.2 < q.pass.lanes then
          (List.range q.pass.chunks).filterMap fun c => if x.ready q.pass q.gen l.1 c then none else q.nextBeat x.cycle l.1 c
        else []).foldl (fun b t => some (match b with | some u => min u t | none => t)) none

/-- Logical lanes that hold a beat in the cycle reached; masked lanes are gated (R176, R198). Behind the newest pass, the feeder's dummy beats
of a gap follow (R197). -/
def CoreSt.lanesHolding (x : CoreSt) (places : List Nat) : List Nat :=
  let trail := match x.newest with
    | some q => if x.gapEnded then [] else [{ q with start := q.start + q.count, count := 64, kind := .gap }]
    | none => []
  (List.range 64).filter fun l => (trail ++ x.passes).any fun q =>
    (q.dummy || decide (l < q.pass.lanes)) && (q.beatAt x.cycle (places.getD l l)).isSome

/-- Dummy operations: a multiply-accumulate of zeros into the sinks (R170), whose values nothing reads. -/
def CoreSt.sinkZeros (x : CoreSt) : CoreSt :=
  { x with sinks := (x.sinks.map fun p => (p.1, F32.add p.2 F32.zero)).filter fun p => p.2 != F32.zero }

/-- Lane-cycles that the beats of a pass still in the row do as dummy beats (R201): every logical lane that each has not passed, those masked in
the pass among them (DESIGN CHOICE, assumption log entry 56: a lane's gating is the pass's, and the spec does not say whether it outlasts
the macro-operation). -/
def RowPass.dummyCycles (q : RowPass) (cycle : Nat) (places : List Nat) : Nat :=
  places.foldl (fun n p =>
    n + (if cycle < q.start + p then q.count else (q.count - 1) - (cycle - q.start - p))) 0

/-- The beats of a pass that have entered become dummy beats; the others are not sent (R201). -/
def RowPass.cut (q : RowPass) (cycle : Nat) : RowPass := { q with kind := .ended, count := min q.count (cycle + 1 - q.start) }

/-- The last cycle in which a pass or its dummy beats occupy the row (R189). -/
def CoreSt.emptyAt (x : CoreSt) (s : Nat) : Nat := x.passes.foldl (fun n q => max n (q.start + q.count + 63 + s + 3)) 0

/-- The last cycle with a real beat in the row. -/
def CoreSt.lastReal (x : CoreSt) (s : Nat) : Nat :=
  x.passes.foldl (fun n q => if q.dummy || q.pass.mode.val == 1 then n else max n (q.last + 63 + s)) 0

/-! ### Freezes (R195, R198, R200, R713) -/

/-- Row-level freeze record: one frozen cycle, charged to the first cause that holds (R195, R713). -/
def Mdl.freezeCycle (s : Mdl) (d c k cause : Nat) : Mdl :=
  let f := match cause with
    | 1 => Reg.SEQ_CORE_FREEZE_FEED d c k
    | 2 => Reg.SEQ_CORE_FREEZE_WEIGHT d c k
    | 3 => Reg.SEQ_CORE_FREEZE_DRAIN d c k
    | _ => Reg.SEQ_CORE_FREEZE_RAMP d c k
  (s.countSat f).setRegs [(Reg.SEQ_CORE_STATUS_STATE d c k, 2), (Reg.SEQ_CORE_STATUS_FREEZE_CAUSE d c k, cause)]

/-- A freeze begins (R195, R198): every lane that holds a beat does a dummy operation. -/
def Mdl.beginFreeze (s : Mdl) (d c k cause : Nat) : Mdl :=
  let x := s.core d c k
  let n := (x.lanesHolding (s.lanePlaces d c k)).length
  ((s.setCore d c k { x.sinkZeros with frozen := 1, holding := n, dummy := n, fallen := 0 }).count
    (Reg.SEQ_CORE_DUMMY_LANE_CYCLES d c k) n).freezeCycle d c k cause

/-- One more frozen cycle; with the cause "ramp-up" the dummy count rises by RAMP_LIMIT (R200). -/
def Mdl.stayFrozen (s : Mdl) (d c k cause : Nat) : Mdl :=
  let x := s.core d c k
  let dummy := if cause = 4 then min x.holding (x.dummy + s.reg (Reg.SEQ_CORE_STATUS_RAMP_LIMIT d c k)) else x.dummy
  let s := s.setCore d c k { x.sinkZeros with frozen := x.frozen + 1, dummy := dummy }
  (s.count (Reg.SEQ_CORE_DUMMY_LANE_CYCLES d c k) dummy).freezeCycle d c k cause

/-- The row advances again (R196). -/
def Mdl.thaw (s : Mdl) (d c k : Nat) : Mdl :=
  (s.setCore d c k { s.core d c k with frozen := 0, dummy := 0, holding := 0, fallen := 0 }).setRegs
    [(Reg.SEQ_CORE_STATUS_STATE d c k, 1), (Reg.SEQ_CORE_STATUS_FREEZE_CAUSE d c k, 0)]

/-- A freeze whose other causes have cleared ramps up, and ends once every lane that holds a beat is busy (R200); `n` bounds its cycles. -/
def Mdl.rampUp (s : Mdl) (d c k : Nat) : Nat → Mdl
  | 0 => s.thaw d c k
  | n + 1 => if (s.core d c k).holding ≤ (s.core d c k).dummy then s.thaw d c k else Mdl.rampUp (s.stayFrozen d c k 4) d c k n

/-! ### Advancing -/

/-- The row advances to a cycle: cycles with a real beat in the row count (Table 4-16). -/
def Mdl.rowTo (s : Mdl) (d c k cycle : Nat) : Mdl :=
  let x := s.core d c k
  let reach := s.reg (Reg.SEQ_CORE_STATUS_SPARE_IN_USE d c k)
  (s.count (Reg.SEQ_CORE_ACTIVE_CYCLES d c k) (min cycle (x.lastReal reach) - x.cycle)).setCore d c k { x with cycle := max x.cycle cycle }

/-- The feeder has sent 64 dummy beats since the newest pass, and stops (R197). -/
def Mdl.endGap (s : Mdl) (d c k : Nat) : Mdl :=
  let x := s.core d c k
  match x.newest with
  | some q =>
    if x.gapEnded ∨ x.cycle < q.last + 64 then s
    else
      let y := { x.sinkZeros with gapEnded := true, passes := { q with start := q.last + 1, count := 64, kind := .gap } :: x.passes }
      (s.setCore d c k y).count (Reg.SEQ_CORE_DUMMY_LANE_CYCLES d c k) (64 * 64)
  | none => s

/-- The row is Idle once its last beat, the gap's dummy beats included, has left it and no pass is due (Table 4-13, R189, R197). -/
def Mdl.rowIdle (s : Mdl) (d c k : Nat) : Mdl :=
  let x := s.core d c k
  if s.reg (Reg.SEQ_CORE_STATUS_STATE d c k) = 1 ∧ x.due.isNone ∧ x.passes.all RowPass.over ∧ (x.gapEnded ∨ x.newest.isNone)
      ∧ x.emptyAt (s.reg (Reg.SEQ_CORE_STATUS_SPARE_IN_USE d c k)) < x.cycle then
    s.setReg (Reg.SEQ_CORE_STATUS_STATE d c k) 0
  else s

/-- `n` cycles pass on a row: advancing cycles (R171), up to the first in which a beat would meet a slot with an old tag, where the row
freezes (R193). A frozen row does not advance. -/
def Mdl.rowAdvance (s : Mdl) (d c k n : Nat) : Mdl :=
  let x := s.core d c k
  if n = 0 ∨ x.frozen ≠ 0 then s
  else match x.staleAt (s.lanePlaces d c k) with
    | some t => if t ≤ x.cycle + n then (s.rowTo d c k (t - 1)).beginFreeze d c k 2 else (s.rowTo d c k (x.cycle + n)).rowIdle d c k
    | none => (s.rowTo d c k (x.cycle + n)).rowIdle d c k

/-- Time enough passes for a row that has no total left to write to empty (R189, R201): a freeze that no cause holds ramps up and ends, the gap
runs out, and the last beat leaves. -/
def Mdl.rowSettle (s : Mdl) (d c k : Nat) : Mdl :=
  let x := s.core d c k
  let st := s.reg (Reg.SEQ_CORE_STATUS_STATE d c k)
  if (st = 1 ∨ st = 2) ∧ x.due.isNone ∧ x.passes.all RowPass.over then
    let s := if x.frozen = 0 then s else s.rampUp d c k 64
    let gap := match x.newest with
      | some q => q.last + 64
      | none => 0
    let s := (s.rowTo d c k gap).endGap d c k
    (s.rowTo d c k ((s.core d c k).emptyAt (s.reg (Reg.SEQ_CORE_STATUS_SPARE_IN_USE d c k)) + 1)).rowIdle d c k
  else s

/-- Is a row empty, with no pass due? A self-test's patterns are in the row. -/
def Mdl.rowEmpty (s : Mdl) (d c k : Nat) : Bool :=
  let st := s.reg (Reg.SEQ_CORE_STATUS_STATE d c k)
  st != 1 && st != 2 && st != 3 && (s.core d c k).due.isNone

/-- Has a macro-operation a pass in a core's row: beats that have not left it, or totals to write (R211)? -/
def Mdl.inRow (s : Mdl) (d c k seq : Nat) : Bool :=
  let x := s.core d c k
  x.passes.any fun q => q.entry.seq == seq && !q.dummy
    && (!q.over || decide (x.cycle ≤ q.start + q.count + 63 + s.reg (Reg.SEQ_CORE_STATUS_SPARE_IN_USE d c k) + 3))

/-- The passes of the macro-operations that `gone` names end early on a core: the banks they own are FREE, their contents discarded, their drained
rows dropped, and their beats in the row become dummy beats (R201, Table 4-10), whose dummy operations count at once. `due`: the pass due
is one of theirs. A freeze that no cause holds any more ramps up before it ends (R200). -/
def Mdl.endPasses (s : Mdl) (d c k : Nat) (gone : Nat → Bool) (due : Bool) : Mdl :=
  let x := s.core d c k
  let places := s.lanePlaces d c k
  let mine := fun (q : RowPass) => gone q.entry.seq && !q.over
  let cut := x.passes.filter mine
  let s := if cut.isEmpty then s else
    s.count (Reg.SEQ_CORE_DUMMY_LANE_CYCLES d c k) (cut.foldl (fun n q => n + (q.cut x.cycle).dummyCycles x.cycle places) 0)
  let keep := fun (b : Bank) => if gone b.owner then Bank.init else b
  let y := { x with
    bank0 := keep x.bank0, bank1 := keep x.bank1, wide := x.wide && !gone x.bank0.owner, due := if due then none else x.due
    drained := x.drained.filter fun r => !gone r.entry.seq, passes := x.passes.map fun q => if mine q then q.cut x.cycle else q }
  let s := if y = x then s else (s.setCore d c k y).showBanks d c k
  if y.frozen = 0 then s.rowIdle d c k
  else if y.beatDue || y.stale places then s
  else if y.dummy < y.holding then s.setReg (Reg.SEQ_CORE_STATUS_FREEZE_CAUSE d c k) 4
  else s.thaw d c k

end Sys2Proof.Machine
end

