-- ==== Sys2Proof/Machine/Sched.lean ====
section
/-! DEFINITION. Jobs, shares, dispatch, pre-emption and semaphores (R402 to R421), and how a macro-operation ends (R233,
R241, Table 5-14). -/
namespace Sys2Proof.Machine

/-! ### Descriptor fields and the sequencer's registers -/

/-- Is a bring-in of a physical cluster pending: one that its issue waits for, or one that a boundary will take up (R161)? -/
def Mdl.bringInPending (s : Mdl) (d c : Nat) : Bool :=
  (s.cluster d c).held || match s.logOfDie d, s.logOfCluster d c with
    | some ld, some lc => s.svc.bringIns.contains (ld, lc)
    | _, _ => false

/-- Does a condition of R264 hold for a cluster? -/
def Mdl.selUnspec (s : Mdl) (d c : Nat) : Bool :=
  let x := s.cluster d c
  !s.svc.reported || !x.selfTest.isEmpty || s.bringInPending d c || s.svc.loading == some (d, c) || x.hwFault == some s.epoch

/-- Is a physical cluster in service? -/
def Mdl.clusterOn (s : Mdl) (d c : Nat) : Bool := s.logDies.contains d && (s.logClusters d).contains c

/-- Show a cluster in SEQ_STATUS and SEQ_CURRENT (Tables 5-11, 5-12). -/
def Mdl.showSeq (s : Mdl) (d c : Nat) : Mdl :=
  let x := s.cluster d c
  let st :=
    if !s.clusterOn d c then 5
    else if s.svc.loading = some (d, c) then 4
    else if x.saving.isSome then 3
    else if s.flag (Reg.EYE_STATUS_HALTED d c) then 2
    else if x.cur.isSome then 1 else 0
  s.setRegs [(Reg.SEQ_STATUS_STATE d c, st), (Reg.SEQ_STATUS_SEL_UNSPEC d c, b2n (s.selUnspec d c)),
    (Reg.SEQ_STATUS_QUEUE d c, min x.queue.length 255),
    (Reg.SEQ_CURRENT_OPCODE d c, (x.cur.map fun m => Desc.opcode m.entry.desc).getD 0),
    (Reg.SEQ_CURRENT_TAG d c, (x.cur.map fun m => Desc.tag m.entry.desc).getD 0)]

/-- The pre-emption save areas that hold a context of a job hold none any more (R275). -/
def Mdl.releaseAreas (s : Mdl) (j : Nat) : Mdl :=
  { s with cores := (s.cores.map fun p => (p.1, if p.2.saveOwner = some j then { p.2 with saveOwner := none } else p.2)).filter fun p => p.2 != .init }

/-- Change what a cluster holds, and show it. -/
def Mdl.putCluster (s : Mdl) (d c : Nat) (x : ClusterSt) : Mdl := (s.setCluster d c x).showSeq d c

/-- Show every cluster that holds something. -/
def Mdl.showAllSeq (s : Mdl) : Mdl := s.clusters.foldl (fun (s : Mdl) p => s.showSeq (p.1 / 26) (p.1 % 26)) s

/-! ### Jobs -/

def Mdl.job (s : Mdl) (j : Nat) : Option Job := Table.get none s.sch.jobs j
/-- Write a job, and show how many exist (Table 8-20). -/
def Mdl.setJob (s : Mdl) (j : Nat) (x : Option Job) : Mdl :=
  let t := Table.set none s.sch.jobs j x
  { s with sch := { s.sch with jobs := t } }.setReg Reg.SCH_STATUS_JOBS t.length
def Mdl.jobList (s : Mdl) : List (Nat × Job) := s.sch.jobs.filterMap fun p => p.2.map fun x => (p.1, x)

/-- The logical number 25 d + c of a physical cluster, and back. -/
def Mdl.logicalOf (s : Mdl) (d c : Nat) : Option Nat :=
  (s.logOfDie d).bind fun ld => (s.logOfCluster d c).map fun lc => 25 * ld + lc
def Mdl.physicalOf (s : Mdl) (l : Nat) : Option (Nat × Nat) :=
  (s.logDies[l / 25]?).bind fun d => ((s.logClusters d)[l % 25]?).map fun c => (d, c)

/-- The share of an account (R406). -/
def Mdl.share (s : Mdl) (a : Nat) : Nat :=
  let entry := s.regs.find? fun p =>
    let i := (p.1 / 1024 - 0x71000) / 4
    decide (0x71000 * 1024 ≤ p.1) && decide (p.1 < 0x72000 * 1024) && p.1 == (Reg.SCH_SHARE_SHARE i).key
      && s.reg (Reg.SCH_SHARE_ACCOUNT i) == a
  match entry with
  | some p => p.2
  | none => s.reg Reg.SCH_CTRL_DEFAULT_SHARE

def Mdl.balance (s : Mdl) (a : Nat) : Int := Table.get 0 s.sch.balances a
def Mdl.setBalance (s : Mdl) (a : Nat) (v : Int) : Mdl :=
  { s with sch := { s.sch with balances := Table.set 0 s.sch.balances a v } }

/-- Accounts with a job or a sequence that is not FREE (R407). -/
def Mdl.activeAccounts (s : Mdl) : List Nat :=
  let l := s.jobList.map (·.2.acct)
    ++ (s.sch.seqs.filter fun p => p.2.state != .free).map fun p => s.reg (Reg.SQT_GRP_CFG_ACCOUNT p.2.group)
  l.foldl (fun l x => if l.contains x then l else l ++ [x]) []

/-- C × T of the new epoch in cluster-nanoseconds. -/
def Mdl.moduleTime (s : Mdl) : Nat := s.clustersInService * s.reg Reg.TRN_PERIOD_PERIOD

/-- The gain of balances at a boundary (R407). -/
def Mdl.gainBalances (s : Mdl) : Mdl :=
  let act := s.activeAccounts
  let w := act.foldl (fun n a => n + s.share a) 0
  let t := s.moduleTime
  let idle := s.sch.balances.foldl (fun s p => if act.contains p.1 then s else s.setBalance p.1 (min p.2 0)) s
  act.foldl (fun r a =>
    let e : Int := (256 * s.share a * t / (1000 * max 1 w) : Nat)
    r.setBalance a (max (-4 * e) (min (4 * e) (s.balance a + e)))) idle

def Mdl.semsOf (s : Mdl) (j : Nat) : List Nat := (s.sch.sems.filter fun p => p.2.owner == some j).map (·.1)
def Mdl.waitsOn (s : Mdl) (j : Nat) : List Nat := (s.sch.sems.filter fun p => p.2.waiters.any fun w => w.job == j).map (·.1)

/-- Jobs that wait for a semaphore that a job owns. -/
def Mdl.waitersOf (s : Mdl) (j : Nat) : List Nat := s.sch.sems.flatMap fun p => if p.2.owner = some j then p.2.waiters.map (·.job) else []

/-- The larger of two balances, of which either may be absent. -/
def maxOpt : Option Int → Option Int → Option Int
  | some x, some y => some (max x y)
  | x, none => x
  | none, y => y

/-- The largest balance that a job inherits: from requests to pre-empt it, and from the jobs that wait for its semaphores and themselves
inherit, each of which passes its effective balance on (R412, R413). -/
def Mdl.inherits (s : Mdl) : Nat → Nat → Option Int
  | 0, j => (s.job j).bind fun x => x.inherited.foldl (fun b v => maxOpt b (some v)) none
  | n + 1, j => (s.waitersOf j).foldl (fun b w => maxOpt b ((s.inherits n w).map fun v => match s.job w with
      | some x => max v (s.balance x.acct)
      | none => v)) (s.inherits 0 j)

/-- The effective balance of job `j` (R413). No chain of waits is longer than the jobs are many. -/
def Mdl.effBalance (s : Mdl) (j : Nat) (x : Job) : Int :=
  match s.inherits s.sch.jobs.length j with
  | some v => max v (s.balance x.acct)
  | none => s.balance x.acct

/-- Does a job wait for a channel slot (R404)? -/
def Mdl.wantsSlot (s : Mdl) (x : Job) : Bool :=
  !x.started &&
    ((match x.outCh with | some n => x.outSlot.isNone && (s.mixed (0x0A80 + n) || (s.achFree n).isNone) | none => false)
      || (match x.inCh with | some n => x.inSlot.isNone && (s.mixed (0x0A80 + n) || (s.achReady n).isNone) | none => false))

/-- Does a job wait only for a channel slot, its class being one that may run (R404, R420)? -/
def Mdl.waitsForSlot (s : Mdl) (x : Job) : Bool := s.wantsSlot x && s.mayRun 5 x.cls

/-- The groups of the channels that an execution is still to be bound to. -/
def Job.unbound (x : Job) : List Nat :=
  (match x.outCh with | some n => if x.outSlot.isNone then [0x0A80 + n] else [] | none => [])
    ++ (match x.inCh with | some n => if x.inSlot.isNone then [0x0A80 + n] else [] | none => [])

/-- Executions that a mixed channel group keeps from being bound are held (R168). -/
def Mdl.holdUnbound (s : Mdl) : Mdl :=
  s.jobList.foldl (fun s p => if p.2.started then s else match p.2.unbound.find? s.mixed with
    | some g => s.beginHold g (.job p.1)
    | none => s) s

/-- The backlog of a class in cluster-microseconds (R420). -/
def Mdl.backlog (s : Mdl) (cls : Nat) : Nat :=
  s.jobList.foldl (fun n p => if p.2.cls = cls ∧ !s.waitsForSlot p.2 then n + (p.2.estimate - p.2.charged) else n) 0

/-- Show a class's backlog and whether it is overloaded (Tables 8-20, 8-26). -/
def Mdl.showBacklog (s : Mdl) (cls : Nat) : Mdl :=
  let t := max 1 s.moduleTime
  let b := s.backlog cls * 1000
  let lim := s.reg (Reg.SCH_CLASS_ADMIT_LIMIT cls)
  let past := decide (lim ≠ 0) && decide (lim * t ≤ b)
  let o := s.reg Reg.SCH_STATUS_OVERLOAD
  s.setRegs [(Reg.SCH_BACKLOG_BACKLOG cls, min (256 * b / t) (2 ^ 24 - 1)),
    (Reg.SCH_STATUS_OVERLOAD, if past = bit o cls then o else if past then o + 2 ^ cls else o - 2 ^ cls)]

/-- Would an execution of this class and estimate be refused (R421)? -/
def Mdl.overloaded (s : Mdl) (cls estimate : Nat) : Bool :=
  let lim := s.reg (Reg.SCH_CLASS_ADMIT_LIMIT cls)
  decide (4096 ≤ s.sch.jobs.length)
    || (decide (lim ≠ 0) && decide (lim * max 1 s.moduleTime ≤ (s.backlog cls + estimate) * 1000))

/-- Count an execution refused by R421. -/
def Mdl.countRefused (s : Mdl) (cls : Nat) : Mdl :=
  (s.setReg Reg.SCH_STATUS_OVERLOAD_SEEN (maskOf ((List.range 16).filter fun k => bit (s.reg Reg.SCH_STATUS_OVERLOAD_SEEN) k || k == cls))).countSat
    (Reg.SCH_BACKLOG_REFUSED cls)

/-- The base of a job not yet admitted. -/
def Job.new (acct cls estimate : Nat) (work : List (Nat × List (BitVec 1024))) : Job :=
  { acct := acct, cls := cls, plan := 0, estimate := estimate, charged := 0, context := none, outCh := none, inCh := none
    outSlot := none, inSlot := none, cid := none, discard := false, group := none
    work := work.map fun w => ⟨w.1, w.2, none, none, [], .waiting⟩
    params := [], order := 0, chartGen := 0, started := false, status := none, faultCode := 0, pageKind := 0
    inherited := [], catalogue := none, issued := 0, completed := 0 }

/-! ### How a macro-operation or an execution ends -/

/-- A job takes its ending status, once (R233). -/
def Mdl.failJob (s : Mdl) (j : Nat) (st : Status) (code kind : Nat) : Mdl :=
  match s.job j with
  | none => s
  | some x => if x.status.isSome then s else s.setJob j (some { x with status := some st, faultCode := code, pageKind := kind })

/-- The bank states of a cluster's cores as SEQ_FAULT_ACC.BANKS lays them out (Table 5-16). -/
def Mdl.bankStates (s : Mdl) (d c : Nat) : Nat :=
  (List.range 9).foldl (fun n k => n + ((s.core d c k).bank0.state.code + 4 * (s.core d c k).bank1.state.code) * 2 ^ (4 * k)) 0

/-- Record a fault in SEQ_FAULT, SEQ_FAULT_TILE and SEQ_FAULT_ACC, or its overflow (R241, Tables 5-14 to 5-16). Only an accumulator overflow has
live tiles needed and held, and has recorded them (R249); any other fault shows the banks, and zero for both (DESIGN CHOICE, assumption
log entry 56). -/
def Mdl.recordSeqFault (s : Mdl) (d c code opcode tag : Nat) : Mdl :=
  if s.flag (Reg.SEQ_FAULT_VALID d c) then s.setReg (Reg.SEQ_FAULT_OVERFLOW d c) 1
  else
    let w := fun (f : Nat → Nat → Fld) => s.reg (f d c)
    let s := s.setRegs [(Reg.SEQ_FAULT_VALID d c, 1), (Reg.SEQ_FAULT_CODE d c, code), (Reg.SEQ_FAULT_OPCODE d c, opcode),
      (Reg.SEQ_FAULT_TAG d c, tag),
      (Reg.SEQ_FAULT_TILE_TILE d c, w Reg.SEQ_WALK_BATCH + w Reg.SEQ_WALK_M_TILE * 2 ^ 16 + w Reg.SEQ_WALK_N_TILE * 2 ^ 32
        + w Reg.SEQ_WALK_K_TILE * 2 ^ 48)]
    if code = 0x09 then s
    else s.setRegs [(Reg.SEQ_FAULT_ACC_BANKS d c, s.bankStates d c), (Reg.SEQ_FAULT_ACC_NEEDED d c, 0), (Reg.SEQ_FAULT_ACC_HELD d c, 0)]

/-- Macro-operations in progress on a cluster, oldest first (R229). -/
def ClusterSt.running (y : ClusterSt) : List MacroRun := y.early ++ y.cur.toList

/-- Change the oldest macro-operation in progress. -/
def ClusterSt.updOldest (y : ClusterSt) (f : MacroRun → MacroRun) : ClusterSt := match y.early with
  | m :: t => { y with early := f m :: t }
  | [] => { y with cur := y.cur.map f }

/-- Keep of the macro-operations in progress those that stay. -/
def ClusterSt.keepRuns (y : ClusterSt) (l : List MacroRun) : ClusterSt := { y with early := l.dropLast, cur := l.getLast? }

/-- The passes of macro-operations that end early (R201, Table 4-10), and the glue segments of a cluster when no macro-operation with one stays. -/
def Mdl.freeBanks (s : Mdl) (d c : Nat) (gone stay : List MacroRun) : Mdl :=
  let seqs := gone.map fun m => m.entry.seq
  let newest := ((s.cluster d c).cur.map fun m => m.entry.seq).any seqs.contains
  let glue := stay.any fun m => (Macro.of m.entry.desc).glue != 0
  (List.range 9).foldl (fun s k =>
    let s := if s.flag (Reg.SEQ_CORE_CE_BUSY d c k) && !glue then s.setReg (Reg.SEQ_CORE_CE_BUSY d c k) 0 else s
    s.endPasses d c k seqs.contains newest) s

def Mdl.sem (s : Mdl) (n : Nat) : SemSt := Table.get .init s.sch.sems n
/-- Write a semaphore, and show it (Table 8-28). -/
def Mdl.setSem (s : Mdl) (n : Nat) (x : SemSt) : Mdl :=
  { s with sch := { s.sch with sems := Table.set .init s.sch.sems n x } }.setRegs
    [(Reg.SCH_SEM_HELD n, b2n x.owner.isSome), (Reg.SCH_SEM_WAITERS n, b2n (!x.waiters.isEmpty)), (Reg.SCH_SEM_OWNER n, x.owner.getD 0)]

/-- Does a core's glue segment wait for a semaphore (R417)? -/
def Mdl.coreWaits (s : Mdl) (d c k : Nat) : Bool := s.sch.sems.any fun p => p.2.waiters.any fun w => w.core == coreKey d c k
def Mdl.clusterWaits (s : Mdl) (d c : Nat) : Bool := (List.range 9).any fun k => s.coreWaits d c k

/-- The glue segments of a cluster end, and wait for no semaphore any more. -/
def Mdl.dropWaits (s : Mdl) (d c : Nat) : Mdl :=
  if !s.clusterWaits d c then s
  else (s.sch.sems.map (·.1)).foldl (fun s n =>
    let x := s.sem n
    s.setSem n { x with waiters := x.waiters.filter fun w => w.core / 9 != clusterKey d c }) s

/-- What a cluster's macro-operations have had of remote pages is used up, or serves nothing any more. -/
def Mdl.dropMacroLines (s : Mdl) (d c : Nat) : Mdl := s.dropLines fun w => match w with
  | .walk d' c' _ => d' == d && c' == c
  | _ => false

/-- Macro-operations of a cluster that meet `hit` end with a status other than success (R233): each has its end recorded and counted (R314), its
passes end, the job takes the status, and the rest of the queue is dropped. Those in progress that do not meet it go on to their own end.
SEQ_FAULT records an end with Compute Hardware Fault with code 0x20 (R241, Table 5-14). -/
def Mdl.endRuns (s : Mdl) (d c : Nat) (st : Status) (code kind : Nat) (hit : MacroRun → Bool) : Mdl :=
  let x := s.cluster d c
  let gone := x.running.filter hit
  let stay := x.running.filter fun m => !hit m
  let j := (x.running.head?.map fun m => m.entry.job).or x.job
  let s := if st = .computeHardwareFault ∧ code = 0 then gone.foldl (fun s m => s.recordSeqFault d c 0x20 (Desc.opcode m.entry.desc) (Desc.tag m.entry.desc)) s else s
  let s : Mdl := match j with
    | some j => s.failJob j st (if st = Status.computeHardwareFault ∧ !gone.isEmpty then 0x20 else code) kind
    | none => s
  let s := (gone.foldl (fun s m => s.addScaleCounts m) s).freeBanks d c gone stay
  let s := if st = .computeHardwareFault then s.setCluster d c { s.cluster d c with hwFault := some s.epoch } else s
  let s := if stay.any (fun m => (Macro.of m.entry.desc).glue != 0) then s else s.dropWaits d c
  let y := { s.cluster d c with queue := [], saving := none }.keepRuns stay
  (s.dropMacroLines d c).putCluster d c (if stay.isEmpty then { y with chain := none, job := none, preempt := false, preemptBy := none } else y)

/-- All that a cluster has in progress, and its part of an execution, end with a status. -/
def Mdl.endMacro (s : Mdl) (d c : Nat) (st : Status) (code kind : Nat) : Mdl := s.endRuns d c st code kind fun _ => true

/-- A macro-operation ends with a status. -/
def Mdl.endRun (s : Mdl) (d c : Nat) (m : MacroEntry) (st : Status) (code kind : Nat) : Mdl :=
  s.endRuns d c st code kind fun r => r.entry.seq == m.seq

/-- A macro-operation ends with a fault that SEQ_FAULT records. -/
def Mdl.faultRun (s : Mdl) (d c : Nat) (m : MacroEntry) (st : Status) (code : Nat) : Mdl :=
  (s.recordSeqFault d c code (Desc.opcode m.desc) (Desc.tag m.desc)).endRun d c m st code 0

/-- The newest macro-operation in progress ends with a fault that SEQ_FAULT records. -/
def Mdl.faultMacro (s : Mdl) (d c : Nat) (st : Status) (code : Nat) : Mdl :=
  match (s.cluster d c).cur with
  | some m => s.faultRun d c m.entry st code
  | none => (s.recordSeqFault d c code 0 0).endMacro d c st code 0

/-- The macro-operation whose glue segment runs on a cluster's control engines ends with a fault: the newest with one (R221). -/
def Mdl.faultGlue (s : Mdl) (d c : Nat) (st : Status) (code : Nat) : Mdl :=
  match (s.cluster d c).running.reverse.find? fun m => (Macro.of m.entry.desc).glue != 0 with
  | some m => s.faultRun d c m.entry st code
  | none => s.faultMacro d c st code

/-! ### Semaphores (R415 to R418) -/

/-- A semaphore goes to its next waiter, or to nobody (R415). -/
def Mdl.grantNext (s : Mdl) (n : Nat) : Mdl :=
  match (s.sem n).waiters with
  | [] => s.setSem n .init
  | w :: t => s.setSem n ⟨some w.job, t⟩

/-- A job that holds no semaphore inherits nothing (R412). -/
def Mdl.endInherit (s : Mdl) (j : Nat) : Mdl :=
  match s.job j with
  | none => s
  | some x => if (s.semsOf j).isEmpty && !x.inherited.isEmpty then s.setJob j (some { x with inherited := [] }) else s

/-- A glue segment on a core acquires a semaphore (R415, R416). A core that waits for one retires no instruction (R417), so it acquires
no other. -/
def Mdl.semAcquire (s : Mdl) (d c k n : Nat) : Mdl :=
  match (s.cluster d c).job with
  | none => s
  | some j =>
    let x := s.sem n
    if s.coreWaits d c k then s
    else match x.owner with
      | none => s.setSem n ⟨some j, x.waiters⟩
      | some o =>
        if o = j then s.faultGlue d c .computeProgramFault 0x21
        else s.setSem n { x with waiters := x.waiters ++ [⟨j, coreKey d c k⟩] }

/-- A glue segment on a core releases a semaphore (R415, R416); a core that waits retires no instruction (R417). -/
def Mdl.semRelease (s : Mdl) (d c k n : Nat) : Mdl :=
  match (s.cluster d c).job with
  | none => s
  | some j =>
    if s.coreWaits d c k then s
    else if (s.sem n).owner = some j then (s.grantNext n).endInherit j
    else s.faultGlue d c .computeProgramFault 0x21

/-- Every semaphore of a job that ends is released, and counted (R418); it waits for none any more. -/
def Mdl.forceRelease (s : Mdl) (j : Nat) : Mdl :=
  let s := (s.waitsOn j).foldl (fun s n =>
    let x := s.sem n
    s.setSem n { x with waiters := x.waiters.filter (·.job != j) }) s
  (s.semsOf j).foldl (fun s n => (s.grantNext n).countSat Reg.SCH_PREEMPT_FORCED) s

/-! ### The end of an execution (R591, R418, Table 7-7) -/

/-! ### Ready jobs, and requests to pre-empt (R404, R405, R409, R410) -/

/-- The modes that the personality of a physical cluster allows its logical core. -/
def Mdl.modesOf (s : Mdl) (d c k : Nat) : Nat :=
  match s.cht.chart, s.logOfDie d, s.logOfCluster d c with
  | some ch, some ld, some lc => (((ch.personality ld lc).cores)[k]?.map (·.1)).getD 0
  | _, _, _ => 0

/-- Do the cores of a physical cluster allow the lane modes of a job's saved work (R278)? -/
def Mdl.modesAllow (s : Mdl) (d c : Nat) (w : ClusterWork) : Bool :=
  ((w.cur.toList.map fun m => m.entry.desc) ++ w.macros).all fun e => match (Macro.of e).mode with
    | some m => (Macro.of e).cores.all fun k => bit (s.modesOf d c k) m
    | none => true

/-- The work of a job that a physical cluster could take now, by its number in the plan's order: work that waits for this logical cluster; or saved
work, in the save areas of this cluster's cores, or wholly in its slot where the cores allow its modes (R278). -/
def Mdl.workFor (s : Mdl) (d c : Nat) (x : Job) : Option Nat :=
  match s.logicalOf d c with
  | none => none
  | some l => x.work.findIdx? fun w => match w.state with
    | .waiting => w.cluster == l
    | .saved k inArea => if inArea then k == clusterKey d c else s.modesAllow d c w
    | _ => false

/-- The number of the work that a job runs on a physical cluster. -/
def Job.workOn (x : Job) (d c : Nat) : Option Nat := x.work.findIdx? fun w => w.state == .running (clusterKey d c)

/-- Does the ROLE of a physical die let it run a job (R351, Table 7-5): catalogue searches on roles 2 and 3, plans on roles 1 and 3? -/
def Mdl.roleAllows (s : Mdl) (d : Nat) (x : Job) : Bool := match s.cht.chart, s.logOfDie d with
  | some c, some l => match c.roles[l]? with
    | some (r, _) => r == 3 || r == (if x.catalogue.isSome then 2 else 1)
    | none => false
  | _, _ => false

/-- Is a job ready on a physical cluster (R404)? -/
def Mdl.jobReady (s : Mdl) (d c : Nat) (x : Job) : Bool :=
  x.status.isNone && (s.workFor d c x).isSome && s.roleAllows d x && s.mayRun 5 x.cls && !s.wantsSlot x

/-- The ready job of highest effective balance, the earlier admitted on a tie (R405). -/
def Mdl.bestJob (s : Mdl) (d c : Nat) : Option (Nat × Job) :=
  (s.jobList.filter fun p => s.jobReady d c p.2).foldl (fun (b : Option (Nat × Job)) p => match b with
    | none => some p
    | some q =>
      let x := s.effBalance p.1 p.2
      let y := s.effBalance q.1 q.2
      if y < x ∨ (x = y ∧ p.2.order < q.2.order) then some p else some q) none

/-- Pre-emption of the job on a cluster is requested (R409), or dropped (R410). -/
def Mdl.requestPreempt (s : Mdl) (d c : Nat) (by_ : Option Nat) : Mdl :=
  let y := s.cluster d c
  match y.job.bind s.job with
  | none => s
  | some x =>
    if y.preempt then s
    else if x.context.isNone then s.countSat Reg.SCH_PREEMPT_REFUSED
    else s.setCluster d c { y with preempt := true, preemptBy := by_ }

/-- The ready job whose balance exceeds the running job's by MARGIN (R409). -/
def Mdl.challenger (s : Mdl) (d c : Nat) : Option Nat :=
  match (s.cluster d c).job.bind fun j => (s.job j).map fun x => (j, x) with
  | none => none
  | some (j, x) =>
    match s.bestJob d c with
    | some (k, y) =>
      if s.effBalance j x + s.reg Reg.SCH_PREEMPT_CFG_MARGIN * 256 ≤ s.effBalance k y then some k else none
    | none => none

/-- Check every busy cluster for a pre-emption: at a boundary, and when a job becomes ready (R409). -/
def Mdl.checkPreempt (s : Mdl) : Mdl :=
  s.clusters.foldl (fun s p =>
    let d := p.1 / 26
    let c := p.1 % 26
    match s.challenger d c with
    | some k => s.requestPreempt d c (some k)
    | none => s) s

/-! ### The end of a job (R233, R591) -/

/-- The job's clusters and queues let it go: what they still have of it in progress ends early (R201, R314). No save area holds a context of it any
more (R275), and no pre-emption is asked for on its behalf (R409). -/
def Mdl.leaveClusters (s : Mdl) (j : Nat) : Mdl :=
  let s := s.clusters.foldl (fun s p =>
    let d := p.1 / 26
    let c := p.1 % 26
    let x := p.2
    if x.job = some j ∨ (x.queue.any fun e => e.job == j) then
      let gone := x.running.filter fun m => m.entry.job == j
      let stay := x.running.filter fun m => m.entry.job != j
      let s := (gone.foldl (fun s m => s.addScaleCounts m) s).freeBanks d c gone stay
      let y := { s.cluster d c with queue := x.queue.filter fun e => e.job != j }.keepRuns stay
      (s.dropMacroLines d c).putCluster d c (if x.job = some j then { y with job := none, chain := none, preempt := false, preemptBy := none, saving := none } else y)
    else if x.preemptBy = some j then s.setCluster d c { x with preemptBy := none } else s) s
  s.releaseAreas j

/-- What an execution's channels do when it ends (Table 7-7). -/
def Mdl.endChannels (s : Mdl) (x : Job) (ok : Bool) : Mdl :=
  let s := match x.outCh, x.outSlot with
    | some n, some i =>
      if (s.ach n).slots[i]? = some .filling then
        if ok then s.achCopy n i (s.reg (Reg.SCH_CLASS_TRAFFIC x.cls))
        else (s.setSlot n i .free).setReg (Reg.TIR_ACH_STATUS_NEXT n) i
      else s
    | _, _ => s
  match x.inCh, x.inSlot with
  | some n, some i => s.slotConsumed n i
  | _, _ => s

/-- Does a request serve an access of a job? -/
def SpanReq.ofJob (r : SpanReq) (j : Nat) : Bool := match r.purpose with
  | .access k _ _ _ | .line k _ _ _ => k == j
  | _ => false

/-- A job that ends leaves no request behind: those not yet injected are dropped, and those under way serve nothing more (R419, R637). -/
def Mdl.dropRequests (s : Mdl) (j : Nat) : Mdl :=
  let s : Mdl := { s with spn := { s.spn with
    blocked := s.spn.blocked.filter fun r => !r.ofJob j
    parked := s.spn.parked.filter fun r => !r.ofJob j
    reqs := s.spn.reqs.map fun r => if r.ofJob j then { r with purpose := .sync } else r } }
  s.dropLines (· == .job j)

/-- The requests of a job that wait to be injected leave its class's pool while its context is saved (R419). -/
def Mdl.parkRequests (s : Mdl) (j : Nat) : Mdl :=
  { s with spn := { s.spn with
      blocked := s.spn.blocked.filter fun r => !r.ofJob j, parked := s.spn.parked ++ s.spn.blocked.filter fun r => r.ofJob j } }

/-- A job that resumes draws afresh for them (R419). -/
def Mdl.unparkRequests (s : Mdl) (j : Nat) : Mdl :=
  let mine := s.spn.parked.filter fun r => r.ofJob j
  if mine.isEmpty then s
  else { s with spn := { s.spn with parked := s.spn.parked.filter (fun r => !r.ofJob j), blocked := s.spn.blocked ++ mine } }.tryBlocked

/-- Is compute admission closed: by a chart load that quiesces (R145), or by a sanitize (R598)? -/
def Mdl.admissionClosed (s : Mdl) : Bool := s.cht.closed || s.host.sanitize.isSome

/-- How a step ended, for R393 and R394: one interrupted by a sanitize, with no chart load under way, has failed. -/
def Mdl.stepStatus (s : Mdl) (st : Status) : Status := if st = .commandInterrupted ∧ s.cht.closed = false then .sanitizeInProgress else st

/-- An execution ends with a status: semaphores, channels, locks, completion (R591). A slot that it lets go may make another job ready (R409). -/
def Mdl.finishJob (s : Mdl) (j : Nat) (x : Job) (st : Status) : Mdl :=
  let s := ((s.leaveClusters j).forceRelease j).dropRequests j
  let s := s.endChannels x (st == .success)
  let s := match x.cid with
    | some (cid, ctl) =>
      let s : Mdl := { s with host := { s.host with locks := s.host.locks.filter fun l => !(l.cid == cid && l.ctl == ctl) } }
      if x.discard then s
      else if st = Status.success then s.complete cid ctl .success (min x.charged 0xFFFFFFFF)
      else s.emit (.completion cid ctl st 0 0 (x.faultCode + x.pageKind * 2 ^ 8))
    | none => s
  let s := match x.catalogue with
    | some n => s.catBatchEnd n j
    | none => s
  let s := match x.group with
    | some g =>
      let q := Table.get GroupSt.init s.sch.groups g
      { s with sch := { s.sch with groups := Table.set .init s.sch.groups g { q with stepJob := none, stepEnd := some (s.stepStatus st) } } }.setReg
        (Reg.SQT_GRP_STATUS_STEP_RUNNING g) 0
    | none => s
  let s := (s.setJob j none).showBacklog x.cls
  if x.outCh.isSome || x.inCh.isSome then s.checkPreempt else s

/-- Is all of a job's work over: each cluster is done with it, or has no macro-operation of it left? -/
def Mdl.workOver (s : Mdl) (x : Job) : Bool := x.work.all fun w => match w.state with
  | .done => true
  | .running k => let y := s.cluster (k / 26) (k % 26); y.cur.isNone && y.queue.isEmpty
  | _ => false

/-- JOB_END: an execution whose work is done, or that has an ending status, ends once its Limuc counts are equal (R591,
R637). -/
def Mdl.jobEnd (s : Mdl) (j : Nat) : Mdl :=
  match s.job j with
  | none => s
  | some x =>
    if x.issued ≠ x.completed then s
    else match x.status with
      | some st => s.finishJob j x st
      | none =>
        let ended := match x.catalogue with
          | some n => !((s.cat n).sweeps.any fun w => w.job == j) && ((s.cat n).batch j).all (·.left == 0)
          | none => s.workOver x
        let begun := x.started || (x.catalogue.isNone && x.work.isEmpty)
        if begun && ended then s.finishJob j x .success else s

/-- An execution ends at once with a status. -/
def Mdl.abortJob (s : Mdl) (j : Nat) (st : Status) : Mdl :=
  match s.job j with
  | none => s
  | some x => s.finishJob j x (x.status.getD st)

/-- A channel breaks (Table 7-7): executions that wait for it end with a status. -/
def Mdl.breakChannelWith (s : Mdl) (n : Nat) (st : Status) : Mdl :=
  let s := s.breakChannel n
  s.jobList.foldl (fun s p =>
    if !p.2.started && (p.2.outCh == some n || p.2.inCh == some n) then s.abortJob p.1 st else s) s

/-- A channel that its new fields place on a die or at a peer that is lost breaks, once its legacy group is whole (R168, Table 7-7). -/
def Mdl.breakLost (s : Mdl) (n : Nat) : Mdl :=
  if !s.achOpen n then s
  else
    let gone := fun (f : Nat → Fld) => (s.logDies[s.reg (f n)]?).all s.svc.retiredDie
    if gone Reg.TIR_ACH_CFG_LOCAL_DIE || (s.achInside n && gone Reg.TIR_ACH_CFG_PEER_DIE) then s.breakChannelWith n .computeDegraded
    else if !s.achInside n && s.peerLost (s.reg (Reg.TIR_ACH_CFG_PEER_MODULE n)) then s.breakChannelWith n .spanPeerUnreachable
    else s

/-- Channels on a logical die that is no longer in service, and channels to it inside the module (R371, Table 7-7). -/
def Mdl.breakDieChannels (s : Mdl) (lost : Nat → Bool) : Mdl :=
  (List.range 64).foldl (fun s n =>
    if s.achOpen n && s.mixed (0x0A80 + n) then s.beginHold (0x0A80 + n) (.lost n)
    else if s.achOpen n && (lost (s.reg (Reg.TIR_ACH_CFG_LOCAL_DIE n)) || (s.achInside n && lost (s.reg (Reg.TIR_ACH_CFG_PEER_DIE n)))) then
      s.breakChannelWith n .computeDegraded
    else s) s

/-- Channels to a peer module that is lost (Table 7-7). -/
def Mdl.breakPeerChannels (s : Mdl) (m : Nat) : Mdl :=
  (List.range 64).foldl (fun s n =>
    if s.achOpen n && s.mixed (0x0A80 + n) then s.beginHold (0x0A80 + n) (.lost n)
    else if s.achOpen n && !s.achInside n && s.reg (Reg.TIR_ACH_CFG_PEER_MODULE n) == m then s.breakChannelWith n .spanPeerUnreachable
    else s) s

/-! ### Dispatch (R404, R405, R414, R717) -/

/-- Does the chart in force hold every cluster a job names (R717)? -/
def Mdl.clustersOk (s : Mdl) (x : Job) : Bool := x.work.all fun w => (s.physicalOf w.cluster).isSome

/-- The ending status that the tests at dispatch give (R717). -/
def Mdl.dispatchTest (s : Mdl) (x : Job) : Option Status :=
  if x.started then none
  else if x.group.isSome ∨ x.chartGen ≠ s.cht.generation then
    if s.degraded then some .computeDegraded else if s.clustersOk x then none else some .planInvalid
  else none

/-- Bind an execution to its channel slots (Table 7-7), whose indexes follow its parameter block: one byte each, that of the output channel before that
of the input channel (R404; where in the block they lie is DESIGN CHOICE, assumption log entry 59). -/
def Mdl.bindChannels (s : Mdl) (j : Nat) (x : Job) : Mdl :=
  let r : Job × Mdl := match x.outCh, x.outSlot with
    | some n, none => match s.achFree n with
      | some i => ({ x with outSlot := some i, params := x.params ++ leBytes 1 i },
          (s.setSlot n i .filling).setReg (Reg.TIR_ACH_STATUS_NEXT n) ((i + 1) % max 1 (s.ach n).slots.length))
      | none => (x, s)
    | _, _ => (x, s)
  let x := r.1
  let s := r.2
  let r : Job × Mdl := match x.inCh, x.inSlot with
    | some n, none => match s.achReady n with
      | some i =>
        let s := s.setSlot n i .consuming
        let c := s.ach n
        let next := (i + 1) % max 1 c.slots.length
        let s := s.setAch n { c with take := next }
        ({ x with inSlot := some i, params := x.params ++ leBytes 1 i }, if s.reg (Reg.TIR_ACH_CFG_DIR n) = 1 then s.setReg (Reg.TIR_ACH_STATUS_NEXT n) next else s)
      | none => (x, s)
    | _, _ => (x, s)
  r.2.setJob j (some r.1)

/-- Replace a job's i-th work. -/
def Job.setWork (x : Job) (i : Nat) (f : ClusterWork → ClusterWork) : Job :=
  { x with work := x.work.zipIdx.map fun w => if w.2 = i then f w.1 else w.1 }

/-- May a cluster take a job now? -/
def Mdl.clusterFree (s : Mdl) (d c : Nat) : Bool :=
  let x := s.cluster d c
  s.clusterOn d c && s.domainOn (6 * d + quadrant c) && x.cur.isNone && x.queue.isEmpty && x.job.isNone && x.saving.isNone && !x.held && !x.quiesce
    && !s.admissionClosed && s.svc.loading != some (d, c)

/-- The context slot of a job's i-th cluster (R411). -/
def Job.contextSlot (x : Job) (i : Nat) : Option Nat := x.context.map fun a => a.1 + i * a.2

/-- A saved core's partitions return from its save area, or from the context slot at `from_`, to the partitions of the same numbers, and its
control engine's registers with them (R275, R278); its next pass loads its weights again (R277). -/
def Mdl.restoreCore (s : Mdl) (d c k : Nat) (ps : List Part) (v : SavedCore) (bytes : List Byte) : Mdl :=
  let y := s.core d c k
  let s := s.setCore d c k { y with ce := v.ce, reload := true, saveOwner := if v.inArea then none else y.saveOwner }
  (v.parts.foldl (fun (q : Mdl × List Byte) i =>
    let p := ps.getD i.1 ⟨0, 0, 0⟩
    (q.1.platesWrite d c k (4096 * p.base) (q.2.take (min i.2 (4096 * p.size))), q.2.drop i.2)) (s, bytes)).1

/-- Bytes of a saved core's partitions. -/
def SavedCore.bytes (v : SavedCore) : Nat := v.parts.foldl (fun n p => n + p.2) 0

/-- A job's work enters a cluster's queue (R405); a resumed context takes its macro-operation in progress, its chain and its cores' partitions
with it (R414, R277). While its context's pages are on their way, nothing else happens; a page fault of the restore ends the job (R328). -/
def Mdl.placeJob (s : Mdl) (d c j : Nat) : Mdl :=
  match s.job j with
  | none => s
  | some x =>
    match (s.workFor d c x).bind fun i => (x.work[i]?).map fun w => (i, w) with
    | none => s
    | some (i, w) =>
      let y := s.cluster d c
      let cores := s.logCores d c
      let before := s
      let s := s.setJob j (some { (x.setWork i fun w => { w with state := .running (clusterKey d c), cur := none, chain := none, cores := [] }) with started := true })
      let cur := w.cur.map fun m => { m with entry := { m.entry with seq := y.issued + 1 } }
      let s := s.putCluster d c { y with
        job := some j, acct := x.acct, cur := cur, issued := y.issued + cur.toList.length, chain := w.chain, queue := w.macros.map fun m => ⟨m, j, x.acct, 0⟩ }
      let inSlot := w.cores.foldl (fun n v => if v.inArea then n else n + v.bytes) 0
      let who : Accessor := ⟨some d, some j, none, s.reg (Reg.SCH_CLASS_TRAFFIC x.cls), .job j⟩
      let ended := fun (f : PageFault) (addr : Nat) => (s.recordPage f x.acct addr).endMacro d c f.status 0 f.kind
      match s.loadBytes who x.acct ((x.contextSlot i).getD 0 + 4096) inSlot with
      | .error (.fault f addr) => ended f addr
      | .error (.wait f) => (before.beginWait who x.acct f).getD (ended .quota f.addr)
      | .ok (l, s) => ((w.cores.zipIdx).foldl (fun (q : Mdl × List Byte) v =>
          let k := cores.getD v.2 0
          let bytes := if v.1.inArea then (List.range v.1.bytes).map fun i => q.1.partByte d c k 7 i else q.2.take v.1.bytes
          (q.1.restoreCore d c k (q.1.partsOf d c v.2) v.1 bytes, if v.1.inArea then q.2 else q.2.drop v.1.bytes)) (s.dropLines (· == .job j), l)).1.unparkRequests j

/-- JOB_DISPATCH: a free cluster takes the ready job of highest effective balance (R405). -/
def Mdl.dispatch (s : Mdl) (d c : Nat) : Mdl :=
  let s := s.holdUnbound
  if !s.clusterFree d c then s
  else match s.bestJob d c with
    | none => s
    | some (j, x) =>
      match s.dispatchTest x with
      | some st => s.abortJob j st
      | none => (s.bindChannels j x).placeJob d c j

/-- Engine time of a cluster is charged to its job (R408). -/
def Mdl.charge (s : Mdl) (d c us : Nat) : Mdl :=
  match (s.cluster d c).job with
  | none => s
  | some j =>
    match s.job j with
    | none => s
    | some x =>
      let s := s.setJob j (some { x with charged := x.charged + us })
      let s := s.setBalance x.acct (s.balance x.acct - 256 * us)
      let s := { s with sch := { s.sch with times := Table.modify 0 s.sch.times x.acct (fun t => (t + 256 * us) % 2 ^ 64) } }
      s.showBacklog x.cls

/-- Does a search batch still need a cluster: until the Finder has run, while a sweep is planned there, and while its GRAPH queries run there? -/
def Mdl.batchNeeds (s : Mdl) (j d c : Nat) : Bool := match ((s.job j).bind (·.catalogue)).map s.cat with
  | some y => match y.batch j with
    | some t => t.found.isNone || t.places.contains (d, c) || y.sweeps.any fun w => w.job == j && w.d == d && w.c == c
    | none => false
  | none => false

/-- The macro-operations of a job on a cluster are all done (R405, R591). -/
def Mdl.workDone (s : Mdl) (d c : Nat) : Mdl :=
  let y := s.cluster d c
  match y.job with
  | some j =>
    if y.cur.isNone && y.queue.isEmpty && !s.batchNeeds j d c then
      let s := match (s.job j).bind fun x => (x.workOn d c).map fun i => (x, i) with
        | some (x, i) => s.setJob j (some (x.setWork i fun w => { w with state := .done, macros := [] }))
        | none => s
      s.putCluster d c { y with job := none, chain := none, preempt := false, preemptBy := none }
    else s
  | none => s

/-! ### Admission, and pre-emption (R402, R409 to R413) -/

/-- Admit a job: the lowest free number (DESIGN CHOICE, assumption log entry 17), in admission order (R402). It may be ready, and
pre-empt (R409). -/
def Mdl.admitJob (s : Mdl) (x : Job) : Option (Nat × Mdl) :=
  if 4096 ≤ s.sch.jobs.length then none
  else
    let used := s.sch.jobs.map (·.1)
    let j := firstNotIn used (used.length + 1) 0
    let s := s.setJob j (some { x with order := s.sch.admitted, chartGen := s.cht.generation })
    some (j, (({ s with sch := { s.sch with admitted := s.sch.admitted + 1 } }).showBacklog x.cls).checkPreempt)

/-- Classes lose their JOB window: their running jobs are pre-empted (R409). -/
def Mdl.windowLost (s : Mdl) (lost : Nat → Bool) : Mdl :=
  s.clusters.foldl (fun s p =>
    match p.2.job.bind s.job with
    | some x => if lost x.cls then s.requestPreempt (p.1 / 26) (p.1 % 26) none else s
    | none => s) s

/-- MAX_DEFER has passed since the request on a cluster (R412). A request for the loss of a JOB window, or one whose requester has ended, has no
balance to pass on: nothing is inherited, and nothing counted (DESIGN CHOICE, assumption log entry 59). -/
def Mdl.deferExpiry (s : Mdl) (d c : Nat) : Mdl :=
  let y := s.cluster d c
  if !y.preempt then s
  else match y.job with
    | none => s
    | some j =>
      if (s.semsOf j).isEmpty then s.countSat Reg.SCH_PREEMPT_DEFER_LONG
      else match y.preemptBy.bind (fun k => (s.job k).map fun x => s.effBalance k x), s.job j with
        | some v, some x => (s.countSat Reg.SCH_PREEMPT_INHERIT).setJob j (some { x with inherited := v :: x.inherited })
        | _, _ => s

/-- An activation slot has arrived, or a credit has: jobs may have become ready (R409). -/
def Mdl.actArrived (s : Mdl) (n slot : Nat) : Mdl := (s.slotArrived n slot).checkPreempt
def Mdl.actCredit (s : Mdl) (n slot : Nat) : Mdl := (s.slotCredit n slot).checkPreempt

end Sys2Proof.Machine
end

