-- ==== Sys2Proof/Machine/Hierarchy.lean ====
section
/-! DEFINITION. The six levels: maps of physical to logical numbers, faults and their escalation, bring-ins, power domains, HBM
and SRAM errors (R13 to R59, R155 to R162, R489 to R496, R687, R718). -/
namespace Sys2Proof.Machine

/-! ### Maps (R29 to R33, R160) -/

/-- Switch domains on or off at once. -/
def Mdl.setDomain (s : Mdl) (n : Nat) (on : Bool) : Mdl :=
  let m := s.reg Reg.PWR_DOMAIN_STATUS_ON
  if bit m n == on then s else s.setReg Reg.PWR_DOMAIN_STATUS_ON (if on then m + 2 ^ n else m - 2 ^ n)

/-- The lanes a core bypasses when these lanes are retired: those below the place of logical lane 63 (R29, R212). -/
def bypassOf (retired : List Nat) : List Nat :=
  let top := (mapUnits 66 64 retired.contains).getLastD 63
  retired.filter (· < top)

/-- Show the lanes a core bypasses and its retired lanes (Table 4-12); lanes that wait for an empty row are left out (R210). -/
def Mdl.showLanes (s : Mdl) (d c k : Nat) : Mdl :=
  let gone := s.svc.retiredLanes d c k
  let byp := bypassOf (gone.filter fun l => !(s.core d c k).waiting.contains l)
  s.setRegs [(Reg.SEQ_CORE_STATUS_LANES_RETIRED d c k, min 2 gone.length), (Reg.SEQ_CORE_STATUS_SPARE_IN_USE d c k, spareInUse byp),
    (Reg.SEQ_CORE_STATUS_BYP_A d c k, byp.getD 0 0), (Reg.SEQ_CORE_STATUS_BYP_A_V d c k, b2n (decide (0 < byp.length))),
    (Reg.SEQ_CORE_STATUS_BYP_B d c k, byp.getD 1 0), (Reg.SEQ_CORE_STATUS_BYP_B_V d c k, b2n (decide (1 < byp.length)))]

/-- Show a core's STATE when no pass runs on it (Table 4-13). -/
def Mdl.showCore (s : Mdl) (d c k : Nat) : Mdl :=
  let st := if s.svc.retiredCore d c k || s.svc.retiredCluster d c || s.svc.retiredDie d then 5
    else if !s.domainOn (6 * d + quadrant c) then 6
    else if !(s.clusterOn d c && (s.logCores d c).contains k) then 4
    else 0
  let now := s.reg (Reg.SEQ_CORE_STATUS_STATE d c k)
  if st = 0 ∧ (now = 1 ∨ now = 2 ∨ now = 3) then s else s.setReg (Reg.SEQ_CORE_STATUS_STATE d c k) st

def Mdl.showCores (s : Mdl) (d : Nat) : Mdl :=
  (List.range 26).foldl (fun s c => (List.range 9).foldl (fun s k => s.showCore d c k) s) s

/-- The PERSONALITY a core takes from the chart (Table 3-6), by its logical numbers. -/
def Mdl.showPersonality (s : Mdl) (d c : Nat) : Mdl :=
  match s.cht.chart, s.logOfDie d, s.logOfCluster d c with
  | some ch, some ld, some lc =>
    let p := ch.personality ld lc
    ((s.logCores d c).zipIdx).foldl (fun (s : Mdl) (q : Nat × Nat) =>
      let m := p.cores.getD q.2 (15, 0)
      s.setRegs [(Reg.SEQ_CORE_STATUS_MODES d c q.1, m.1), (Reg.SEQ_CORE_STATUS_DEFAULT_MODE d c q.1, m.2),
        (Reg.SEQ_CORE_STATUS_RAMP_LIMIT d c q.1, p.ramp), (Reg.SEQ_CORE_STATUS_EYE_EN d c q.1, b2n p.eye)]) s
  | _, _, _ => s

/-- The Eyepiece of a cluster follows its PERSONALITY's EYE_EN (Table 3-6). -/
def Mdl.showEye (s : Mdl) (d c : Nat) : Mdl :=
  s.setReg (Reg.EYE_STATUS_ENABLED d c) (s.reg (Reg.SEQ_CORE_STATUS_EYE_EN d c ((s.logCores d c).getD 0 0)))

/-- Cores of a cluster that are not retired, in order: the first eight carry logical cores (R29, R31). -/
def SvcSt.coresFor (v : SvcSt) (d c : Nat) : List Nat := mapUnits 9 8 (v.retiredCore d c)
def SvcSt.clustersFor (v : SvcSt) (d : Nat) : List Nat := mapUnits 26 25 (v.retiredCluster d)

/-- Record a bring-in once, before the spare carries work, and raise its total (R50, Table 14-10); `retired` is the unit it stands in
for. -/
def Mdl.bringInRecord (s : Mdl) (u : UnitAddr) (retired : Nat) : Mdl :=
  if s.svc.broughtIn.contains u then s
  else
    let data := u.level.code + u.die * 2 ^ 3 + u.cluster * 2 ^ 5 + u.core * 2 ^ 10 + u.lane * 2 ^ 14 + retired * 2 ^ 21
    let t := match u.level with
      | .engine => Total.lanes
      | .core => .cores
      | _ => .clusters
    ({ s with svc := { s.svc with broughtIn := s.svc.broughtIn ++ [u] } }.logBook 0x06 data).total t

/-- The spare of a map of `n` units, with the retired unit it stands in for, when the map uses it. -/
def spareOf (n : Nat) (map : List Nat) : Option (Nat × Nat) :=
  if map.contains n then ((List.range n).find? fun u => !map.contains u).map fun b => (n, b) else none

/-- What the spare of a core starts with: its own SRAM, and nothing of the core it stands in for (Table 1-8). -/
def CoreSt.blank (x : CoreSt) : CoreSt := { CoreSt.init with waiting := x.waiting, errors := x.errors, segment := x.segment, tested := x.tested, fill := x.fill }

/-- The place whose undefined contents a unit holds, when the unit of place `key` moves (R34). -/
def movedFrom (origin key : Nat) : Nat := if origin = 0 then key + 1 else origin

/-- What the core of place `key` holds, at a new place: lanes that wait for bypass, words that wait for a test and self-test results stay with the
silicon. -/
def CoreSt.at (x place : CoreSt) (key : Nat) : CoreSt :=
  { x with waiting := place.waiting, errors := place.errors, segment := place.segment, tested := place.tested, origin := movedFrom x.origin key }

/-- A cluster whose store is gone (Table 1-8): the work that waits for its spare stays. -/
def ClusterSt.blank (y place : ClusterSt) : ClusterSt :=
  { y with cur := none, early := [], chain := none, store := [], fill := place.fill, origin := place.origin, saving := none }

/-- Glue segments that wait for a semaphore (R417) move with their cores, all at once: `l` pairs the old places with the new. -/
def Mdl.moveWaits (s : Mdl) (l : List (Nat × Nat)) : Mdl :=
  (s.sch.sems.map (·.1)).foldl (fun s n =>
    let x := s.sem n
    if x.waiters.any fun w => (l.lookup w.core).any (· != w.core) then
      s.setSem n { x with waiters := x.waiters.map fun w => { w with core := (l.lookup w.core).getD w.core } }
    else s) s

/-- The work of jobs, and the sweeps planned, move with their clusters, all at once: `l` pairs the old places with the new (R34, R157). -/
def Mdl.moveWork (s : Mdl) (l : List (Nat × Nat)) : Mdl :=
  let place := fun k => (l.lookup k).getD k
  let at_ := fun d c => (place (clusterKey d c) / 26, place (clusterKey d c) % 26)
  { s with
    cats := s.cats.map fun p => (p.1, { p.2 with
      sweeps := p.2.sweeps.map fun w => { w with d := (at_ w.d w.c).1, c := (at_ w.d w.c).2 }
      batches := p.2.batches.map fun b => { b with places := b.places.map fun q => at_ q.1 q.2 } })
    sch := { s.sch with jobs := s.sch.jobs.map fun p => (p.1, p.2.map fun x => { x with work := x.work.map fun w =>
      { w with state := match w.state with
        | .running k => .running (place k)
        | .saved k inArea => .saved (place k) inArea
        | t => t } }) } }

/-- What one cluster holds, under its new physical number, and its cores under theirs (R157, R161). What a retired cluster or a retired
core held is discarded (Table 1-8). -/
def Mdl.moveCluster (s : Mdl) (from_ : Mdl) (d old new : Nat) : Mdl :=
  let y := from_.cluster d old
  let lost := from_.svc.retiredCluster d old
  let s := s.setCluster d new (if lost then y.blank (from_.cluster d new) else if old = new then y else { y with origin := movedFrom y.origin (clusterKey d old) })
  ((from_.logCores d old).zip (s.logCores d new)).foldl (fun s p =>
    let place := from_.core d new p.2
    let x := from_.core d old p.1
    (s.setCore d new p.2 (if lost || from_.svc.retiredCore d old p.1 then place.blank
      else if (old, p.1) = (new, p.2) then x else x.at place (coreKey d old p.1))).showBanks d new p.2) s

/-- Set the maps of a die from the retirement list and move what its clusters and cores hold to their new physical places (R29, R157,
R160, R161): all at once, and a cluster whose place changed issues nothing until its own load is done (DEDUCED, assumption log entry 19). -/
def Mdl.mapDie (s : Mdl) (d : Nat) : Mdl :=
  let s0 := s
  let new := s.svc.clustersFor d
  let old := s.logClusters d
  let s := match spareOf 25 new with
    | some (a, b) => s.bringInRecord ⟨.cluster, d, a, 0, 0⟩ b
    | none => s
  let s := s.setRegs [(Reg.SVC_CLU_MAP_CLU_INSERVICE d, maskOf new),
    (Reg.SVC_CLU_MAP_CLU_RETIRED d, maskOf ((List.range 26).filter (s.svc.retiredCluster d)))]
  let s := (List.range 26).foldl (fun (s : Mdl) c =>
    let cores := if new.contains c then s.svc.coresFor d c else []
    let s := match spareOf 8 cores with
      | some (a, b) => s.bringInRecord ⟨.core, d, c, a, 0⟩ b
      | none => s
    s.setRegs [(Reg.SVC_CORE_MAP_CORE_INSERVICE d c, maskOf cores),
      (Reg.SVC_CORE_MAP_CORE_RETIRED d c, maskOf ((List.range 9).filter (s.svc.retiredCore d c)))]) s
  let moved := (old.zip new).filter fun p => p.1 != p.2 || s0.logCores d p.1 != s.logCores d p.2
  let s := moved.foldl (fun s p => s.setCluster d p.1 .init) s
  let s := moved.foldl (fun s p => s.moveCluster s0 d p.1 p.2) s
  let s := s.moveWaits (moved.flatMap fun p => (s0.logCores d p.1).zip (s.logCores d p.2) |>.map fun q => (coreKey d p.1 q.1, coreKey d p.2 q.2))
  let s := s.moveWork (moved.map fun p => (clusterKey d p.1, clusterKey d p.2))
  moved.foldl (fun s p => s.putCluster d p.2 { s.cluster d p.2 with held := true }) s

/-- A die that carries no logical die has nothing in service; its retired units show (R43, R160). -/
def Mdl.unmapDie (s : Mdl) (d : Nat) : Mdl :=
  let s := s.setRegs [(Reg.SVC_CLU_MAP_CLU_INSERVICE d, 0),
    (Reg.SVC_CLU_MAP_CLU_RETIRED d, maskOf ((List.range 26).filter (s.svc.retiredCluster d)))]
  (List.range 26).foldl (fun (s : Mdl) c => s.setRegs [(Reg.SVC_CORE_MAP_CORE_INSERVICE d c, 0),
    (Reg.SVC_CORE_MAP_CORE_RETIRED d c, maskOf ((List.range 9).filter (s.svc.retiredCore d c)))]) s

/-- Dies in service: the first `n` good dies take the logical numbers from 0 (R29, R32). -/
def Mdl.mapDies (s : Mdl) (n : Nat) : Mdl :=
  let l := s.goodDies.take n
  s.setRegs [(Reg.SVC_DIE_MAP_DIE_INSERVICE, maskOf l), (Reg.SVC_DIE_MAP_ACTIVE_DIES, l.length),
    (Reg.SVC_DIE_MAP_LOG_OF_PHYS, (l.zipIdx).foldl (fun a p => a + p.2 * 2 ^ (2 * p.1)) 0)]

/-- Bypass every retired lane of a core, and record the spare lanes that it brings in (R50, R160), each for a lane that carried work: one that
waited for this bypass first. A spare lane that is retired before it has served stands in for none. -/
def Mdl.mapLanes (s : Mdl) (d c k : Nat) : Mdl :=
  let x := s.core d c k
  let retired := s.svc.retiredLanes d c k
  let byp := bypassOf retired
  let served := fun l => decide (l < 64) || s.svc.broughtIn.contains ⟨.engine, d, c, k, l⟩
  let fresh := ((mapUnits 66 64 byp.contains).filter fun l => decide (64 ≤ l)).filter fun l => !s.svc.broughtIn.contains ⟨.engine, d, c, k, l⟩
  let for_ := (byp.filter fun l => x.waiting.contains l && served l) ++ (byp.filter fun l => !x.waiting.contains l && served l)
  let s := (fresh.zip for_).foldl (fun (s : Mdl) p => s.bringInRecord ⟨.engine, d, c, k, p.1⟩ p.2) s
  (s.setCore d c k { x with waiting := [] }).showLanes d c k

/-- Apply R29 at every level for a chart of `n` dies, or for memory only (R160, R153). -/
def Mdl.mapAll (s : Mdl) (n : Nat) : Mdl :=
  let s := s.mapDies n
  let s := ((List.range 4).filter fun d => !s.logDies.contains d).foldl (fun s d => (s.unmapDie d).showCores d) s
  s.logDies.foldl (fun s d =>
    let s := s.mapDie d
    let s := (List.range 26).foldl (fun s c => (List.range 9).foldl (fun s k =>
      if (s.svc.retiredLanes d c k).isEmpty then s else s.mapLanes d c k) s) s
    s.showCores d) s

/-! ### Ending work (R41, R43) -/


/-- Does a COPY read or write the plates of a logical core (Table 5-4)? -/
def Macro.copiesPlates (x : Macro) (l : Nat) : Bool := bits x.param 52 4 == l && (bits x.param 48 2 == 2 || bits x.param 50 2 == 2)

/-- Is a macro-operation in flight on a logical core: its walk uses the core, its glue segment runs there (R221, R222), or it copies its plates? -/
def Macro.onCore (x : Macro) (l : Nat) : Bool := x.cores.contains l || x.glue != 0 || (x.op == 8 && x.copiesPlates l)

/-- End with Compute Hardware Fault what a cluster has in flight that meets a condition (R41, R211, R215). -/
def Mdl.endWhere (s : Mdl) (d c : Nat) (p : MacroRun → Bool) : Mdl :=
  if (s.cluster d c).running.any p then s.endRuns d c .computeHardwareFault 0 0 p else s

/-- The cluster issues nothing until its spare is in service (R41). -/
def Mdl.holdCluster (s : Mdl) (d c : Nat) : Mdl := s.putCluster d c { s.cluster d c with held := true }

/-- The logical number of a physical core in its cluster. -/
def Mdl.logOfCore (s : Mdl) (d c k : Nat) : Option Nat := (s.logCores d c).findIdx? (· == k)

/-- End what is in flight on a physical core. -/
def Mdl.endOnCore (s : Mdl) (d c k : Nat) : Mdl :=
  match s.logOfCore d c k with
  | some l => s.endWhere d c fun m => (Macro.of m.entry.desc).onCore l || s.inRow d c k m.entry.seq
  | none => s

/-- End what has a pass in a core's row (R211). -/
def Mdl.endInRow (s : Mdl) (d c k : Nat) : Mdl := s.endWhere d c fun m => s.inRow d c k m.entry.seq

/-- Jobs whose context lies in the save areas of cores that are lost take the status Compute Hardware Fault: what they would resume from is gone
(Table 1-8; DESIGN CHOICE, assumption log entry 53). -/
def Mdl.failSaved (s : Mdl) (d c : Nat) (cores : List Nat) : Mdl :=
  cores.foldl (fun s k => match (s.core d c k).saveOwner with
    | some j => s.failJob j .computeHardwareFault 0 0
    | none => s) s

/-- Every job with work left on a logical die takes a status (R43). -/
def Mdl.failDieJobs (s : Mdl) (ld : Nat) (st : Status) : Mdl :=
  s.jobList.foldl (fun s p => if p.2.work.any fun w => w.cluster / 25 == ld && w.state != .done then s.failJob p.1 st 0 0 else s) s

/-- End all work on a physical die. -/
def Mdl.endDie (s : Mdl) (d : Nat) (st : Status) : Mdl :=
  let s := (List.range 26).foldl (fun s c =>
    let x := s.cluster d c
    if x.cur.isSome || x.job.isSome then s.endMacro d c st 0 0 else s) s
  match s.logOfDie d with
  | some ld => s.failDieJobs ld st
  | none => s

/-! ### Faults (R37 to R52, R707) -/

def unitLane (d c k l : Nat) : UnitAddr := ⟨.engine, d, c, k, l⟩
def unitCore (d c k : Nat) : UnitAddr := ⟨.core, d, c, k, 0⟩
def unitCluster (d c : Nat) : UnitAddr := ⟨.cluster, d, c, 0, 0⟩
def unitDie (d : Nat) : UnitAddr := ⟨.die, d, 0, 0, 0⟩
def unitPackage : UnitAddr := ⟨.package, 0, 0, 0, 0⟩

/-- Enter a unit in the retirement list. -/
def Mdl.retire (s : Mdl) (u : UnitAddr) : Mdl :=
  if s.svc.retired.contains u then s else { s with svc := { s.svc with retired := s.svc.retired ++ [u] } }

/-- The record of the level acted on, and the escalated ones with ACTION 0x06 (R707). -/
def Mdl.recordAll (s : Mdl) (u : UnitAddr) (kind action : Nat) (lower : List UnitAddr) : Mdl :=
  let s := s.hierRecord u kind action
  let s : Mdl := { s with svc := { s.svc with epochFaults := u :: s.svc.epochFaults } }
  lower.foldl (fun s v => s.hierRecord v kind 6) s

/-- Schedule bring-ins of logical clusters of a die (R41, R161). -/
def Mdl.addBringIns (s : Mdl) (ld : Nat) (cs : List Nat) : Mdl :=
  { s with svc := { s.svc with bringIns := s.svc.bringIns ++ (cs.map fun c => (ld, c)).filter fun p => !s.svc.bringIns.contains p } }

/-- Drop pending partial loads of a logical die (R46, R162). -/
def Mdl.dropBringIns (s : Mdl) (ld : Nat) : Mdl :=
  { s with
    svc := { s.svc with
      bringIns := s.svc.bringIns.filter fun p => p.1 != ld
      loading := match s.svc.loading, s.logDies[ld]? with
        | some l, some d => if l.1 = d then none else some l
        | l, _ => l }
    cht := { s.cht with partials := s.cht.partials.filter fun p => p.1 != ld } }

/-- Every partial load, under way or pending, is dropped (R44, R46). -/
def Mdl.dropLoads (s : Mdl) : Mdl :=
  { s with svc := { s.svc with bringIns := [], loading := none }, cht := { s.cht with partials := [] } }

/-- A CHT_CMD command ends with an ERR code (Table 3-19). -/
def Mdl.chartDone (s : Mdl) (e : ChartErr) : Mdl :=
  s.setRegs [(Reg.CHT_STATUS_DONE, 1), (Reg.CHT_STATUS_ERR, e.err), (Reg.CHT_STATUS_ERR_FRAME, e.frame),
    (Reg.CHT_ERR_DETAIL_OFFSET, e.offset), (Reg.CHT_ERR_DETAIL_SUBCODE, e.sub)]

def Mdl.chartEnd (s : Mdl) (err : Nat) : Mdl := s.chartDone ⟨err, 0, 0, 0⟩

/-- A command ends and no other runs; a partial load that the host asked for is a command that still does (R149). -/
def Mdl.chartStop (s : Mdl) (e : ChartErr) : Mdl :=
  (s.chartDone e).setRegs [(Reg.CHT_STATUS_BUSY, b2n !s.cht.partials.isEmpty), (Reg.CHT_STATUS_STAGE, 0)]

def Mdl.chartIdle (s : Mdl) (err : Nat) : Mdl := s.chartStop ⟨err, 0, 0, 0⟩

/-- The full load under way fails for want of dies (R44, error 0x09): compute opens again under the chart in force, and at start-up the built-in
chart takes its place (R151). -/
def Mdl.loadFails (s : Mdl) : Mdl :=
  if s.cht.next.isNone then s
  else if s.cht.chart.isNone && !s.flag Reg.CHT_STATUS_BUILTIN then
    ({ s with cht := { s.cht with next := none, nextBuiltin := true } }.logBook 0x0F 3).setReg Reg.CHT_STATUS_ERR 0x10
  else
    let s : Mdl := { s with cht := { s.cht with next := none, closed := false } }
    let s := s.clusters.foldl (fun (s : Mdl) p => s.setCluster (p.1 / 26) (p.1 % 26) { s.cluster (p.1 / 26) (p.1 % 26) with quiesce := false }) s
    s.chartIdle 9

/-- Fewer than three dies are left (R44): the survivors serve memory only and are numbered again; nothing is left to load, and no switching of a
domain of theirs goes on. A survivor that the chart left off is switched on for its memory. -/
def Mdl.memoryFallback (s : Mdl) : Mdl :=
  let s : Mdl := { s.dropLoads with svc := { s.dropLoads.svc with busy := s.svc.busy.filter fun b => decide (24 ≤ b.1) } }
  let s := s.loadFails
  let s := s.goodDies.foldl (fun s d =>
    let s := s.endDie d .computeDegraded
    let s := (List.range 5).foldl (fun s i => s.setDomain (6 * d + i) false) s
    (s.setDomain (6 * d + 5) true).showCores d) s
  let s := s.jobList.foldl (fun s p => s.failJob p.1 .computeDegraded 0 0) s
  let was := s.logDies.length
  let s := (s.mapAll s.goodDies.length).reserveSystem
  s.breakDieChannels fun ld => decide (s.logDies.length ≤ ld ∧ ld < was)

/-- Has the package failed in this epoch? What is found below it is recorded and not acted on (R46). -/
def Mdl.packageDown (s : Mdl) : Bool := s.svc.epochFaults.contains unitPackage

/-- A die fault (R43, R44, R370). -/
def Mdl.dieFault (s : Mdl) (d kind : Nat) (lower : List UnitAddr) : Mdl :=
  if s.svc.retiredDie d || s.packageDown then s.hierRecord (unitDie d) kind 0
  else
    let s := (s.recordAll (unitDie d) kind 4 lower).endDie d .computeHardwareFault
    let ld := s.logOfDie d
    let s := (s.retire (unitDie d)).total .diesLost
    let s := (List.range 6).foldl (fun s i => s.setDomain (6 * d + i) false) s
    let s : Mdl := { s with svc := { s.svc with busy := s.svc.busy.filter fun b => b.1 / 6 != d } }
    let s := match ld with
      | some n => s.dropBringIns n
      | none => s
    let s := (s.loseDiePages d).showCores d
    if s.goodDies.length < 3 then s.memoryFallback
    else match ld with
      | some n => s.breakDieChannels (· == n)
      | none => s

/-- A cluster fault (R37, R41, R48, R161): the spare comes in by partial loads, or the die fails. A load of the cluster ends, and is due again
for the spare. A fault of a cluster not in service is recorded with ACTION 0x03 (DESIGN CHOICE, assumption log entry 53). -/
def Mdl.clusterFault (s : Mdl) (d c kind : Nat) (lower : List UnitAddr) : Mdl :=
  if s.svc.retiredDie d || s.svc.retiredCluster d c || s.packageDown then s.hierRecord (unitCluster d c) kind 0
  else if ((List.range 26).filter (s.svc.retiredCluster d)).length ≥ 1 then
    s.dieFault d kind (unitCluster d c :: lower)
  else
    let used := s.clusterOn d c
    let s := s.recordAll (unitCluster d c) kind (if used then 2 else 3) lower
    let lc := s.logOfCluster d c
    let s := (s.endWhere d c fun _ => true).failSaved d c (List.range 9)
    let s : Mdl := { s with svc := { s.svc with loading := if s.svc.loading = some (d, c) then none else s.svc.loading } }
    let s := ((if used then s.holdCluster d c else s).retire (unitCluster d c)).setReg (Reg.SVC_CLU_MAP_CLU_RETIRED d)
      (maskOf ((List.range 26).filter fun i => i == c || s.svc.retiredCluster d i))
    match s.logOfDie d, lc with
    | some ld, some n => if s.memoryOnly then s else s.addBringIns ld ((List.range 25).drop n)
    | _, _ => s

/-- A core fault (R37, R41, R48, R161): what is in flight on the core ends, and the cluster waits for the spare. A fault of a core not in
service is recorded with ACTION 0x03 (DESIGN CHOICE, assumption log entry 53), one of its storage as Table 4-11 has it. -/
def Mdl.coreFault (s : Mdl) (d c k kind : Nat) (lower : List UnitAddr) : Mdl :=
  if s.svc.retiredDie d || s.svc.retiredCluster d c || s.svc.retiredCore d c k || s.packageDown then s.hierRecord (unitCore d c k) kind 0
  else if s.svc.loading = some (d, c) || ((List.range 9).filter (s.svc.retiredCore d c)).length ≥ 1 then
    s.clusterFault d c kind (unitCore d c k :: lower)
  else
    let used := s.clusterOn d c && (s.logCores d c).contains k
    let s := s.recordAll (unitCore d c k) kind (if used || kind == 2 || kind == 3 then 2 else 3) lower
    let s := if used then ((s.endOnCore d c k).failSaved d c [k]).holdCluster d c else s
    let s := (s.retire (unitCore d c k)).setReg (Reg.SVC_CORE_MAP_CORE_RETIRED d c)
      (maskOf ((List.range 9).filter fun i => i == k || s.svc.retiredCore d c i))
    match s.logOfDie d, s.logOfCluster d c with
    | some ld, some n => if used && !s.memoryOnly then s.addBringIns ld [n] else s
    | _, _ => s

/-- A lane fault (R37, R210, R211): a third retired lane in a row is a core fault. `inUse` ends what has a pass in the core's row. -/
def Mdl.laneFault (s : Mdl) (d c k l kind : Nat) (inUse : Bool) : Mdl :=
  if s.svc.retiredDie d || s.svc.retiredCluster d c || s.svc.retiredCore d c k || s.svc.retiredLane d c k l || s.packageDown then
    let s := s.hierRecord (unitLane d c k l) kind 0
    if inUse && (s.core d c k).waiting.contains l && !s.packageDown then s.endInRow d c k else s
  else if s.svc.loading = some (d, c) then s.clusterFault d c kind [unitLane d c k l]
  else if (s.svc.retiredLanes d c k).length ≥ 2 then s.coreFault d c k kind [unitLane d c k l]
  else
    let s := s.recordAll (unitLane d c k l) kind 1 []
    let s := if inUse then s.endInRow d c k else s
    let s := s.retire (unitLane d c k l)
    let x := s.core d c k
    (s.setCore d c k { x with waiting := x.waiting ++ [l] }).showLanes d c k

/-- LANE_BYPASS: the row is empty and no pass is due, and the waiting lanes are bypassed (R210, R212). -/
def Mdl.laneBypass (s : Mdl) (d c k : Nat) : Mdl :=
  let x := s.core d c k
  if x.waiting.isEmpty then s
  else
    let s := s.rowSettle d c k
    if s.rowEmpty d c k then s.mapLanes d c k else s

/-- Everything on the module but flash contents is lost with the package (Table 1-8): all work ends with Compute Hardware Fault, and cores,
clusters and HBM hold nothing that is kept. -/
def Mdl.discardAll (s : Mdl) : Mdl :=
  let s := s.logDies.foldl (fun s d => s.endDie d .computeHardwareFault) s
  let s := s.jobList.foldl (fun s p => s.failJob p.1 .computeHardwareFault 0 0) s
  let g := s.free + 1
  let s : Mdl := { s.dropLoads with free := g }
  let s : Mdl := { s with
    cores := (s.cores.map fun p => (p.1, { p.2.blank with fill := g })).filter fun p => p.2 != .init
    clusters := (s.clusters.map fun p => (p.1, { ClusterSt.init with hwFault := p.2.hwFault, fill := g })).filter fun p => p.2 != .init }
  (List.range 4).foldl (fun s d => s.loseDiePages d) s

/-- A package fault (R45, R46): controller fatal status, out of service; a paired twin is told when it can be (R658). -/
def Mdl.packageFault (s : Mdl) (kind : Nat) : Mdl :=
  if s.packageDown then s.hierRecord unitPackage kind 0
  else
    let s := s.recordAll unitPackage kind 5 []
    let s := if s.reg Reg.TWN_STATUS_STATE = 4 then s.twinCtrl 2 else s
    { s.discardAll with host := { s.discardAll.host with fatal := true } }.setReg Reg.SVC_STATUS_STAGE 5

/-- The standby service processor takes over (R45). -/
def Mdl.takeover (s : Mdl) : Mdl :=
  if s.flag Reg.SVC_STATUS_SP then s
  else (s.hierRecord unitPackage 0x0E 0).setReg Reg.SVC_STATUS_SP 1

/-- A hub link or ring link has failed: the module goes on degraded (R39). -/
def Mdl.linkFailure (s : Mdl) (n : Nat) : Mdl :=
  let s := s.hierRecord unitPackage 0x0B 3
  { s with svc := { s.svc with failedLinks := if s.svc.failedLinks.contains n then s.svc.failedLinks else s.svc.failedLinks ++ [n] } }

/-- A regulator phase fails on a rail (R40): the first one uses up the rail's redundancy, a further one is a fault of the level the rail
feeds; `feeds` is the compute die it feeds, if one. What is recorded of the first one is a package-level fault of KIND 0x0C with ACTION 0x03
(DESIGN CHOICE, assumption log entry 53). -/
def Mdl.phaseFault (s : Mdl) (rail : Nat) (feeds : Option Nat) : Mdl :=
  let s := s.total .phases
  if s.svc.weakRails.contains rail then
    match feeds with
    | some d => s.dieFault d 0x0C []
    | none => s.packageFault 0x0C
  else { s with svc := { s.svc with weakRails := s.svc.weakRails ++ [rail] } }.hierRecord unitPackage 0x0C 3

/-- A quadrant is switched on: what its clusters and cores held is gone, and their memories hold undefined contents, free values
(R688; assumption log entry 20). -/
def Mdl.clearQuadrant (s : Mdl) (d q : Nat) : Mdl :=
  let g := s.free + 1
  let s := { s with free := g }
  ((List.range 26).filter fun c => quadrant c == q).foldl (fun s c =>
    let y := s.cluster d c
    let s := s.setCluster d c { ClusterSt.init with held := y.held, hwFault := y.hwFault, fill := g }
    (List.range 9).foldl (fun s k =>
      let x := s.core d c k
      (s.setCore d c k { CoreSt.init with waiting := x.waiting, segment := x.segment, fill := g }).showBanks d c k) s) s

/-! ### Partial loads (R155 to R162) -/

/-- Is a full load quiescing, applying or waiting? -/
def Mdl.fullLoad (s : Mdl) : Bool := s.cht.next.isSome || s.cht.nextBuiltin

/-- The configuration flash die that is busy (R136). -/
def ChartOp.busyDie : ChartOp → Option Nat
  | .erase _ d => some d
  | .program _ d _ => some d
  | .verify _ _ => none

/-- PARTIAL_LOAD of a logical cluster at a boundary: due by a bring-in or a host request, one cluster at a time, bring-ins of a die in ascending
order (R47, R49, R155, R156, R161). The maps of the die take the retirement list, and the cluster issues nothing until the load is done. -/
def Mdl.partialLoad (s : Mdl) (ld lc : Nat) : Mdl :=
  let due := s.svc.bringIns.contains (ld, lc)
  let asked := s.cht.partials.contains (ld, lc)
  let first := s.svc.bringIns.all fun p => p.1 != ld || decide (lc ≤ p.2)
  if !(due || asked) || (due && !first) || s.svc.loading.isSome || s.fullLoad || s.memoryOnly then s
  else match s.logDies[ld]? with
    | none => s
    | some d =>
      let s := if due then s.mapDie d else s
      match (s.logClusters d)[lc]? with
      | none => s
      | some c =>
        let q := quadrant c
        let s := if s.domainOn (6 * d + q) then s else (s.clearQuadrant d q).setDomain (6 * d + q) true
        { s with svc := { s.svc with loading := some (d, c) } }

/-- Can a partial load read its frames now: on a configuration flash die that is not busy, whose copy is not bad (R136, R158)? -/
def Mdl.framesReadable (s : Mdl) (bad0 bad1 : Bool) : Bool :=
  let busy := s.cht.op.bind ChartOp.busyDie
  (!bad0 && busy != some 0) || (!bad1 && busy != some 1)

/-- PARTIAL_LOAD_DONE: the cluster's frames are applied, and it issues again (R157). While the one good copy is on the busy die the load waits
(R136). With both copies unreadable it fails, and its cluster is faulted (R158); Table 3-16 names no ERR for that, which is a free value. -/
def Mdl.partialDone (s : Mdl) (ld lc : Nat) (bad0 bad1 : Bool) : Mdl :=
  match s.logDies[ld]? with
  | none => s
  | some d =>
    match (s.logClusters d)[lc]? with
    | none => s
    | some c =>
      let failed := bad0 && bad1
      if s.svc.loading ≠ some (d, c) ∨ (¬ failed ∧ ¬ s.framesReadable bad0 bad1) then s
      else
        let asked := s.cht.partials.contains (ld, lc)
        let s : Mdl := { s with
          svc := { s.svc with loading := none, bringIns := s.svc.bringIns.filter (· != (ld, lc)) }
          cht := { s.cht with partials := s.cht.partials.filter (· != (ld, lc)) } }
        let r := if failed then s.fresh 5 else (0, s)
        let more := s.cht.op.isSome || s.fullLoad || !s.cht.partials.isEmpty
        let s := if asked then r.2.setRegs [(Reg.CHT_STATUS_DONE, 1), (Reg.CHT_STATUS_ERR, r.1), (Reg.CHT_STATUS_BUSY, b2n more)] else s
        if failed then s.clusterFault d c 6 []
        else
          let s := (s.showPersonality d c).showEye d c
          let s := (List.range 9).foldl (fun s k => s.showCore d c k) s
          (s.putCluster d c { s.cluster d c with held := false }).count Reg.CHT_COUNT_PARTIAL_LOADS

/-! ### Power domains (R53 to R59, R687, R718) -/

/-- Domains that hold work of a chart whose dies are the physical dies `dies` (R56, R59); `mem`: memory only. -/
def workDomains (v : SvcSt) (roles : List (Nat × Nat)) (span : SpanCfg) (dies : List Nat) (mem : Bool) : List Nat :=
  let die := fun (q : Nat × Nat) =>
    let role := (roles.getD q.2 (0, 0)).1
    [6 * q.1 + 5] ++ (if role = 0 ∨ mem then [] else
      (6 * q.1 + 4) :: ((List.range 4).filter fun i => (v.clustersFor q.1).any fun c => quadrant c == i).map (6 * q.1 + ·))
  let links := bit span.linkEnable 4 || bit span.linkEnable 5 || ((bit span.linkEnable 6 || bit span.linkEnable 7) && !span.twin)
  (dies.zipIdx).flatMap die ++ (if links then [26] else [])

/-- R58: slot 4 or any of slots 5 to 8 holds a cartridge whose load switch is on. -/
def Mdl.hub1Slots (s : Mdl) : Bool :=
  (List.range 9).any fun i => decide (4 ≤ i) && s.flag (Reg.MED_SLOT_STATUS_PRESENT i) && s.flag (Reg.MED_SLOT_STATUS_POWERED i)

/-- Why a request to switch a domain is refused (PWR_DOMAIN_STATUS.ERR); 0 for none. Where several reasons hold, the first of: not switchable,
busy, R55, R56, R58, R59; and a request for the state a domain already has shows 0 and changes nothing (DESIGN CHOICE, assumption log
entry 53). -/
def Mdl.domainErr (s : Mdl) (n : Nat) (on : Bool) : Nat :=
  let d := n / 6
  let busy := fun m => s.svc.busy.any fun b => b.1 == m
  if 30 ≤ n ∨ n = 24 ∨ n = 25 ∨ n = 28 ∨ n = 29 then 5
  else if on ∧ n < 24 ∧ s.svc.retiredDie d then 5
  else if busy n then 6
  else if s.domainOn n == on then 0
  else if on then
    if n < 24 ∧ n % 6 < 5 ∧ (¬ s.domainOn (6 * d + 5) ∨ busy (6 * d + 5)) then 1 else 0
  else if n < 24 ∧ n % 6 = 5 ∧ ((List.range 5).any fun i => s.domainOn (6 * d + i) || busy (6 * d + i)) then 1
  else
    let roles := match s.cht.chart with
      | some c => c.roles
      | none => []
    if (workDomains s.svc roles s.spanCfg s.logDies s.memoryOnly).contains n then 2
    else if n = 27 ∧ s.hub1Slots then 3
    else if n = 26 ∧ s.spanCfg.twin ∧ s.reg Reg.TWN_STATUS_STATE ≠ 6 then 4
    else 0

/-- DOMAIN_REQ (R687): the domain becomes busy until its switching is done (R688, R718). -/
def Mdl.domainReq (s : Mdl) (n : Nat) (on : Bool) : Mdl :=
  let e := s.domainErr n on
  let s := s.setReg Reg.PWR_DOMAIN_STATUS_ERR e
  if e ≠ 0 ∨ s.domainOn n == on then s
  else { s with svc := { s.svc with busy := s.svc.busy ++ [(n, on)] } }

/-- Links 4 to 7 go DISABLED with domain 26 (Table 13-2). -/
def Mdl.linksOff (s : Mdl) : Mdl :=
  ([4, 5, 6, 7].foldl (fun s n => (s.setLink n .init).setRegs [(Reg.SPN_LINK_STATE n, 0), (Reg.SPN_LINK_WIDTH n, 0)]) s).setRegs
    [(Reg.TWN_STATUS_LINK6_UP, 0), (Reg.TWN_STATUS_LINK7_UP, 0)]

/-- DOMAIN_SWITCH_DONE (R688, R718). -/
def Mdl.domainDone (s : Mdl) (n : Nat) : Mdl :=
  match s.svc.busy.find? fun b => b.1 == n with
  | none => s
  | some (_, on) =>
    let s : Mdl := { s with svc := { s.svc with busy := s.svc.busy.filter fun b => b.1 != n } }
    let s := s.setDomain n on
    if n = 26 then
      if on then (List.range 4).foldl (fun s i => if bit s.spanCfg.linkEnable (4 + i) then s.setReg (Reg.SPN_LINK_STATE (4 + i)) 1 else s) s
      else s.linksOff
    else if n < 24 then (if on && decide (n % 6 < 4) then s.clearQuadrant (n / 6) (n % 6) else s).showCores (n / 6)
    else s

/-! ### HBM (R490 to R496) -/

/-- Corrected errors of a unit since cold reset. -/
def FlashSt.errorsOf (m : FlashSt) (u : HbmUnit) : Nat := match m.hbmErrors.find? fun p => p.1 == u with
  | some p => p.2
  | none => 0

/-- Retire an HBM unit (R493): remapped to a spare of its stack, or a fault of the die when the pool is empty (R495). -/
def Mdl.hbmRetire (s : Mdl) (u : HbmUnit) : Mdl :=
  let left := s.reg (Reg.MED_HBM_SPARE_SPARE_LEFT u.stack)
  if left = 0 then s.dieFault (u.stack / 2) 9 []
  else
    let s := (s.logBook 0x07 (u.stack + u.unit * 2 ^ 3)).total .hbmUnits
    let s : Mdl := { s with med := { s.med with
      hbmRetired := if s.med.hbmRetired.contains u then s.med.hbmRetired else s.med.hbmRetired ++ [u]
      hbmErrors := s.med.hbmErrors.filter fun p => p.1 != u } }
    s.setReg (Reg.MED_HBM_SPARE_SPARE_LEFT u.stack) (left - 1)

/-- HBM_CORRECTABLE (R492, R493). -/
def Mdl.hbmCorrectable (s : Mdl) (u : HbmUnit) : Mdl :=
  let s := s.countSat (Reg.MED_HBM_CORRECTED u.stack)
  let n := s.med.errorsOf u + 1
  if s.reg Reg.MED_HBM_RETIRE_THRESHOLD ≤ n then s.hbmRetire u
  else { s with med := { s.med with hbmErrors := (u, n) :: s.med.hbmErrors.filter fun p => p.1 != u } }

/-- The page whose frame holds an HBM unit: the unit lies in 8 KiB number `unit` of the die's local range (R36, R493). -/
def Mdl.pageOfUnit (s : Mdl) (u : HbmUnit) : Option (Nat × Page) :=
  let f := u.unit / 256
  if f < s.sysFrames (u.stack / 2) then none
  else s.tir.map.find? fun k => k.2.framed && k.2.pdie == u.stack / 2 && k.2.frame == f

/-- HBM_UNCORRECTABLE (R493, R494): data of a system frame or a clean page is restored; any other mapped page is lost. -/
def Mdl.hbmUncorrectable (s : Mdl) (u : HbmUnit) : Mdl :=
  let s := s.countSat (Reg.MED_HBM_UNCORR u.stack)
  let s := match s.pageOfUnit u with
    | some (k, x) => if x.clean then s else s.losePage (k / 2 ^ 26) (k % 2 ^ 26)
    | none => s
  s.hbmRetire u

/-- Post-package repair at a cold reset (R496): whether the unit's bank has a spare row left is a free value for each unit. -/
def Mdl.packageRepair (s : Mdl) : Mdl :=
  let s := (List.range 8).foldl (fun s k => s.setReg (Reg.MED_HBM_PPR k) 0) s
  let s := s.med.hbmRetired.foldl (fun s u =>
    let r := s.fresh 1
    if r.1 = 1 then
      let s := r.2
      let s := (s.logBook 0x07 (u.stack + u.unit * 2 ^ 3 + 2 ^ 26)).total .ppr
      { s with med := { s.med with hbmRetired := s.med.hbmRetired.filter (· != u) } }.countSat (Reg.MED_HBM_PPR u.stack)
    else r.2) s
  (List.range 8).foldl (fun (s : Mdl) k =>
    s.setReg (Reg.MED_HBM_SPARE_SPARE_LEFT k) (0x40000 - (s.med.hbmRetired.filter fun u => u.stack == k).length)) s

/-! ### SRAM (R489, Table 10-8) -/

/-- Lose the pages that dirty dome-cache lines belong to. -/
def Mdl.loseLines (s : Mdl) (pages : List (Nat × Nat)) : Mdl := pages.foldl (fun s p => s.losePage p.1 p.2) s

end Sys2Proof.Machine
end

