-- ==== Sys2Proof/Machine/Lanes.lean ====
section
/-! DEFINITION. What lanes compute beyond products: distances, predicate terms, selection, and result blocks (R181 to
R185, R259 to R271). -/
namespace Sys2Proof.Machine

/-! ### Distances (R181) -/

/-- Bits set in a number, of its low `n` bits. -/
def popcount : Nat → Nat → Nat
  | 0, _ => 0
  | n + 1, v => v % 2 + popcount n (v / 2)

/-- The 32 squares of a run of element differences from position `p`, positions at or beyond `hi` zero. -/
def squares (ea eb : Nat → Num) (p hi : Nat) : Nat → List Num
  | 0 => []
  | n + 1 =>
    let d := (ea p).add (match eb p with | .fin s m e => .fin (!s) m e | .inf s => .inf (!s) | .nan => .nan)
    (if p < hi then d.mul d else .fin false 0 0) :: squares ea eb (p + 1) hi n

/-- A lane's L2 sum: runs of squares promoted in ascending order. -/
def sumSquares (isInt : Bool) (ea eb : Nat → Num) (hi : Nat) : Nat → Nat → Option F32 → Option F32
  | 0, _, t => t
  | n + 1, p, t =>
    let v := runValue isInt (squares ea eb p hi 32) 0
    sumSquares isInt ea eb hi n (p + 32) (some (match t with | none => v | some x => F32.add x v))

/-- An exact integer as FP32 (Hamming and table-lookup sums). -/
def F32.ofNat (n : Nat) : F32 := F32.ofNum (.fin false n 0)

/-- Differing bits of `n` bytes. -/
def hamming (a b : Nat → Byte) : Nat → Nat
  | 0 => 0
  | n + 1 => hamming a b n + popcount 8 (a n ^^^ b n).toNat

/-- Table lookup over `n` sub-codes of 4 bits: entry 16 s + code of the lane's table. -/
def lookupSum (code table : Nat → Byte) : Nat → Nat
  | 0 => 0
  | n + 1 => lookupSum code table n + (table (16 * n + bits (code (n / 2)).toNat (4 * (n % 2)) 4)).toNat

/-- The distance of an item of `k` bytes to a query, by metric (Table 5-4): elements of `f` for metrics 0 and 1, which `ea` and `eb` read; bytes
for the others. -/
def distance (metric : Nat) (f : Fmt) (k : Nat) (ea eb : Nat → Num) (item query : Nat → Byte) : F32 :=
  let n := k * 8 / f.width
  match metric with
  | 0 => (sumRuns f.isInt ea eb (fun _ => 0) n (ceilDiv n 32) 0 none).getD F32.zero
  | 1 => (sumSquares f.isInt ea eb n (ceilDiv n 32) 0 none).getD F32.zero
  | 2 => F32.ofNat (hamming item query k)
  | _ => F32.ofNat (lookupSum item query (2 * k))

/-- The distance of two operands read through their bytes. -/
def distanceOf (metric : Nat) (f : Fmt) (k : Nat) (item query : Nat → Byte) : F32 :=
  let n := k * 8 / f.width
  distance metric f k (f.elemAt item n) (f.elemAt query n) item query

/-! ### Predicate terms (R183, R185, Table 4-6) -/

/-- The order of two numbers: none when either is NaN; -0 equals +0. -/
def Num.cmp (x y : Num) : Option Ordering :=
  match x, y with
  | .nan, _ => none
  | _, .nan => none
  | .inf a, .inf b => some (if a = b then .eq else if a then .lt else .gt)
  | .inf a, _ => some (if a then .lt else .gt)
  | _, .inf b => some (if b then .gt else .lt)
  | .fin s m e, .fin t n f =>
    let r := exactAdd (signed s m) e (- signed t n) f
    some (if r.1 < 0 then .lt else if r.1 = 0 then .eq else .gt)

/-- A term's field and constants as numbers, by TYPE. -/
def termNum (type width v : Nat) : Num :=
  match type with
  | 0 => Num.ofInt (v % 2 ^ (8 * width)) 0
  | 1 => Num.ofInt (toSigned (8 * width) (v % 2 ^ (8 * width))) 0
  | 2 => Fmt.fp16.elem (v % 2 ^ 16)
  | 3 => Fmt.bf16.elem (v % 2 ^ 16)
  | _ => Fmt.fp32.elem (v % 2 ^ 32)

/-- Bytes of a term's field. -/
def termWidth (type w : Nat) : Nat :=
  match type with
  | 0 | 1 => 2 ^ (w % 4)
  | 2 | 3 => 2
  | _ => 4

/-- One predicate term on a record of `k` bytes: its 24 bytes are read through `t`. A term the spec gives no meaning
(an unused TYPE, WIDTH or OP, a field outside its beat or the record) is the free bit `open_`. -/
def evalTerm (rec t : Nat → Byte) (k : Nat) (open_ : Bool) : Bool :=
  let f := fun o => (t o).toNat
  let op := f 4
  if op = 0xFF then true
  else
    let w := termWidth (f 2) (f 3)
    let at_ := 32 * f 0 + f 1
    let bad := decide (4 < f 2) || (decide (f 2 < 2) && decide (3 < f 3)) || decide (8 < op) || decide (32 < f 1 + w) || decide (k < at_ + w)
    let v := rdLe (fun o => rec (at_ + o)) 0 w
    let a := rdLe t 8 8
    let b := rdLe t 16 8
    let x := termNum (f 2) w v
    let ca := x.cmp (termNum (f 2) w a)
    let cb := x.cmp (termNum (f 2) w b)
    let mask := a % 2 ^ (8 * w)
    let r := match op with
      | 0 => ca == some .eq
      | 1 => ca != some .eq
      | 2 => ca == some .lt
      | 3 => ca == some .lt || ca == some .eq
      | 4 => ca == some .gt
      | 5 => ca == some .gt || ca == some .eq
      | 6 => (ca == some .gt || ca == some .eq) && (cb == some .lt || cb == some .eq)
      | 7 => (v &&& mask) != 0
      | _ => (v &&& mask) == mask
    if bad then open_ else if bit (f 5) 0 then !r else r

/-- A lane's predicate: the AND of its 16 terms (R183). `open_` gives the free bits. -/
def evalTerms (rec terms : Nat → Byte) (k : Nat) (open_ : Nat → Bool) : Bool :=
  (List.range 16).all fun i => evalTerm rec (fun o => terms (24 * i + o)) k (open_ i)

/-! ### Selection (R259 to R263, R267) -/

/-- A pair offered to selection: the key as FP32 or INT32 bits, its order (none for NaN), position, index, and the tie rank
that stands for the position where the order of ties is unspecified. -/
structure SelIn where
  bits : Nat
  ord : Option Int
  pos : Nat
  idx : Nat
  tie : Nat
  deriving DecidableEq, Repr

/-- The order of an FP32 key: -0 equals +0, NaN has none (R260, R261). -/
def keyOrd (x : F32) : Option Int :=
  if x.isNan then none else if x.mag = 0 then some 0 else some (if x.sign then - (x.mag : Int) else x.mag)

/-- Does `x` rank above `y` (R259)? -/
def SelIn.above (smallest : Bool) (x y : SelIn) : Bool :=
  match x.ord, y.ord with
  | some a, some b => (if smallest then decide (a < b) else decide (b < a)) || (a == b && decide (x.tie < y.tie))
  | _, _ => false

/-- Put a pair into a ranked list. -/
def insertRank (smallest : Bool) (x : SelIn) : List SelIn → List SelIn
  | [] => [x]
  | y :: t => if x.above smallest y then x :: y :: t else y :: insertRank smallest x t

/-- The valid inputs in rank order. -/
def rankAll (smallest : Bool) (l : List SelIn) : List SelIn :=
  (l.filter fun x => x.ord.isSome).foldl (fun r x => insertRank smallest x r) []

/-- Drop from a ranked list every entry whose index stands earlier, and count them (R267). -/
def dropDups : List SelIn → List Nat → List SelIn × Nat
  | [], _ => ([], 0)
  | x :: t, seen =>
    if seen.contains x.idx then
      let r := dropDups t seen
      (r.1, r.2 + 1)
    else
      let r := dropDups t (x.idx :: seen)
      (x :: r.1, r.2)

/-- A selection: k best, how many, ties left out, NaN inputs, copies dropped, inputs offered. -/
structure Selection where
  best : List SelIn
  k : Nat
  tieCount : Nat
  nan : Nat
  dup : Nat
  offered : Nat
  deriving DecidableEq, Repr

/-- Select the best `k` of the inputs (R259 to R263, R267). -/
def select (smallest dedup : Bool) (k : Nat) (l : List SelIn) : Selection :=
  let ranked := rankAll smallest l
  let r := if dedup then dropDups ranked [] else (ranked, 0)
  let best := r.1.take k
  let ties := match best.getLast? with
    | some z => if best.length = k then ((r.1.drop k).filter fun x => x.ord == z.ord).length else 0
    | none => 0
  ⟨best, k, ties, (l.filter fun x => x.ord.isNone).length, r.2, l.length⟩

/-- The merge of the cores' best lists (R266, R267): the k best of their entries, without copies of an index where `dedup`. Ties count over all valid
inputs (R263), a copy that the merge dropped being none (R262). -/
def mergeLists (smallest dedup : Bool) (k : Nat) (ins : List SelIn) (lists : List (List SelIn)) (offered : Nat) : Selection :=
  let ranked := rankAll smallest lists.flatten
  let r := if dedup then dropDups ranked [] else (ranked, 0)
  let best := r.1.take k
  let ties := match best.getLast? with
    | some z =>
      let same := fun (l : List SelIn) => (l.filter fun x => x.ord == z.ord).length
      if best.length = k then same ins - same best - (same ranked - same r.1) else 0
    | none => 0
  ⟨best, k, ties, (ins.filter fun x => x.ord.isNone).length, r.2, offered⟩

/-- A result block (Table 5-10): header, the bytes of 0x20 to 0x3F, k entries with padding (R262). -/
def Selection.bytes (r : Selection) (smallest unspec ids64 isInt : Bool) (fmt : Nat) (search : List Byte) : List Byte :=
  let flags := b2n smallest + 2 * b2n (decide (0 < r.tieCount)) + 4 * b2n unspec + 8 * b2n ids64 + fmt * 16
  let pad := if isInt then (if smallest then 0x7FFFFFFF else 0x80000000) else if smallest then 0x7F800000 else 0xFF800000
  leBytes 4 r.best.length ++ leBytes 4 r.k ++ leBytes 2 flags ++ leBytes 2 0 ++ leBytes 4 r.tieCount ++ leBytes 4 r.nan
    ++ leBytes 4 r.dup ++ leBytes 8 r.offered ++ search
    ++ (r.best.flatMap fun x => leBytes 8 x.idx ++ leBytes 4 x.bits ++ leBytes 4 x.pos)
    ++ (List.range (r.k - r.best.length)).flatMap fun _ => leBytes 8 (2 ^ 64 - 1) ++ leBytes 4 pad ++ leBytes 4 0xFFFFFFFF

end Sys2Proof.Machine
end

