-- ==== Sys2Proof/Machine/Sequencer.lean ====
section
/-! DEFINITION. The tensor sequencer: decode checks, the walk, and what each opcode computes (R228 to R271, R293 to R324,
R715, R716). A macro-operation's whole effect on memory takes place when it starts; its end is a command of its own
(assumption log entry 16). -/
namespace Sys2Proof.Machine

/-! ### Formats and decode checks (R237, R240, Table 5-7) -/

/-- The formats of Table 6-5 for an opcode. -/
def Macro.formatsOk (x : Macro) : Bool :=
  let a := Fmt.ofCode x.fmtA
  let b := Fmt.ofCode x.fmtB
  let c := Fmt.ofCode x.fmtC
  let out := fun (c : Option Fmt) => match c with
    | some f => f.isMx || f == .fp32 || f == .fp16 || f == .bf16 || f == .e4m3 || f == .e5m2 || f == .int8 || f == .int4
    | none => false
  let isNone := fun (c : Option Fmt) => c == some .none
  match x.op with
  | 1 | 2 => (match a, b with | some f, some g => f.pairOk g | _, _ => false) && out c
  | 3 =>
    (match a with
      | some f => if bits x.param 0 2 = 0 then f.cls != .other
        else f == .fp32 || f == .fp16 || f == .bf16 || f == .int8 || f == .int32
      | none => false) && isNone b && c == some .fp32
  | 4 => (a == some .fp32 || a == some .fp16 || a == some .bf16 || a == some .int32) && isNone b && isNone c
  | 5 =>
    (if bits x.param 0 2 ≤ 1 then (a == some .int8 || a == some .e4m3 || a == some .fp16 || a == some .bf16) && a == b
      else isNone a && isNone b) && c == some .fp32
  | 7 => (match a with | some f => f != .none | none => false) && isNone b && out c
  | 9 => a == some .fp32 && isNone b && c == some .cpair
  | _ => isNone a && isNone b && isNone c

/-- A macro-operation completes as a no-op without access (Table 5-6). -/
def Macro.noOp (x : Macro) : Bool :=
  x.batch == 0 || ((x.op == 1 || x.op == 2 || x.op == 3 || x.op == 6 || x.op == 7) && (x.m == 0 || (x.op != 3 && x.n == 0)))
    || ((x.op == 5 || x.op == 9) && x.n == 0) || (x.op == 8 && bits x.param 0 48 == 0)

/-- Code 0x01: an undefined opcode, or a reserved or unused field that is not zero: one that Table 5-4 does not name for the opcode
(R237). The fields of SELECT follow its form (R268; DEDUCED, assumption log entry 56). -/
def Macro.badField (x : Macro) : Bool :=
  let mmaOp := x.op == 1 || x.op == 2
  let nz := fun (l : List Nat) => l.any (· ≠ 0)
  let pOk := match x.op with
    | 1 | 2 => if x.legacy then bits x.param 16 16 == 0 else x.param == 0
    | 3 => decide (x.param < 4)
    | 4 => decide (x.param < 2 ^ 20)
    | 5 => bits x.param 3 13 == 0 && decide (x.param < 2 ^ 33)
    | 8 => decide (x.param < 2 ^ 56)
    | _ => x.param == 0
  decide (x.op < 1) || decide (9 < x.op) || x.res != 0 || decide (64 ≤ x.flags) || decide (16 ≤ x.order) || !pOk
    || ((x.toChain || x.legacy) && !mmaOp) || (x.wideOk && !(mmaOp || x.op == 3 || x.op == 5 || x.op == 6)) || (x.fuse && x.op != 5)
    || (x.epi != 0 && !(mmaOp || x.op == 7))
    || ((x.op == 3 || x.op == 7 || x.op == 8 || x.op == 9) && nz [x.bAddr, x.bsb, x.ldb])
    || ((x.op == 8 || x.op == 9) && nz [x.m, x.k, x.lda, x.ldc])
    || (x.op == 8 && nz [x.n, x.lenAxis, x.lenAddr])
    || (x.op == 2 && nz [x.aAddr, x.lda, x.bsa])
    || (!(mmaOp || x.op == 7) && nz [x.aux0, x.aux1])
    || (x.op == 4 && (nz [x.k, x.ldb, x.ldc] || (if bit x.param 19 then nz [x.n, x.bAddr, x.bsb] else nz [x.m, x.lda])))

/-- Code 0x04: a field out of range. -/
def Macro.badRange (x : Macro) : Bool :=
  let big := 0x7FFFFFFF
  decide (big < x.m) || decide (big < x.n) || decide (big < x.k) || decide (65535 < x.batch) || decide (3 < x.lenAxis)
    || decide (5 < x.act) || x.glue % 16 != 0
    || (x.legacy && (x.bias || x.toChain || x.steps.any (fun c => decide (6 < c))))
    || (x.op == 3 && x.n != 1) || (x.op == 7 && x.k != 0)
    || (x.op == 4 && decide (65536 < bits x.param 0 17))
    || (x.op == 5 && (decide (512 < x.n) || decide (65536 < bits x.param 16 17)
        || (decide (2 ≤ bits x.param 0 2) && x.k % 32 != 0) || (bits x.param 0 2 == 3 && decide (128 < x.k))
        || (decide (bits x.param 0 2 ≤ 1) && x.k * 8 % x.fa.width != 0)))
    || (x.op == 6 && (decide (512 < x.n) || x.k % 32 != 0 || decide (4096 < x.k)))
    || (x.op == 8 && (bits x.param 48 2 == 3 || bits x.param 50 2 == 3 || decide (7 < bits x.param 52 4)))
    || (x.scale == 3 && (x.loop != 0 || !x.fc.counted))

/-- The M tile of a walk (Table 5-8) with effective depth `ek`. -/
def Macro.mTile (x : Macro) (ek : Nat) : Nat := if x.wideOk ∧ ek ≤ x.fa.kTile then 256 else 128

/-- Bytes of a result block for k entries. -/
def blockBytes (k : Nat) : Nat := 64 + 16 * k

/-- An operand: base, batch stride, rows, stride between rows, bytes of a row, alignment, whether it is checked. -/
structure Operand where
  base : Nat
  bs : Nat
  rows : Nat
  ld : Nat
  len : Nat
  align : Nat
  deriving DecidableEq, Repr

/-- Bytes of one query, table or term set of a column of B. -/
def Macro.colBytes (x : Macro) : Nat :=
  match x.op with
  | 5 => if bits x.param 0 2 = 3 then x.k / 32 * 1024 else x.k
  | 6 => 384
  | _ => x.fb.rowBytes x.k

/-- Element size in whole bytes, for alignment. -/
def Fmt.bytes (f : Fmt) : Nat := max 1 (f.width / 8)

/-- The operands of a macro-operation that it will touch, as R240 checks them; COPY has its own check. -/
def Macro.operands (x : Macro) : List Operand :=
  let some_ := x.batch ≠ 0 ∧ x.m ≠ 0 ∧ x.n ≠ 0
  let dims := if some_ then
      (if x.scale = 0 then [] else [⟨x.aux0, 0, 1, 0, 128 + 4 * (if x.scale = 1 then x.m else if x.scale = 2 then x.n else x.batch * x.m), 128⟩])
        ++ (if x.bias then [⟨x.aux1, 0, 1, 0, 4 * x.n, 4⟩] else [])
        ++ (if x.legacy ∧ x.steps.any (fun c => c == 1 || c == 2) then [⟨x.aux1, x.bsc, x.m, x.ldc, x.fc.rowBytes x.n, x.fc.bytes⟩] else [])
    else []
  let len := if x.lenAxis ≠ 0 ∧ !x.noOp then [⟨x.lenAddr, 0, 1, 0, 4 * x.batch, 4⟩] else []
  let a : Operand := ⟨x.aAddr, x.bsa, x.m, x.lda, x.fa.rowBytes x.k, x.fa.bytes⟩
  let b : Operand := ⟨x.bAddr, x.bsb, x.n, x.ldb, x.colBytes, x.fb.bytes⟩
  let c : Operand := ⟨x.cAddr, x.bsc, x.m, x.ldc, x.fc.rowBytes x.n, x.fc.bytes⟩
  len ++ match x.op with
    | 1 => if some_ then (if x.k = 0 then [] else [a, b]) ++ (if x.toChain then [] else [c]) ++ dims else []
    | 2 => if some_ then (if x.k = 0 then [] else [b]) ++ (if x.toChain then [] else [c]) ++ dims else []
    | 3 => if x.batch ≠ 0 ∧ x.m ≠ 0 then (if x.k = 0 then [] else [a]) ++ [{ c with len := 4 }] else []
    | 4 =>
      if x.batch = 0 then []
      else
        let k := bits x.param 0 17
        [⟨x.cAddr, x.bsc, 1, 0, blockBytes k, 64⟩]
          ++ (if bit x.param 19 then (if x.m = 0 then [] else [⟨x.aAddr, x.bsa, x.m, x.lda, 64, 64⟩])
              else if k = 0 ∨ x.n = 0 then []
              else [⟨x.aAddr, x.bsa, 1, 0, x.n * x.fa.bytes, x.fa.bytes⟩]
                ++ (if x.bAddr = 0 then [] else
                  let w := if bit x.param 18 then 8 else 4
                  [⟨x.bAddr, x.bsb, 1, 0, w * x.n, w⟩]))
    | 5 =>
      if x.batch = 0 ∨ x.n = 0 then []
      else (if x.m = 0 ∨ x.k = 0 then [] else [{ a with len := x.k }, b])
        ++ (if x.fuse then [⟨x.cAddr, x.bsc, x.n, x.ldc, blockBytes (bits x.param 16 17), 64⟩]
            else if x.m = 0 then [] else [{ c with len := 4 * x.n, align := 4 }])
    | 6 => if some_ then (if x.k = 0 then [] else [{ a with len := x.k }]) ++ [b, { c with len := 8 * x.cores.length, align := 8 }] else []
    | 7 => if some_ then [{ a with len := x.fa.rowBytes x.n }, c] ++ dims else []
    | 9 => if x.batch = 0 ∨ x.n = 0 then [] else [⟨x.aAddr, x.bsa, 1, 0, 4 * x.n, 4⟩, ⟨x.cAddr, x.bsc, 1, 0, 8 * x.n, 8⟩]
    | _ => []

/-- Does an operand lie inside the account's range, its base aligned? -/
def Operand.ok (o : Operand) (batch : Nat) : Bool :=
  o.base % o.align == 0 && (o.len == 0 || decide (o.base + (batch - 1) * o.bs + (o.rows - 1) * o.ld + o.len ≤ 2 ^ 47))

/-- Bytes of a space of COPY: device-virtual, cluster store, plates. -/
def spaceBytes : Nat → Nat
  | 1 => 8 * 2 ^ 20
  | 2 => 3 * 2 ^ 19
  | _ => 2 ^ 47

/-- Code 0x06: an extent outside its range, or misaligned. -/
def Macro.badExtent (x : Macro) : Bool :=
  if x.op = 8 then
    let len := bits x.param 0 48
    !x.noOp &&
      (decide (spaceBytes (bits x.param 48 2) < x.aAddr + (x.batch - 1) * x.bsa + len)
        || decide (spaceBytes (bits x.param 50 2) < x.cAddr + (x.batch - 1) * x.bsc + len))
  else x.operands.any fun o => !o.ok x.batch

/-- Code 0x07: a stride smaller than the row or column it steps over. -/
def Macro.badStride (x : Macro) : Bool := x.operands.any fun o => decide (1 < o.rows) && decide (o.ld < o.len)

/-- Code 0x05: a required partition missing or too small (R186, R270, R313). -/
def Mdl.badParts (s : Mdl) (d c : Nat) (x : Macro) : Bool :=
  x.cores.any fun k =>
    let ps := s.partsOf d c k
    (match x.mode with | some m => !Part.covers ps (2 ^ m) | none => false)
      || (x.op == 4 && !ps.any fun p => p.use == 5 && decide (32768 ≤ 4096 * p.size))
  || (x.scale == 3 && x.epiCores.any fun k => decide (partBytes (s.partsOf d c k) 3 < ceilDiv x.n 512 * 64 * x.mTile x.k * 4))

/-- Code 0x08: no open chain that matches (R253). -/
def Mdl.badChain (s : Mdl) (d c job : Nat) (x : Macro) : Bool :=
  x.op == 2 && match (s.cluster d c).chain with
    | none => true
    | some h => !(h.job == job && h.m == x.m && h.n == x.k && h.fmt == x.fa)

/-- The checks at decode, in the order of Table 5-7; the first code that applies. -/
def Mdl.decodeErr (s : Mdl) (d c job : Nat) (x : Macro) : Option Nat :=
  if x.badField then some 0x01
  else if (match x.mode with | some m => x.cores.any (fun k => !bit (s.modesOf d c k) m) | none => false) then some 0x02
  else if !x.formatsOk then some 0x03
  else if x.badRange then some 0x04
  else if s.badParts d c x then some 0x05
  else if x.badExtent then some 0x06
  else if x.badStride then some 0x07
  else if s.badChain d c job x then some 0x08
  else none

/-! ### Running -/

/-- Why a macro-operation's walk does not reach its end: a page fault, a SEQ_FAULT code found during the walk, or what an access of it waits
for (R328); `len`: the access is to its length table (R715). -/
inductive WalkEnd where
  | page (f : PageFault)
  | code (c : Nat)
  | wait (f : WaitFor) (len : Bool)
  deriving DecidableEq, Repr

/-- What a run comes to: the state, or the state it had reached and why it ended. -/
abbrev Run := Except (WalkEnd × Mdl) Mdl

/-- A run goes on with what an access leaves, or ends as the access does; a page fault is recorded. -/
def Mdl.ranTo {α : Type} (s : Mdl) (acct : Nat) : Except AccessEnd α → Except (WalkEnd × Mdl) α
  | .ok x => .ok x
  | .error (.wait f) => .error (.wait f false, s)
  | .error (.fault f addr) => .error (.page f, s.recordPage f acct addr)

/-- Go through a list while nothing ends the run. -/
def foldRun {α : Type} (f : Mdl → α → Run) : Mdl → List α → Run
  | s, [] => .ok s
  | s, a :: t => match f s a with
    | .ok s => foldRun f s t
    | .error e => .error e

/-- Where a macro-operation runs: cluster, accessor, account, the macro-operation. -/
structure At where
  d : Nat
  c : Nat
  w : Accessor
  acct : Nat
  x : Macro
  /-- Bytes that macro-operations not yet completed have changed, as they were before; the latest first (R232). With each, is it ATOMIC_ADD, whose
  writes are pairs (R323)? -/
  stale : List (Bool × List (Nat × Byte))
  deriving DecidableEq, Repr

/-- The addresses of a range are accessed (R328). -/
def Mdl.touchRange (s : Mdl) (r : At) (addr n : Nat) (write : Bool) : Run := s.ranTo r.acct (s.access r.w r.acct addr n write)

/-- Store bytes of the run's account. -/
def Mdl.put (s : Mdl) (r : At) (addr : Nat) (l : List Byte) : Run :=
  match s.touchRange r addr l.length true with
  | .ok s => .ok ((s.memWrite r.acct addr l).flushRemote r.w r.acct addr l.length)
  | .error e => .error e

/-- What memory holds from an address of the run's account on. -/
def Mdl.raw (s : Mdl) (r : At) (addr : Nat) : Nat → Byte := fun o => s.mem.read (memKey r.acct (addr + o))

/-- A byte of an operand element as a read that no FENCE orders returns it: what memory held before the latest writers in `l`, as many of them as
a free value says for the whole element, so that the element is one that memory has held (R232, R323). -/
def staleByte (free elem k : Nat) (l : List (Bool × List (Nat × Byte))) (v : Byte) : Byte :=
  (l.take (Config.freeValue (free + elem) % (l.length + 1))).foldl (fun v w => (w.2.lookup k).getD v) v

/-- Read a byte of an operand element, named by its first bit (8 * address), from an address of the run's account (R230 to R232). -/
def Mdl.rdBit (s : Mdl) (r : At) (elem addr : Nat) : Nat → Byte := fun o =>
  staleByte s.free (8 * memKey r.acct 0 + elem) (memKey r.acct (addr + o)) r.stale (s.mem.read (memKey r.acct (addr + o)))

/-- Read through memory from an address of the run's account, where each byte is an element, but the bytes of a pair that adds not yet complete
have changed are one (R323). -/
def Mdl.rd (s : Mdl) (r : At) (addr : Nat) : Nat → Byte := fun o =>
  let pair := (addr + o) / 8 * 8
  let inPair := r.stale.any fun w => w.1 && w.2.any fun q => decide (memKey r.acct pair ≤ q.1) && decide (q.1 < memKey r.acct pair + 8)
  s.rdBit r (8 * (if inPair then pair else addr + o)) addr o

/-- Read element `p` of a row of `l` elements of a format, or a scale byte of the row. -/
def Mdl.rdElem (s : Mdl) (r : At) (f : Fmt) (l addr p : Nat) : Nat → Byte := fun o =>
  s.rdBit r (if o < f.scaleArea l then 8 * (addr + o) else 8 * (addr + f.scaleArea l) + p * f.width) addr o

/-- Read a little-endian number of `n` bytes: one operand element. -/
def Mdl.rdNat (s : Mdl) (r : At) (addr n : Nat) : Nat := leNat ((List.range n).map (s.rdBit r (8 * addr) addr))

/-- The free values that reads without FENCE use are spent: the next reads use others. -/
def Mdl.spendReads (s : Mdl) (r : At) : Mdl := if r.stale.isEmpty then s else { s with free := s.free + 2 ^ 80 }

/-- The bytes in which two memories differ, as the first holds them; `n` bounds the entries of both. -/
def Memory.changes : Nat → Memory → Memory → List (Nat × Byte)
  | 0, _, _ => []
  | _ + 1, [], q => q.map fun b => (b.1, Memory.unlisted)
  | _ + 1, p, [] => p
  | n + 1, a :: p, b :: q =>
    if a.1 < b.1 then a :: Memory.changes n p (b :: q)
    else if b.1 < a.1 then (b.1, Memory.unlisted) :: Memory.changes n (a :: p) q
    else if a.2 = b.2 then Memory.changes n p q else a :: Memory.changes n p q

/-- The run in progress on a cluster. -/
def Mdl.updRun (s : Mdl) (r : At) (f : MacroRun → MacroRun) : Mdl :=
  let y := s.cluster r.d r.c
  s.setCluster r.d r.c { y with cur := y.cur.map f }

/-! ### Batches of C that overlap (R240, R716) -/

/-- May batches of C overlap? Adds all take place, so those of ATOMIC_ADD do not count. -/
def Macro.overlaps (x : Macro) : Bool :=
  decide (1 < x.batch) && (if x.op = 8 then decide (x.bsc < bits x.param 0 48)
    else x.op != 9 && !x.toChain && x.operands.any fun o => o.base == x.cAddr && o.bs == x.bsc && decide (o.bs < (o.rows - 1) * o.ld + o.len))

/-- Has another batch of the run written any of these bytes? -/
def Mdl.wroteAny (s : Mdl) (r : At) (b addr n : Nat) : Bool :=
  (((s.cluster r.d r.c).cur.map (·.wrote)).getD []).any fun p =>
    p.1 != b && decide (addr < p.2.1 + p.2.2) && decide (p.2.1 < addr + n)

/-- A byte of `o` and a byte of `n`, the lower and the upper half by choice. -/
def pickHalves (lo hi : Bool) (o n : Byte) : Byte :=
  BitVec.ofNat 8 ((if lo then o else n).toNat % 16 + 16 * ((if hi then o else n).toNat / 16))

/-- Store one element of C of batch b, in one write or in several that belong together. Where another batch has written any of
it, a free value says whose value it holds; `half` where each byte holds two elements. -/
def Mdl.putElem (s : Mdl) (r : At) (b : Nat) (half : Bool) (ws : List (Nat × List Byte)) : Run :=
  let hit := ws.any fun w => s.wroteAny r b w.1 w.2.length
  let s := s.updRun r fun m => { m with wrote := ws.map (fun w => (b, w.1, w.2.length)) ++ m.wrote }
  if hit then
    let v := Config.freeValue s.free
    let s := { s with free := s.free + 1 }
    foldRun (fun s (w : Nat × List Byte) =>
      s.put r w.1 ((List.range w.2.length).map fun i =>
        pickHalves (v % 2 == 1) ((if half then v / 2 else v) % 2 == 1) (s.raw r w.1 i) (w.2.getD i 0))) s ws
  else foldRun (fun s (w : Nat × List Byte) => s.put r w.1 w.2) s ws

/-- Store bytes of C of batch b: the first `head` bytes together, the rest as elements of `n` bytes. -/
def Mdl.putC (s : Mdl) (r : At) (b addr head n : Nat) (l : List Byte) : Run :=
  if !r.x.overlaps then s.put r addr l
  else
    let first := if head = 0 then [] else [[(addr, l.take head)]]
    foldRun (fun s ws => s.putElem r b false ws) s
      (first ++ ((chunks n (l.length + 1) (l.drop head)).zipIdx.map fun q => [(addr + head + n * q.2, q.1)]))

/-- Store the writes of a row of C in format `f`: a block of MX elements goes with its scale, four-bit elements go one by one. -/
def Mdl.putWrites (s : Mdl) (r : At) (b base : Nat) (f : Fmt) (ws : List (Nat × List Byte)) : Run :=
  if !r.x.overlaps then foldRun (fun s (w : Nat × List Byte) => s.put r (base + w.1) w.2) s ws
  else
    let elems : List (List (Nat × List Byte)) := match ws with
      | [(o, sc), (p, body)] =>
        let k := ceilDiv body.length (4 * f.width)
        (List.range k).map (fun q => [(base + o + q, (sc.drop q).take 1), (base + p + 4 * f.width * q, (body.drop (4 * f.width * q)).take (4 * f.width))])
          ++ [[(base + o + k, sc.drop k)]]
      | _ => ws.flatMap fun w => (chunks f.bytes (w.2.length + 1) w.2).zipIdx.map fun q => [(base + w.1 + f.bytes * q.2, q.1)]
    foldRun (fun s ws => s.putElem r b (f.width == 4 && !f.isMx) ws) s elems

/-- The effective extents of a batch (R236): M, N, K. -/
def Mdl.extents (s : Mdl) (r : At) (b : Nat) : Nat × Nat × Nat :=
  let x := r.x
  let l := s.rdNat r (x.lenAddr + 4 * b) 4
  (if x.lenAxis = 1 then min x.m l else x.m, if x.lenAxis = 2 then min x.n l else x.n, if x.lenAxis = 3 then min x.k l else x.k)

/-- The word of the length table of a batch is read; one that returns no data ends the run with code 0x0B (R715). -/
def Mdl.readLength (s : Mdl) (r : At) (b : Nat) : Run :=
  if r.x.lenAxis = 0 then .ok s
  else match s.touchRange r (r.x.lenAddr + 4 * b) 4 false with
    | .error (.page _, s) => .error (.code 0x0B, s)
    | .error (.wait f _, s) => .error (.wait f true, s)
    | x => x

/-- A tile: batch, origins, effective extents, M tile. -/
structure Tile where
  b : Nat
  m0 : Nat
  n0 : Nat
  k0 : Nat
  em : Nat
  en : Nat
  ek : Nat
  mt : Nat
  kt : Nat
  deriving DecidableEq, Repr

/-- Tiles of extents (R246). -/
def tileCount (m n k mt kt : Nat) : Nat := ceilDiv m mt * ceilDiv n 512 * (if m = 0 ∨ n = 0 then 0 else max 1 (ceilDiv k kt))

/-- The tiles of a batch in walk order (R242, R244). -/
def Macro.tiles (x : Macro) (b em en ek : Nat) : List Tile :=
  let kt := x.fa.kTile
  let mt := x.mTile ek
  let ms := (List.range (ceilDiv em mt)).map (· * mt)
  let ns := (List.range (ceilDiv en 512)).map (· * 512)
  let ks := (List.range (if em = 0 ∨ en = 0 then 0 else max 1 (ceilDiv ek kt))).map (· * kt)
  let t := fun m n k => Tile.mk b m n k em en ek mt kt
  match x.loop with
  | 0 => ms.flatMap fun m => ns.flatMap fun n => ks.map fun k => t m n k
  | 1 => ns.flatMap fun n => ms.flatMap fun m => ks.map fun k => t m n k
  | 2 => ks.flatMap fun k => ms.flatMap fun m => ns.map fun n => t m n k
  | _ => ks.flatMap fun k => ns.flatMap fun n => ms.map fun m => t m n k

def Tile.first (t : Tile) : Bool := t.k0 == 0
def Tile.last (t : Tile) : Bool := decide (t.ek ≤ t.k0 + t.kt)
def Tile.rows (t : Tile) : Nat := min t.mt (t.em - t.m0)
def Tile.cols (t : Tile) : Nat := min 512 (t.en - t.n0)
def Tile.depth (t : Tile) : Nat := min t.kt (t.ek - t.k0)

/-- SEQ_WALK of a tile (Table 5-13). -/
def Mdl.showTile (s : Mdl) (r : At) (t : Tile) : Mdl :=
  s.setRegs [(Reg.SEQ_WALK_BATCH r.d r.c, min t.b 0xFFFF), (Reg.SEQ_WALK_M_TILE r.d r.c, min (t.m0 / t.mt) 0xFFFF),
    (Reg.SEQ_WALK_N_TILE r.d r.c, min (t.n0 / 512) 0xFFFF), (Reg.SEQ_WALK_K_TILE r.d r.c, min (t.k0 / t.kt) 0xFFFF)]

/-- The first tile of a macro-operation with a progress tag starts: a progress event fires (R357). -/
def Mdl.tileStart (s : Mdl) (r : At) (n : Nat := 1) : Mdl :=
  let first := ((s.cluster r.d r.c).cur.map (·.tiles)).getD 0 == 0
  if bit r.x.tag 31 && first && decide (0 < n) then s.progressEvent (bits r.x.tag 24 7) (bits r.x.tag 8 16) else s

/-- Count executed tiles; the marks of the walk follow from their number (R272). -/
def Mdl.tileDone (s : Mdl) (r : At) (n : Nat := 1) : Mdl :=
  (s.count (Reg.SEQ_TILES_EXECUTED r.d r.c) n).updRun r fun m => { m with tiles := m.tiles + n }

/-- Tiles left out because of a run-time length are counted (R246). -/
def Mdl.skipTiles (s : Mdl) (r : At) (full run_ : Nat) : Mdl := s.count (Reg.SEQ_SKIPPED_SKIPPED r.d r.c) (full - run_)

/-! ### MMA, MMA_CHAIN and REDUCE with SUM -/

/-! The chain (R253 to R256): core c holds columns n0 + 64 c to n0 + 64 c + 63 of every N tile. Row by row of what each batch writes, the scale
bytes of its columns stand before their elements (DESIGN CHOICE, assumption log entry 56). -/

/-- Columns of a row of `n` that a logical core holds, and the bytes that they take in a format. -/
def chainCols (n core : Nat) : Nat := (List.range (ceilDiv n 512)).foldl (fun a t => a + min 64 (n - (512 * t + 64 * core))) 0
def chainScales (f : Fmt) (n core : Nat) : Nat := if f.isMx then ceilDiv (chainCols n core) 32 else 0
def chainRow (f : Fmt) (n core : Nat) : Nat := chainScales f n core + ceilDiv (chainCols n core * f.width) 8

/-- Where row `i` of batch `b` begins in a core's share: the batches' written rows follow one another. -/
def Chain.rowAt (h : Chain) (core b i : Nat) : Nat :=
  (h.ext.take b).foldl (fun a e => a + e.1 * chainRow h.fmt e.2 core) 0 + i * chainRow h.fmt (h.ext.getD b (0, 0)).2 core

/-- Where a core without a chain buffer keeps its share: its chain area in the upper half of the cluster store (R256; which half is the model's
choice, assumption log entry 56). -/
def chainArea (core : Nat) : Nat := 2 ^ 22 + 2 ^ 19 * core

/-- A byte of a logical core's share. -/
def Mdl.chainByte (s : Mdl) (d c core o : Nat) : Byte :=
  if partBytes (s.partsOf d c core) 4 = 0 then s.storeByte d c (chainArea core + o)
  else s.partByte d c ((s.logCores d c).getD core 0) 4 o

/-- Write bytes of a logical core's share. -/
def Mdl.chainWrite (s : Mdl) (d c core o : Nat) (l : List Byte) : Mdl :=
  if partBytes (s.partsOf d c core) 4 = 0 then s.storeWrite d c (chainArea core + o) l
  else s.partWrite d c ((s.logCores d c).getD core 0) 4 o l

/-- Column p of row i of batch b of the chain (R254): the element's bits, and its scale byte. One that the chain's macro-operation did not write,
beyond its run-time extents, is a free value. -/
def Mdl.chainRaw (s : Mdl) (d c : Nat) (h : Chain) (b i p : Nat) : Nat × Nat :=
  let core := p / 64 % 8
  let l := 64 * (p / 512) + p % 64
  let e := h.ext.getD b (0, 0)
  if e.1 ≤ i ∨ e.2 ≤ p then
    let v := Config.freeValue (s.free + 2 ^ 160 * (1 + (b * 2 ^ 32 + i) * 2 ^ 32 + p))
    (v % 2 ^ h.fmt.width, v / 2 ^ 64 % 256)
  else
    let at_ := h.rowAt core b i
    (h.fmt.raw (fun o => s.chainByte d c core (at_ + chainScales h.fmt e.2 core + o)) 0 l,
      if h.fmt.isMx then (s.chainByte d c core (at_ + l / 32)).toNat else 127)

/-- The row total of element (b, i, j) over the effective depth (R203 to R205, R293 to R299). -/
def Mdl.dot (s : Mdl) (r : At) (chain : Option Chain) (b i j ek : Nat) : F32 :=
  let x := r.x
  let aAt := x.aAddr + b * x.bsa + i * x.lda
  let bAt := x.bAddr + b * x.bsb + j * x.ldb
  let one := x.op = 3
  let ra := s.rdElem r x.fa x.k aAt
  let rb := s.rdElem r x.fb x.k bAt
  let a : (Nat → Num) × (Nat → Int) := match chain with
    | some h => (fun p => let v := s.chainRaw r.d r.c h b i p; if h.fmt.isMx && v.2 == 255 then .nan else h.fmt.elem v.1,
        fun p => ((s.chainRaw r.d r.c h b i p).2 : Int) - 127)
    | none => (fun p => x.fa.elemAt (ra p) x.k p, fun p => (x.fa.scaleByte (ra p) p : Int) - 127)
  let eb := if one then fun _ => Num.ofInt 1 0 else fun p => x.fb.elemAt (rb p) x.k p
  let sc := fun p => a.2 p + (if one then 0 else (x.fb.scaleByte (rb p) p : Int) - 127)
  (sumRuns (x.fa.isInt && (one || x.fb.isInt)) a.1 eb sc ek (ceilDiv ek 32) 0 none).getD F32.zero

/-- The bytes that a tile adds to a core's share of the chain: columns × rows in FMT_C with their block scales (R255). -/
def Tile.chainShare (t : Tile) (f : Fmt) (core : Nat) : Nat :=
  let n := min 64 (t.en - (t.n0 + 64 * core))
  t.rows * ((if f.isMx then ceilDiv n 32 else 0) + ceilDiv (n * f.width) 8)

/-- The capacity of a core's share of a chain (R255, R256). -/
def Mdl.chainCap (s : Mdl) (r : At) (core : Nat) : Nat :=
  let n := partBytes (s.partsOf r.d r.c core) 4
  if n = 0 then 2 ^ 19 else n

/-- What the block of a run's scale found at its first tile (R315). -/
def Mdl.epiOf (s : Mdl) (r : At) : Epi := match (s.cluster r.d r.c).cur.bind (·.block) with
  | some q => ⟨q.1, q.2⟩
  | none => ⟨false, 0⟩

/-- Write columns `j0` onwards of row i of batch b, converted: to the chain of the run, or to memory; counted (R314). -/
def Mdl.putRow (s : Mdl) (r : At) (b i j0 : Nat) (ys : List F32) : Run :=
  let x := r.x
  let q := x.convRow b i j0 ys
  let s := s.updRun r fun m => { m with
    converted := m.converted + ys.length, clamped := m.clamped + q.clamped, amax := if m.amax.magLt q.amax then q.amax else m.amax }
  if x.toChain then
    let h := (((s.cluster r.d r.c).cur.bind (·.chain))).getD ⟨0, 0, 0, x.fc, []⟩
    let out := (List.range (ceilDiv q.codes.length 64)).flatMap fun g =>
      let j := j0 + 64 * g
      let core := j / 64 % 8
      let at_ := h.rowAt core b i
      let codes := (q.codes.drop (64 * g)).take 64
      (if x.fc.isMx then [(core, at_ + 2 * (j / 512), ((q.scales.drop (2 * g)).take 2).map (BitVec.ofNat 8))] else [])
        ++ [(core, at_ + chainScales x.fc (h.ext.getD b (0, 0)).2 core + 8 * x.fc.width * (j / 512),
          leBytes (ceilDiv (codes.length * x.fc.width) 8) (packCodes x.fc.width codes))]
    .ok (s.updRun r fun m => { m with chainOut := m.chainOut ++ out })
  else
    let base := x.cAddr + b * x.bsc + i * x.ldc
    s.putWrites r b base x.fc (x.fc.rowWrites x.n j0 (s.raw r base) q.codes q.scales)

/-- A row of a finished tile goes through the epilogue and is written (R300). -/
def Mdl.drainRow (s : Mdl) (r : At) (chain : Option Chain) (t : Tile) (i : Nat) : Run :=
  let ys := (List.range t.cols).map fun q =>
    let j := t.n0 + q
    r.x.epiSteps (s.rdBit r) (s.epiOf r) t.b i j (if t.ek = 0 then F32.zero else s.dot r chain t.b i j t.ek)
  s.putRow r t.b i t.n0 ys

/-- A row of a band whose scale is found from the whole row (R313). -/
def Mdl.foundRow (s : Mdl) (r : At) (chain : Option Chain) (t : Tile) (i : Nat) : Run :=
  let x := r.x
  let ys := (List.range t.en).map fun j =>
    x.epiSteps (s.rdBit r) (s.epiOf r) t.b i j (if t.ek = 0 then F32.zero else s.dot r chain t.b i j t.ek)
  let a := ys.foldl (fun (a : F32) y => if y.isFinite && decide (a.mag < y.mag) then BitVec.ofNat 32 y.mag else a) F32.zero
  let dq := foundScale a (topOf x.fc)
  match s.put r (x.aux0 + 0x80 + 4 * (t.b * x.m + i)) (leBytes 4 dq.1.toNat) with
  | .ok s => match s.put r x.aux0 (List.replicate 128 0) with
    | .ok s => s.putRow r t.b i 0 (ys.map fun y => F32.mul y dq.2)
    | .error e => .error e
  | .error e => .error e

/-- The operands of a tile are read (R245): rows of A and columns of B, as far as they are in bounds. -/
def Mdl.readTile (s : Mdl) (r : At) (t : Tile) : Run :=
  let x := r.x
  let part := fun (f : Fmt) (addr : Nat) (s : Mdl) =>
    let lo := f.scaleArea x.k + t.k0 * f.width / 8
    match if f.isMx then s.touchRange r (addr + t.k0 / 32) (ceilDiv t.depth 32) false else .ok s with
    | .ok s => s.touchRange r (addr + lo) (ceilDiv (t.depth * f.width) 8) false
    | .error e => .error e
  if t.depth = 0 then .ok s
  else
    match if x.op = 2 then .ok s else
        foldRun (fun s i => part x.fa (x.aAddr + t.b * x.bsa + i * x.lda) s) s ((List.range t.rows).map (t.m0 + ·)) with
    | .error e => .error e
    | .ok s =>
      if x.op = 3 then .ok s
      else foldRun (fun s j => part x.fb (x.bAddr + t.b * x.bsb + j * x.ldb) s) s ((List.range t.cols).map (t.n0 + ·))

/-- Accumulator tiles live before a first K pass enters, in a walk whose K is outermost: `n` tiles of this first pass have
entered. A core overflows at its third, or at its second in wide passes (R247 to R249). -/
def Tile.overflows (t : Tile) (loop live : Nat) : Bool :=
  t.first && !t.last && decide (2 ≤ loop) && decide ((if t.mt = 256 then 1 else 2) ≤ live)

/-- SEQ_FAULT_ACC at an overflow (R249): every core with columns in the live tiles holds its banks in ACCUM. -/
def Mdl.showOverflow (s : Mdl) (r : At) (t : Tile) (live : Nat) : Mdl :=
  if s.flag (Reg.SEQ_FAULT_VALID r.d r.c) then s
  else
    let cores := s.logCores r.d r.c
    let nibble := if t.mt = 256 ∨ live = 2 then 5 else if live = 1 then 1 else 0
    let banks := (List.range 8).foldl (fun n k =>
      if 64 * k < t.en then n + nibble * 2 ^ (4 * cores.getD k 0) else n) 0
    s.setRegs [(Reg.SEQ_FAULT_ACC_BANKS r.d r.c, banks), (Reg.SEQ_FAULT_ACC_NEEDED r.d r.c, min (live + 1) 15), (Reg.SEQ_FAULT_ACC_HELD r.d r.c, live)]

/-- One tile of the walk; `chain` is the chain consumed, `used` the cores' chain shares and live tiles so far. -/
def Mdl.runTile (s : Mdl) (r : At) (chain : Option Chain) (used : List Nat × Nat) (t : Tile) : Except (WalkEnd × Mdl) (Mdl × (List Nat × Nat)) :=
  let s := (s.showTile r t).tileStart r
  let live := used.2
  if t.overflows r.x.loop live then .error (.code 0x09, s.showOverflow r t live)
  else
    let share := if r.x.toChain && t.last then
        (List.range 8).map fun k => used.1.getD k 0 + (if t.n0 + 64 * k < t.en then t.chainShare r.x.fc k else 0)
      else used.1
    if r.x.toChain && (List.range 8).any (fun k => decide (s.chainCap r k < share.getD k 0)) then .error (.code 0x0A, s)
    else
      match s.readTile r t with
      | .error e => .error e
      | .ok s =>
        let s := (s.tileDone r).spendReads r
        let live := if t.last then live - (if t.first then 0 else 1) else if t.first then live + 1 else live
        let rows := (List.range t.rows).map (t.m0 + ·)
        let out : Run :=
          if !t.last then .ok s
          else if r.x.scale = 3 then
            (if t.en ≤ t.n0 + 512 then foldRun (fun s i => s.foundRow r chain t i) s rows else .ok s)
          else foldRun (fun s i => s.drainRow r chain t i) s rows
        match out with
        | .ok s => .ok (s, (share, live))
        | .error e => .error e

/-- The tiles of a walk in order. -/
def Mdl.runTiles (r : At) (chain : Option Chain) : Mdl → (List Nat × Nat) → List Tile → Except (WalkEnd × Mdl) (Mdl × (List Nat × Nat))
  | s, u, [] => .ok (s, u)
  | s, u, t :: l => match s.runTile r chain u t with
    | .ok (s, u) => Mdl.runTiles r chain s u l
    | .error e => .error e

/-- Residency hints that the staging partitions have no room for (R250, R251): each of the two counts once for every core used whose partition is
smaller than that core's share of one tile, 64 columns or an M tile (DESIGN CHOICE, assumption log entry 56: the spec says neither what
room a hint needs nor how often one counts). -/
def Mdl.hintsIgnored (s : Mdl) (r : At) : Nat :=
  let x := r.x
  let depth := min x.k x.fa.kTile
  x.cores.foldl (fun n k =>
    let ps := s.partsOf r.d r.c k
    n + (if bit x.order 2 ∧ partBytes ps 2 < min 64 x.n * x.fb.rowBytes depth then 1 else 0)
      + (if bit x.order 3 ∧ partBytes ps 1 < min (x.mTile x.k) x.m * x.fa.rowBytes depth then 1 else 0)) 0

/-- The auxiliary operands of the epilogue are accessed, as far as a batch with tiles needs them (R239, R245), and the block of the scale rolls if
it is carried, once, at the first tile (R315). -/
def Mdl.prepareEpi (s : Mdl) (r : At) (b em en : Nat) : Run :=
  let x := r.x
  if em = 0 ∨ en = 0 ∨ !(x.usesBlock || x.legacy || x.bias) then .ok s
  else
    match if x.scale = 0 then .ok s
      else s.touchRange r x.aux0 (128 + (if x.scale = 1 then 4 * em else if x.scale = 2 then 4 * en else 0)) (x.scale == 3) with
    | .error e => .error e
    | .ok s => match if x.bias then s.touchRange r x.aux1 (4 * en) false else .ok s with
      | .error e => .error e
      | .ok s =>
        let ew : Run := if x.legacy && x.steps.any (fun c => c == 1 || c == 2) then
            foldRun (fun s i =>
              let row := x.aux1 + b * x.bsc + i * x.ldc
              match if x.fc.isMx then s.touchRange r row (ceilDiv en 32) false else .ok s with
              | .ok s => s.touchRange r (row + x.fc.scaleArea x.n) (ceilDiv (en * x.fc.width) 8) false
              | .error e => .error e) s (List.range em)
          else .ok s
        match ew with
        | .error e => .error e
        | .ok s =>
          if ((s.cluster r.d r.c).cur.bind (·.block)).isSome ∨ !x.usesBlock then .ok s
          else if (x.scale = 1 ∨ x.scale = 2) ∧ s.carried r.acct x.aux0 then
            let s := s.rollScale r.acct x.aux0
            .ok (s.updRun r fun m => { m with block := some (true, s.blockExp r.acct x.aux0) })
          else .ok (s.updRun r fun m => { m with block := some (false, 0) })

/-- MMA, MMA_CHAIN and REDUCE with SUM, batch by batch. -/
def Mdl.runProduct (s : Mdl) (r : At) (chain : Option Chain) : Nat → Nat → (List Nat × Nat) → Run
  | 0, _, _ => .ok s
  | n + 1, b, u =>
    match s.readLength r b with
    | .error e => .error e
    | .ok s =>
      let (em, en, ek) := s.extents r b
      let x := r.x
      let mt := x.mTile ek
      let s := s.skipTiles r (tileCount x.m x.n x.k mt x.fa.kTile) (tileCount em en ek mt x.fa.kTile)
      let s := s.updRun r fun m => { m with chain := m.chain.map fun h => { h with ext := h.ext ++ [(em, en)] } }
      match s.prepareEpi r b em en with
      | .error e => .error e
      | .ok s => match Mdl.runTiles r chain s u (x.tiles b em en ek) with
        | .error e => .error e
        | .ok (s, u) => Mdl.runProduct s r chain n (b + 1) u

/-! ### REDUCE with MAX, MIN and ABSMAX (R238) -/

/-- The reduction of a row's values that are not NaN; the identity of an empty row; NaN when every input is NaN. -/
def reduceRow (kind : Nat) (l : List F32) : F32 :=
  let v := l.filter fun y => !y.isNan
  let v := if kind = 3 then v.map fun y => BitVec.ofNat 32 y.mag else v
  match v with
  | [] => if l.isEmpty then (if kind = 1 then F32.inf true else if kind = 2 then F32.inf false else F32.zero) else F32.nan
  | y :: t => t.foldl (fun a z => if kind = 2 then F32.min a z else F32.max a z) y

/-- Row i of batch b of a REDUCE. -/
def Mdl.reduceOne (s : Mdl) (r : At) (b i ek : Nat) : Run :=
  let x := r.x
  let a := x.aAddr + b * x.bsa + i * x.lda
  match s.touchRange r a (if ek = 0 then 0 else ceilDiv (ek * x.fa.width) 8) false with
  | .error e => .error e
  | .ok s =>
    let ys := (List.range ek).map fun p => F32.ofNum (x.fa.valueAt (s.rdElem r x.fa x.k a p) x.k p)
    s.putC r b (x.cAddr + b * x.bsc + i * x.ldc) 0 4 (leBytes 4 (reduceRow (bits x.param 0 2) ys).toNat)

/-- Run one batch after another, each with its effective extents (R236, R715). -/
def Mdl.runBatches (r : At) (f : Mdl → Nat → Nat → Nat → Nat → Run) : Nat → Nat → Mdl → Run
  | 0, _, s => .ok s
  | n + 1, b, s => match s.readLength r b with
    | .error e => .error e
    | .ok s =>
      let (em, en, ek) := s.extents r b
      let s := s.spendReads r
      match f s b em en ek with
      | .error e => .error e
      | .ok s => Mdl.runBatches r f n (b + 1) s

/-! ### CONVERT, COPY and ATOMIC_ADD -/

/-- Row i of batch b of a CONVERT (R309). -/
def Mdl.convertRow (s : Mdl) (r : At) (b i en : Nat) : Run :=
  let x := r.x
  let a := x.aAddr + b * x.bsa + i * x.lda
  let f := x.fa
  let scaled : Run := if f.isMx then s.touchRange r a (ceilDiv en 32) false else .ok s
  match scaled with
  | .error e => .error e
  | .ok s => match s.touchRange r (a + f.scaleArea x.n) (ceilDiv (en * f.width) 8) false with
    | .error e => .error e
    | .ok s =>
      let rd := s.rdElem r f x.n a
      if x.fmtA = x.fmtC ∧ x.epi = 0 then
        let codes := (List.range en).map fun p => f.raw (rd p) x.n p
        let scales := if f.isMx then (List.range (ceilDiv en 32)).map fun q => (rd 0 q).toNat else []
        let base := x.cAddr + b * x.bsc + i * x.ldc
        s.putWrites r b base f (f.rowWrites x.n 0 (s.raw r base) codes scales)
      else
        let ys := (List.range en).map fun j => x.epiSteps (s.rdBit r) (s.epiOf r) b i j (F32.ofNum (f.valueAt (rd j) x.n j))
        if x.scale = 3 then
          let a := ys.foldl (fun (a : F32) y => if y.isFinite && decide (a.mag < y.mag) then BitVec.ofNat 32 y.mag else a) F32.zero
          let dq := foundScale a (topOf x.fc)
          match s.put r (x.aux0 + 0x80 + 4 * (b * x.m + i)) (leBytes 4 dq.1.toNat) with
          | .ok s => match s.put r x.aux0 (List.replicate 128 0) with
            | .ok s => s.putRow r b i 0 (ys.map fun y => F32.mul y dq.2)
            | .error e => .error e
          | .error e => .error e
        else s.putRow r b i 0 ys

/-- Bytes of a COPY's source. -/
def Mdl.copyFrom (s : Mdl) (r : At) (space core addr n : Nat) : Except (WalkEnd × Mdl) (List Byte × Mdl) :=
  match space with
  | 0 => match s.touchRange r addr n false with
    | .ok s => .ok (if r.stale.isEmpty then s.memRead r.acct addr n else (List.range n).map (s.rd r addr), s)
    | .error e => .error e
  | 1 => .ok ((List.range n).map fun i => s.storeByte r.d r.c (addr + i), s)
  | _ => .ok ((List.range n).map fun i => s.platesByte r.d r.c ((s.logCores r.d r.c).getD core 0) (addr + i), s)

/-- Bytes of a COPY go to their destination. -/
def Mdl.copyTo (s : Mdl) (r : At) (space core addr : Nat) (l : List Byte) : Run :=
  match space with
  | 0 => s.put r addr l
  | 1 => .ok (s.storeWrite r.d r.c addr l)
  | _ => .ok (s.platesWrite r.d r.c ((s.logCores r.d r.c).getD core 0) addr l)

/-- Bytes of copy b where the destinations of copies may overlap: each byte another copy has written keeps its value or takes
the new one, as a free value says (R716). -/
def Mdl.copyPick (s : Mdl) (r : At) (b addr : Nat) (old : Nat → Byte) (l : List Byte) : List Byte × Mdl :=
  let l' := l.zipIdx.map fun q =>
    if s.wroteAny r b (addr + q.2) 1 && Config.freeValue (s.free + q.2) % 2 == 1 then old q.2 else q.1
  (l', { (s.updRun r fun m => { m with wrote := (b, addr, l.length) :: m.wrote }) with free := s.free + l.length })

/-- What the destination of a COPY holds. -/
def Mdl.copyOld (s : Mdl) (r : At) (space core addr : Nat) : Nat → Byte := match space with
  | 0 => s.raw r addr
  | 1 => fun i => s.storeByte r.d r.c (addr + i)
  | _ => fun i => s.platesByte r.d r.c ((s.logCores r.d r.c).getD core 0) (addr + i)

/-- Copy b of a COPY (R716). -/
def Mdl.copyOne (s : Mdl) (r : At) (b : Nat) : Run :=
  let p := r.x.param
  let n := bits p 0 48
  if n = 0 then .ok s
  else match s.copyFrom r (bits p 48 2) (bits p 52 4) (r.x.aAddr + b * r.x.bsa) n with
    | .error e => .error e
    | .ok (l, s) =>
      let addr := r.x.cAddr + b * r.x.bsc
      let (l, s) := if r.x.overlaps then s.copyPick r b addr (s.copyOld r (bits p 50 2) (bits p 52 4) addr) l else (l, s)
      s.copyTo r (bits p 50 2) (bits p 52 4) addr l

/-- One compensated add to a pair of an account (R320, R324): at the unit that owns it, or as a CADD to its holder. -/
def Mdl.pairAdd (s : Mdl) (w : Accessor) (acct addr v : Nat) : Except AccessEnd Mdl :=
  (s.access w acct addr 8 true).map fun s =>
    if (s.page acct (addr / pageBytes)).state = .remote then
      s.remoteRequest w acct addr 0x03 (leBytes 8 (v % 2 ^ 32)) (.access (w.job.getD 4096) acct addr w.who)
    else
      let q := compensatedAdd (f32Of (s.memNat acct addr 4)) (f32Of (s.memNat acct (addr + 4) 4)) (f32Of v)
      s.memWrite acct addr (leBytes 4 q.1.toNat ++ leBytes 4 q.2.toNat)

/-- The adds of a batch of ATOMIC_ADD, in ascending n (R324). -/
def Mdl.atomicBatch (s : Mdl) (r : At) (b en : Nat) : Run :=
  let a := r.x.aAddr + b * r.x.bsa
  let c := r.x.cAddr + b * r.x.bsc
  match s.touchRange r a (4 * en) false with
  | .error e => .error e
  | .ok s => foldRun (fun s n => s.ranTo r.acct (s.pairAdd r.w r.acct (c + 8 * n) (s.rdNat r (a + 4 * n) 4))) s (List.range en)

/-! ### SELECT, SCAN_CODES and FILTER -/

/-- The tie rank of input `p`: its position, or a free value where the order of ties is unspecified (R264, R265). -/
def Mdl.tieRank (s : Mdl) (unspec : Bool) (p n : Nat) : Nat := if unspec then n * (Config.freeValue (s.free + p) % 2 ^ 32) + n + p else p

/-- Key format code of a result block. -/
def keyFmt : Fmt → Nat
  | .fp16 => 1 | .bf16 => 2 | .int32 => 3 | _ => 0

/-- A key as an input of selection: widened to FP32, or INT32. -/
def selKey (f : Fmt) (raw pos idx tie : Nat) : SelIn :=
  if f = .int32 then ⟨raw, some (toSigned 32 raw), pos, idx, tie⟩
  else
    let x := F32.ofNum (f.elem raw)
    let bits := if f = .fp32 then raw else x.toNat
    ⟨bits, keyOrd x, pos, idx, tie⟩

/-- An entry of a running best list: index, key, position (Table 5-10). -/
def SelIn.bytes (e : SelIn) : List Byte := leBytes 8 e.idx ++ leBytes 4 e.bits ++ leBytes 4 e.pos

/-- A core's running best list of k pairs, in its selection partition when it fits, otherwise in the cluster store (R266). Where in either is the
model's choice (DESIGN CHOICE, assumption log entry 56). -/
def Mdl.bestList (s : Mdl) (r : At) (core k : Nat) (l : List SelIn) : Mdl :=
  let bytes := l.flatMap SelIn.bytes
  if 16 * k ≤ partBytes (s.partsOf r.d r.c core) 5 then s.partWrite r.d r.c ((s.logCores r.d r.c).getD core 0) 5 0 bytes
  else s.storeWrite r.d r.c (core * 16 * k) bytes

/-- A batch of SELECT over keys (R259 to R271): blocks of 2,048 inputs go to the cores in turn, and core 0 merges their best lists, without
duplicates where indexes are item IDs. -/
def Mdl.selectKeys (s : Mdl) (r : At) (b en : Nat) : Run :=
  let x := r.x
  let k := bits x.param 0 17
  let smallest := bit x.param 17
  let ids64 := bit x.param 18
  let unspec := s.selUnspec r.d r.c
  let a := x.aAddr + b * x.bsa
  let w := if ids64 then 8 else 4
  let bAt := x.bAddr + b * x.bsb
  let n := if k = 0 then 0 else en
  let s := s.tileStart r n
  match s.touchRange r a (n * x.fa.bytes) false with
  | .error e => .error e
  | .ok s => match s.touchRange r bAt (if x.bAddr = 0 then 0 else w * n) false with
    | .error e => .error e
    | .ok s =>
      let s := (s.skipTiles r (ceilDiv (if k = 0 then 0 else x.n) 2048) (ceilDiv n 2048)).tileDone r (ceilDiv n 2048)
      let ins := (List.range n).map fun p =>
        selKey x.fa (s.rdNat r (a + p * x.fa.bytes) x.fa.bytes) p
          (if x.bAddr = 0 then p else s.rdNat r (bAt + w * p) w) (s.tieRank unspec p n)
      let cores := x.cores
      let lists := cores.map fun core => (rankAll smallest (ins.filter fun e => e.pos / 2048 % max 1 cores.length == core)).take k
      let s := (cores.zip lists).foldl (fun s q => s.bestList r q.1 k q.2) s
      let q := mergeLists smallest ids64 k ins lists en
      let s := { s with free := if unspec then s.free + n else s.free }
      s.putC r b (x.cAddr + b * x.bsc) 64 16 (q.bytes smallest unspec ids64 (x.fa == .int32) (keyFmt x.fa) (List.replicate 32 0))

/-- The entries of a result block at an address, padding left out. -/
def Mdl.blockEntries (s : Mdl) (r : At) (a : Nat) : List SelIn :=
  let int := bits (s.rdNat r (a + 8) 2) 4 4 == 3
  (List.range (s.rdNat r a 4)).map fun i =>
    let e := a + 64 + 16 * i
    let bits := s.rdNat r (e + 8) 4
    let pos := s.rdNat r (e + 12) 4
    ⟨bits, if int then some (toSigned 32 bits) else keyOrd (f32Of bits), pos, s.rdNat r e 8, pos⟩

/-- SELECT with MERGE: M result blocks (R267, R268), whose entries are the inputs, in blocks of 2,048. The first block's FLAGS say whether indexes are
item IDs and what the keys' format is; with M 0 both are 0 (DESIGN CHOICE, assumption log entry 56: the spec does not say what holds where
the blocks differ). -/
def Mdl.selectMerge (s : Mdl) (r : At) (b em : Nat) : Run :=
  let x := r.x
  let k := bits x.param 0 17
  let smallest := bit x.param 17
  let unspec := s.selUnspec r.d r.c
  let at_ := fun i => x.aAddr + b * x.bsa + i * x.lda
  let read := foldRun (fun (s : Mdl) i => match s.touchRange r (at_ i) 64 false with
    | .ok s => s.touchRange r (at_ i) (blockBytes (s.rdNat r (at_ i) 4)) false
    | .error e => .error e) s (List.range em)
  match read with
  | .error e => .error e
  | .ok s =>
    let l := (List.range em).flatMap fun i => s.blockEntries r (at_ i)
    let flags := if em = 0 then 0 else s.rdNat r (at_ 0 + 8) 2
    let n := l.length
    let s := (s.tileStart r n).tileDone r (ceilDiv n 2048)
    let ins := (List.range n).map fun i =>
      let e := l.getD i ⟨0, none, 0, 0, 0⟩
      if unspec then { e with tie := s.tieRank true i n } else e
    let q := select smallest (bit flags 3) k ins
    let s := { s with free := if unspec then s.free + n else s.free }
    s.putC r b (x.cAddr + b * x.bsc) 64 16 (q.bytes smallest unspec (bit flags 3) (bits flags 4 4 == 3) (bits flags 4 4) (List.replicate 32 0))

/-- Elements of K along the reduction of SCAN_CODES, whose K counts bytes, and its K tile (Tables 4-2, 5-4, 5-8). -/
def Macro.scanDepth (x : Macro) (k : Nat) : Nat := if bits x.param 0 2 ≤ 1 then k * 8 / x.fa.width else k
def Macro.scanTile (x : Macro) : Nat := if x.op = 5 ∧ bits x.param 0 2 ≤ 1 then x.fa.kTile else 4096

/-- Tiles of a batch of SCAN_CODES or FILTER with extents `m`, `n` and `k` bytes, with the M tile of effective depth `ek` (R242, R246). -/
def Macro.scanTiles (x : Macro) (m n k ek : Nat) : Nat :=
  let mt := if x.wideOk ∧ x.scanDepth ek ≤ x.scanTile then 256 else 128
  tileCount m n (if x.op = 5 then x.scanDepth k else k) mt x.scanTile

/-- The tiles of a batch count as executed or skipped, and SEQ_WALK holds the last (R242, R246). -/
def Mdl.scanWalk (s : Mdl) (r : At) (b em en ek : Nat) : Mdl :=
  let x := r.x
  let n := x.scanTiles em en ek ek
  let s := (s.skipTiles r (x.scanTiles x.m x.n x.k ek) n).tileDone r n
  let mt := if x.wideOk ∧ x.scanDepth ek ≤ x.scanTile then 256 else 128
  let k := if x.op = 5 then x.scanDepth ek else ek
  if n = 0 then s
  else s.showTile r ⟨b, (em - 1) / mt * mt, (en - 1) / 512 * 512, (k - 1) / x.scanTile * x.scanTile, em, en, k, mt, x.scanTile⟩

/-- The distance of item i to query j of a batch of SCAN_CODES over `ek` bytes (R181, R246). -/
def Mdl.scanDist (s : Mdl) (r : At) (b i j ek : Nat) : F32 :=
  let x := r.x
  let aAt := x.aAddr + b * x.bsa + i * x.lda
  let bAt := x.bAddr + b * x.bsb + j * x.ldb
  let n := x.k * 8 / x.fa.width
  distance (bits x.param 0 2) x.fa ek (fun p => x.fa.elemAt (s.rdElem r x.fa 0 aAt p) n p) (fun p => x.fa.elemAt (s.rdElem r x.fa 0 bAt p) n p)
    (s.rd r aAt) (s.rd r bAt)

/-- A batch of SCAN_CODES (R181, Table 5-4). With FUSE_SELECT an entry's INDEX and POSITION are both the item's number (DESIGN CHOICE,
assumption log entry 56). -/
def Mdl.scanBatch (s : Mdl) (r : At) (b em en ek : Nat) : Run :=
  let x := r.x
  let s := s.tileStart r (x.scanTiles em en ek ek)
  if en = 0 then .ok (s.scanWalk r b em en ek)
  else
    let items := foldRun (fun s i => s.touchRange r (x.aAddr + b * x.bsa + i * x.lda) ek false) s (List.range em)
    match items with
    | .error e => .error e
    | .ok s =>
      let col := if bits x.param 0 2 = 3 then ceilDiv ek 32 * 1024 else ek
      match foldRun (fun s j => s.touchRange r (x.bAddr + b * x.bsb + j * x.ldb) (if em = 0 then 0 else col) false) s (List.range en) with
      | .error e => .error e
      | .ok s =>
        let s := s.scanWalk r b em en ek
        if x.fuse then
          let k := bits x.param 16 17
          let smallest := bit x.param 2
          foldRun (fun (s : Mdl) j =>
            let unspec := s.selUnspec r.d r.c
            let ins := (List.range em).map fun i =>
              let y := s.scanDist r b i j ek
              SelIn.mk y.toNat (keyOrd y) i i (s.tieRank unspec i em)
            let q := select smallest false k ins
            let s := { s with free := if unspec then s.free + em else s.free }
            s.putC r b (x.cAddr + b * x.bsc + j * x.ldc) 64 16 (q.bytes smallest unspec false false 0 (List.replicate 32 0))) s (List.range en)
        else
          foldRun (fun (s : Mdl) i =>
            s.putC r b (x.cAddr + b * x.bsc + i * x.ldc) 0 4 ((List.range en).flatMap fun j => leBytes 4 (s.scanDist r b i j ek).toNat)) s (List.range em)

/-- A batch of FILTER (R183, R184): one 64-bit word per core used for each record; bytes of a record beyond the effective K are fed as zero
(R245, R246). -/
def Mdl.filterBatch (s : Mdl) (r : At) (b em en ek : Nat) : Run :=
  let x := r.x
  let s := s.tileStart r (x.scanTiles em en ek ek)
  if em = 0 ∨ en = 0 then .ok (s.scanWalk r b em en ek)
  else
    let recs := foldRun (fun s i => s.touchRange r (x.aAddr + b * x.bsa + i * x.lda) ek false) s (List.range em)
    match recs with
    | .error e => .error e
    | .ok s => match foldRun (fun s j => s.touchRange r (x.bAddr + b * x.bsb + j * x.ldb) 384 false) s (List.range en) with
      | .error e => .error e
      | .ok s =>
        let s := s.scanWalk r b em en ek
        foldRun (fun (s : Mdl) i =>
          let rec_ := fun o => if o < ek then s.rd r (x.aAddr + b * x.bsa + i * x.lda) o else 0
          let pass := fun j => evalTerms rec_ (s.rd r (x.bAddr + b * x.bsb + j * x.ldb)) (ceilDiv ek 32 * 32) fun t =>
            Config.freeValue (s.free + 16 * j + t) % 2 == 1
          let words := (List.range (min 8 (ceilDiv en 64))).map fun q =>
            (List.range 64).foldl (fun n l => if 64 * q + l < en && pass (64 * q + l) then n + 2 ^ l else n) 0
          let s := { s with free := s.free + 16 * en }
          s.putC r b (x.cAddr + b * x.bsc + i * x.ldc) 0 8 (words.flatMap fun w => leBytes 8 w)) s (List.range em)

/-! ### A macro-operation as a whole -/

/-- The output of a run for its chain takes its place in the chain buffers and areas, as far as they reach (R255). -/
def Mdl.layChain (s : Mdl) (r : At) : Mdl :=
  let out := ((s.cluster r.d r.c).cur.map (·.chainOut)).getD []
  let s := out.foldl (fun (s : Mdl) q => if q.2.1 + q.2.2.length ≤ s.chainCap r q.1 then s.chainWrite r.d r.c q.1 q.2.1 q.2.2 else s) s
  s.updRun r fun m => { m with chainOut := [] }

/-- The work of a macro-operation that has passed decode. -/
def Mdl.runMacro (s : Mdl) (r : At) (chain : Option Chain) : Run :=
  let x := r.x
  match x.op with
  | 1 | 2 => s.runProduct r chain x.batch 0 (List.replicate 8 0, 0)
  | 3 =>
    if bits x.param 0 2 = 0 then s.runProduct r none x.batch 0 (List.replicate 8 0, 0)
    else Mdl.runBatches r (fun s b em en ek => foldRun (fun s i => s.reduceOne r b i ek) s (List.range (if en = 0 then 0 else em))) x.batch 0 s
  | 4 => Mdl.runBatches r (fun s b em en _ => if bit x.param 19 then s.selectMerge r b em else s.selectKeys r b en) x.batch 0 s
  | 5 => Mdl.runBatches r (fun s b em en ek => s.scanBatch r b em en ek) x.batch 0 s
  | 6 => Mdl.runBatches r (fun s b em en ek => s.filterBatch r b em en ek) x.batch 0 s
  | 7 => Mdl.runBatches r (fun s b em en _ => match s.prepareEpi r b em en with
      | .error e => .error e
      | .ok s => foldRun (fun s i => s.convertRow r b i en) s (List.range (if en = 0 then 0 else em))) x.batch 0 s
  | 8 => Mdl.runBatches r (fun s b _ _ _ => s.copyOne r b) x.batch 0 s
  | _ => Mdl.runBatches r (fun s b _ en _ => s.atomicBatch r b en) x.batch 0 s

/-- A macro-operation's run, after decode; what it wrote for a chain is laid down at its end (R254). -/
def Mdl.startRun (s : Mdl) (r : At) (chain : Option Chain) : Run :=
  if r.x.noOp then .ok s
  else
    let s := s.countSat (Reg.SEQ_HINT_IGNORED r.d r.c) (s.hintsIgnored r)
    let spent := fun (s : Mdl) => if chain.isSome then { s with free := s.free + 2 ^ 256 } else s
    match s.runMacro r chain with
    | .ok s => .ok (spent (s.layChain r))
    | .error (e, s) => .error (e, spent (s.layChain r))

/-- May a cluster's sequencer start a macro-operation of a job now? With FENCE it waits until every one before it has
completed, and so does one that consumes the chain of the one before; another follows directly (R229, R231, R253). A job that has its ending
status starts nothing more (R233). -/
def Mdl.canStart (s : Mdl) (d c job : Nat) (x : Macro) : Bool :=
  let y := s.cluster d c
  let follows := match y.cur with
    | none => true
    | some m => m.entry.job == job && !bit x.flags 0 && x.op != 2
  let failed := (s.job job).any fun j => j.status.isSome
  s.clusterOn d c && follows && !failed && !y.held && y.saving.isNone && s.svc.loading != some (d, c) && !s.flag (Reg.EYE_CTRL_HALT d c)
    && decide (s.reg Reg.PWR_THERMAL_STEP < 4)

/-- The plan image that a job runs (R221): a search job's is built in. -/
def Mdl.planBytes (s : Mdl) (j : Nat) : List Byte :=
  match s.job j with
  | some x => if x.catalogue.isSome then [] else
      match (Table.get Prog.none s.host.programs x.plan).image with
      | some im => im.bytes
      | none => []
  | none => []

/-- Each core's control engine takes the macro-operation's glue segment into its instruction memory and starts it (R221). -/
def Mdl.loadGlue (s : Mdl) (d c job glue : Nat) : Mdl :=
  if glue = 0 then s
  else
    let code := ((s.planBytes job).drop glue).take 16384
    (s.logCores d c).foldl (fun (s : Mdl) k =>
      let y := s.core d c k
      (s.setCore d c k { y with ce := { y.ce with code := Memory.writeBytes [] 0 code } }).setReg (Reg.SEQ_CORE_CE_BUSY d c k) 1) s

/-- The sequencer takes a macro-operation, the head of its queue, or one put to it directly while none waits (R229); it is
decoded, checked, and walked (R228 to R249). Opcodes other than the command's are not taken, but an undefined one is (code
0x01). A walk that meets a far or moving page, or reads remote bytes, begins once they are there: until then only the promotion, or the
requests to the holder, happen (R328, R337, R347; log entry 16). -/
def Mdl.macroOp (s : Mdl) (op d c : Nat) (desc : BitVec 1024) : Mdl :=
  let x := Macro.of desc
  let y := s.cluster d c
  let entry : MacroEntry := { y.queue.head?.getD ⟨desc, y.job.getD 4096, y.acct, 0⟩ with seq := y.issued + 1 }
  if entry.desc != desc || !s.canStart d c entry.job x || (x.op != op && decide (1 ≤ x.op) && decide (x.op ≤ 9)) then s
  else
    let early := y.early ++ y.cur.toList
    let at0 := s
    let run : MacroRun := { MacroRun.begin entry with chain := if x.toChain then some ⟨entry.job, x.m, x.n, x.fc, []⟩ else none }
    let s := s.putCluster d c { y with queue := y.queue.tail, cur := some run, early := early, issued := y.issued + 1 }
    let s := s.setRegs [(Reg.SEQ_WALK_BATCH d c, 0), (Reg.SEQ_WALK_M_TILE d c, 0), (Reg.SEQ_WALK_N_TILE d c, 0), (Reg.SEQ_WALK_K_TILE d c, 0)]
    match s.decodeErr d c entry.job x with
    | some code => s.faultMacro d c .computeResourceFault code
    | none =>
      let s := s.loadGlue d c entry.job x.glue
      let cls := ((s.job entry.job).map (·.cls)).getD 0
      let w : Accessor := ⟨some d, if entry.job < 4096 then some entry.job else none, x.tagLayer, s.reg (Reg.SCH_CLASS_TRAFFIC cls), .walk d c entry.seq⟩
      let r : At := ⟨d, c, w, entry.acct, x, early.reverse.map fun m => ((Macro.of m.entry.desc).op == 9, m.old)⟩
      match s.startRun r (if x.op = 2 then y.chain else none) with
      | .ok s => ((s.spendReads r).dropMacroLines d c).updRun r fun m =>
        { m with wrote := [], old := Memory.changes (at0.mem.length + s.mem.length + 1) at0.mem s.mem }
      | .error (.code n, s) => s.faultMacro d c .computeResourceFault n
      | .error (.page f, s) => s.endRun d c entry f.status 0 f.kind
      | .error (.wait f len, s) =>
        (at0.beginWait w entry.acct f).getD
          (let s := s.recordPage .quota entry.acct f.addr
          if len then s.faultMacro d c .computeResourceFault 0x0B else s.endRun d c entry .memoryQuotaExceeded 0 PageFault.quota.kind)

/-! ### The end of a macro-operation -/

/-- Are the rows of a cluster done with the macro-operations that `of` names: no total to write, no bank in use, no drained row to write (R230), and
with `due`, no pass due? -/
def Mdl.rowsDone (s : Mdl) (d c : Nat) (of : Nat → Bool) (due : Bool) : Bool := (List.range 9).all fun k =>
  let x := s.core d c k
  x.passes.all (fun q => q.over || !of q.entry.seq) && !(due && x.due.isSome) && [x.bank0, x.bank1].all (fun b => b.state == .free || !of b.owner)
    && x.drained.all fun r => !of r.entry.seq

/-- What a glue segment of the run has done (R222): an access outside its core's plates, the cluster store or the account's range ends the
macro-operation (code 0x21). -/
def Mdl.glueEffect (s : Mdl) (d c : Nat) (m : MacroRun) (e : GlueEffect) : Run :=
  let cores := s.logCores d c
  let cls := ((s.job m.entry.job).map (·.cls)).getD 0
  let w : Accessor := ⟨some d, if m.entry.job < 4096 then some m.entry.job else none, (Macro.of m.entry.desc).tagLayer, s.reg (Reg.SCH_CLASS_TRAFFIC cls),
    .walk d c m.entry.seq⟩
  let on := fun (core : Nat) (f : CoreSt → CoreSt) => match cores[core]? with
    | some k => Except.ok (s.setCore d c k (f (s.core d c k)))
    | none => .ok s
  match e with
  | .plates core o l => match cores[core]? with
    | some k => if o + l.length ≤ 3 * 2 ^ 19 then .ok (s.platesWrite d c k o l) else
        .error (.code 0x21, s.setReg (Reg.SEQ_CORE_CE_LAST_FAULT d c k) 2)
    | none => .ok s
  | .store o l => if o + l.length ≤ 2 ^ 23 then .ok (s.storeWrite d c o l) else .error (.code 0x21, s)
  | .memory a l =>
    if a + l.length ≤ 2 ^ 47 then s.ranTo m.entry.acct (s.storeBytes w m.entry.acct a l) else .error (.code 0x21, s)
  | .scalar core n v => on core fun y => { y with ce := { y.ce with scalar := Table.set 0 y.ce.scalar (n % 32) (v % 2 ^ 64) } }
  | .vector core n v => on core fun y => { y with ce := { y.ce with vector := Table.set 0 y.ce.vector (n % 32) (v % 2 ^ 512) } }

/-- Has a job Limuc requests under way (R637)? -/
def Mdl.requestsOpen (s : Mdl) (j : Nat) : Bool := match s.job j with
  | some j => j.issued != j.completed
  | none => false

/-- MACRO_COMPLETE (R230, R253, R314, R637): the oldest macro-operation in progress completes once its passes are over, its glue segment, which waits
for no semaphore (R417), has made its writes, and its Limuc requests have completed, those of its glue segment too. -/
def Mdl.macroComplete (s : Mdl) (d c : Nat) (effects : List GlueEffect) : Mdl :=
  let y := s.cluster d c
  match y.early.head?.or y.cur with
  | none => s
  | some m =>
    let glue := (Macro.of m.entry.desc).glue != 0 && !m.glueDone
    if s.requestsOpen m.entry.job || !s.rowsDone d c (· == m.entry.seq) y.early.isEmpty || (glue && s.clusterWaits d c) then s
    else match foldRun (fun s e => s.glueEffect d c m e) s (if glue then effects else []) with
      | .error (.code n, s) => s.faultRun d c m.entry .computeProgramFault n
      | .error (.page f, s) => s.endRun d c m.entry f.status 0 f.kind
      | .error (.wait f _, t) =>
        (s.beginWait ⟨some d, none, (Macro.of m.entry.desc).tagLayer, 0, .walk d c m.entry.seq⟩ m.entry.acct f).getD
          ((t.recordPage .quota m.entry.acct f.addr).endRun d c m.entry .memoryQuotaExceeded 0 PageFault.quota.kind)
      | .ok s =>
        let y := s.cluster d c
        if s.requestsOpen m.entry.job then s.setCluster d c (y.updOldest fun m => { m with glueDone := true })
        else
        let s := (s.addScaleCounts m).count (Reg.SEQ_MACROS_COMPLETED d c)
        let left := y.early.tail ++ (if y.early.isEmpty then [] else y.cur.toList)
        let s := if left.all (fun m => (Macro.of m.entry.desc).glue == 0) then
            (List.range 9).foldl (fun s k => s.setReg (Reg.SEQ_CORE_CE_BUSY d c k) 0) s
          else s
        (s.putCluster d c { y with cur := if y.early.isEmpty then none else y.cur, early := y.early.tail, chain := m.chain }).workDone d c

/-- MACRO_FAULT: the macro-operation in progress ends with a status of Table 5-7 (R233, R241). -/
def Mdl.macroFault (s : Mdl) (d c code : Nat) : Mdl :=
  let st := if code = 0x20 then Status.computeHardwareFault else if code = 0x21 then .computeProgramFault
    else if code = 0x22 then .commandInterrupted else .computeResourceFault
  if (s.cluster d c).cur.isNone then s else s.faultMacro d c st code

/-! ### Marks and context saves (R272 to R278, R145, R411) -/

/-- Is a bank of a cluster's cores in ACCUM? -/
def Mdl.anyAccum (s : Mdl) (d c : Nat) : Bool :=
  (List.range 9).any fun k => (s.core d c k).bank0.state == .accum || (s.core d c k).bank1.state == .accum

/-- Marks of a walk of so many tiles: after every MARK_EVERY-th, and after the last with MARK_END (R272). -/
def Macro.marks (x : Macro) (tiles : Nat) : Nat :=
  let inside := if x.every = 0 then 0 else tiles / x.every
  inside + (if bit x.flags 1 && decide (0 < tiles) && !(x.every != 0 && tiles % max 1 x.every == 0) then 1 else 0)

/-- Live partitions of a logical core at a mark, by their numbers in its set, with their bytes: those of LIVE, and the chain buffer while a chain is
open (R274). -/
def liveParts (ps : List Part) (live : Nat) (chain : Bool) : List (Nat × Nat) :=
  (ps.zipIdx.filter fun q => bit live q.2 || (chain && q.1.use == 4)).map fun q => (q.2, 4096 * q.1.size)

/-- What partitions of a set on a physical core hold. -/
def Mdl.partsHold (s : Mdl) (d c k : Nat) (ps : List Part) (l : List (Nat × Nat)) : List Byte :=
  l.flatMap fun q => (List.range q.2).map fun i => s.platesByte d c k (4096 * (ps.getD q.1 ⟨0, 0, 0⟩).base + i)

/-- What a context save keeps of the i-th logical core (R275): its live partitions go to its save area when that area exists, holds no other
context and is large enough. -/
def Mdl.savedCore (s : Mdl) (d c i : Nat) : SavedCore :=
  let y := s.cluster d c
  let x := s.core d c ((s.logCores d c).getD i 0)
  let ps := s.partsOf d c i
  let parts := liveParts ps ((y.cur.map fun m => (Macro.of m.entry.desc).live).getD 0) y.chain.isSome
  let n := parts.foldl (fun n p => n + p.2) 0
  ⟨parts, decide (0 < partBytes ps 7) && decide (n ≤ partBytes ps 7) && x.saveOwner.isNone && decide (0 < n), x.ce⟩

/-- Save a cluster's context (R274 to R276): the record, then each core's live partitions, into its save area or else into the context slot, in
the job's traffic class (R419); a page fault ends the job (R411). The record's bytes are free values, since its layout is not in this
manual; the walk and queue positions and the control engines' registers that it holds are kept with the job. While the slot's pages are on their
way to HBM, nothing else has happened since `before`. -/
def Mdl.saveContext (s before : Mdl) (d c j : Nat) (x : Job) (i : Nat) : Mdl :=
  let cores := s.logCores d c
  let sets := (List.range cores.length).map (s.savedCore d c)
  let held := sets.zipIdx.map fun v => (v.1, cores.getD v.2 0, s.partsHold d c (cores.getD v.2 0) (s.partsOf d c v.2) v.1.parts)
  let total := sets.foldl (fun n v => n + v.bytes / 1024) 0
  let cycles := sets.foldl (fun n v => max n (if v.inArea then v.bytes / 1024 else v.bytes / 64)) 0
  let rec_ := s.freshBytes 4096
  let body := held.flatMap fun v => if v.1.inArea then [] else v.2.2
  let who : Accessor := ⟨some d, some j, none, s.reg (Reg.SCH_CLASS_TRAFFIC x.cls), .job j⟩
  let ended := fun (f : PageFault) (addr : Nat) => (s.recordPage f x.acct addr).endMacro d c f.status 0 f.kind
  match rec_.2.storeBytes who x.acct ((x.contextSlot i).getD 0) (rec_.1 ++ body) with
  | .error (.fault f addr) => ended f addr
  | .error (.wait f) => (before.beginWait who x.acct f).getD (ended .quota f.addr)
  | .ok s =>
    let s := held.foldl (fun (s : Mdl) v =>
      let s := if v.1.inArea then
          let s := s.partWrite d c v.2.1 7 0 v.2.2
          s.setCore d c v.2.1 { s.core d c v.2.1 with saveOwner := some j }
        else s
      s.setReg (Reg.SEQ_CORE_CE_BUSY d c v.2.1) 0) s
    (s.putCluster d c { s.cluster d c with saving := some ⟨j, sets⟩ }).setRegs
      [(Reg.SEQ_SAVE_LAST_KIB d c, total), (Reg.SEQ_SAVE_LAST_CYCLES d c, cycles)]

/-- MARK_REACHED (R272 to R274, R145): the next mark of the macro-operation in progress. With a bank in ACCUM it is passed over. Else a
quiesce or a pre-emption that waits takes it once the drains have ended; a pre-emption only when its job holds no semaphore (R411). -/
def Mdl.markReached (s : Mdl) (d c : Nat) : Mdl :=
  let y := s.cluster d c
  match y.cur with
  | none => s
  | some m =>
    if y.saving.isSome || s.flag (Reg.EYE_STATUS_HALTED d c) || decide ((Macro.of m.entry.desc).marks m.tiles ≤ m.marks) then s
    else
      let next := s.setCluster d c { y with cur := some { m with marks := m.marks + 1 } }
      if s.anyAccum d c then next.count (Reg.SEQ_MARKS_PASSED d c)
      else if !(y.quiesce || y.preempt) then next
      else if !s.rowsDone d c (fun _ => true) true then s
      else if y.quiesce then (next.count (Reg.SEQ_MARKS_TAKEN d c)).faultMacro d c .commandInterrupted 0x22
      else match y.job with
        | some j => match (s.job j).bind fun x => (x.workOn d c).map fun i => (x, i) with
          | some (x, i) =>
            if !(s.semsOf j).isEmpty then next
            else ((next.count (Reg.SEQ_MARKS_TAKEN d c)).countSat Reg.SCH_PREEMPT_TAKEN).saveContext s d c j x i
          | none => s
        | none => s

/-- CONTEXT_SAVE_DONE: the context is saved, and the cluster is free (R408, R411, R414). Credits that the job has drawn go back to its pool: its
requests that wait to be injected are taken back, and made again on resuming (R419), as is an acquire that waits. -/
def Mdl.contextSaveDone (s : Mdl) (d c : Nat) : Mdl :=
  let y := s.cluster d c
  match y.saving with
  | some v =>
    if !y.early.isEmpty then s
    else
    let s := match (s.job v.job).bind fun x => (x.workOn d c).map fun i => (x, i) with
      | some (x, i) => s.setJob v.job (some (x.setWork i fun w => { w with
          state := .saved (clusterKey d c) (v.cores.any (·.inArea)), macros := y.queue.map MacroEntry.desc, cur := y.cur, chain := y.chain
          cores := v.cores }))
      | none => s
    ((((s.dropWaits d c).dropMacroLines d c).putCluster d c
      { y with saving := none, cur := none, queue := [], job := none, chain := none, preempt := false, preemptBy := none }).parkRequests v.job).checkPreempt
  | none => s

/-! ### Compensated adds and the Eyepiece -/

/-- COMPENSATED_ADD at the near-memory unit (R320, R323); one to a far page waits for its promotion, and the add is sent again (R348). -/
def Mdl.compensatedAddAt (s : Mdl) (acct addr v : Nat) : Mdl :=
  let w : Accessor := .of .page
  match s.pairAdd w acct addr v with
  | .ok s => s
  | .error (.fault f addr) => s.recordPage f acct addr
  | .error (.wait f) => (s.beginWait w acct f).getD (s.recordPage .quota acct addr)

/-- May the Eyepiece be used in a cluster (R279)? -/
def Mdl.eyeAllowed (s : Mdl) (d c : Nat) : Bool := s.flag (Reg.EYE_STATUS_ENABLED d c) && s.reg Reg.SVC_STATUS_DEBUG == 1

/-- Is the row of a cluster empty: no core running or frozen, and no bank in DRAIN? -/
def Mdl.rowsEmpty (s : Mdl) (d c : Nat) : Bool :=
  (List.range 9).all fun k =>
    let st := s.reg (Reg.SEQ_CORE_STATUS_STATE d c k)
    st != 1 && st != 2

/-- EYE_CTRL.HALT is written 1 (R280, R282): HALTED follows when the row is empty. -/
def Mdl.eyeHalt (s : Mdl) (d c : Nat) : Mdl :=
  if s.eyeAllowed d c then s.setReg (Reg.EYE_CTRL_HALT d c) 1 else s.setReg (Reg.EYE_STATUS_REFUSED d c) 1

/-- A chart comes into force: every halt ends (R283), and no row of an accumulator file has been written since (R281). -/
def Mdl.eyeRelease (s : Mdl) : Mdl :=
  let s : Mdl := { s with cores := (s.cores.map fun p => (p.1, { p.2 with accRows := 0 })).filter fun p => p.2 != .init }
  (List.range 4).foldl (fun s d => (List.range 26).foldl (fun (s : Mdl) c =>
    if s.flag (Reg.EYE_CTRL_HALT d c) || s.flag (Reg.EYE_STATUS_HALTED d c) then
      (s.setRegs [(Reg.EYE_CTRL_HALT d c, 0), (Reg.EYE_STATUS_HALTED d c, 0)]).showSeq d c
    else s) s) s

/-- EYE_CTRL.HALT is written 0 (R280, R282). -/
def Mdl.eyeResume (s : Mdl) (d c : Nat) : Mdl :=
  if s.eyeAllowed d c then (s.setRegs [(Reg.EYE_CTRL_HALT d c, 0), (Reg.EYE_STATUS_HALTED d c, 0)]).showSeq d c
  else s.setReg (Reg.EYE_STATUS_REFUSED d c) 1

/-- The row of a halting cluster empties (R280). -/
def Mdl.eyeHalted (s : Mdl) (d c : Nat) : Mdl :=
  let s := (List.range 9).foldl (fun s k => s.rowSettle d c k) s
  if s.flag (Reg.EYE_CTRL_HALT d c) && s.rowsEmpty d c then (s.setReg (Reg.EYE_STATUS_HALTED d c) 1).showSeq d c else s

/-- A read of EYE_DATA[lane] (R279, R281, R282): a row not written since the chart came into force reads as zero. While EYE_SELECT.CORE holds 9 to 15, which names no core (R12), it returns a free value (DESIGN
CHOICE, assumption log entry 55). -/
def Mdl.eyeRead (s : Mdl) (d c lane : Nat) : Nat × Mdl :=
  let core := s.reg (Reg.EYE_SELECT_CORE d c)
  let row := s.reg (Reg.EYE_SELECT_ROW d c)
  if !s.flag (Reg.EYE_STATUS_HALTED d c) || !s.eyeAllowed d c then (2 ^ 32 - 1, s.setReg (Reg.EYE_STATUS_REFUSED d c) 1)
  else if 8 < core then s.fresh 32
  else if !(s.core d c core).rowWritten row then (0, s)
  else ((s.accCell d c core (row * 64 + lane)).toNat, s)

end Sys2Proof.Machine
end

