-- ==== Sys2Proof/Machine/Serving.lean ====
section
/-! DEFINITION. Serving groups, the sequence table and the build (R372 to R401). -/
namespace Sys2Proof.Machine

def Mdl.group (s : Mdl) (g : Nat) : GroupSt := Table.get .init s.sch.groups g
def Mdl.setGroup (s : Mdl) (g : Nat) (x : GroupSt) : Mdl :=
  { s with sch := { s.sch with groups := Table.set .init s.sch.groups g x } }
def Mdl.seq (s : Mdl) (i : Nat) : SeqEntry := Table.get .init s.sch.seqs i
def Mdl.setSeq (s : Mdl) (i : Nat) (x : SeqEntry) : Mdl :=
  { s with sch := { s.sch with seqs := Table.set .init s.sch.seqs i x } }

/-! ### Shape of a group (R373 to R377) -/

def Mdl.grpAcct (s : Mdl) (g : Nat) : Nat := s.reg (Reg.SQT_GRP_CFG_ACCOUNT g)
def Mdl.setPages (s : Mdl) (g : Nat) : Nat := max 1 (s.reg (Reg.SQT_GRP_SHAPE_SET_PAGES g))
/-- sets(L) (R373). -/
def Mdl.setsFor (s : Mdl) (g l : Nat) : Nat := ceilDiv l (max 1 (s.reg (Reg.SQT_GRP_CFG_TOKENS_PER_PAGE g)))
/-- Sets a sequence can hold (R374). -/
def Mdl.maxSets (s : Mdl) (g : Nat) : Nat := 1024 / s.setPages g
/-- Page number of a pool page (R373). -/
def Mdl.poolPage (s : Mdl) (g p : Nat) : Nat := s.reg (Reg.SQT_GRP_KV_BASE_ADDR g) / pageBytes + p
/-- HOME of page k of a set: the k-th die of SET_DIES (R373). -/
def Mdl.setHome (s : Mdl) (g k : Nat) : Option Nat :=
  (((List.range 4).filter (bit (s.reg (Reg.SQT_GRP_SHAPE_SET_DIES g))))[k]?).bind fun l => s.logDies[l]?

/-- The checks at a group's safe point (R377). -/
def Mdl.groupOk (s : Mdl) (g : Nat) : Bool :=
  let sp := s.reg (Reg.SQT_GRP_SHAPE_SET_PAGES g)
  let dies := (List.range 4).filter (bit (s.reg (Reg.SQT_GRP_SHAPE_SET_DIES g)))
  let jl := s.reg (Reg.SQT_GRP_SHAPE_JOIN_LOG2 g)
  let el := s.reg (Reg.SQT_GRP_SHAPE_EVENT_LOG2 g)
  let area := fun (a n : Nat) => a % 4096 == 0 && decide (a + n ≤ 2 ^ 47)
  s.reg (Reg.SQT_GRP_CFG_TOKENS_PER_PAGE g) != 0
    && decide (1 ≤ sp) && decide (sp ≤ 4) && decide (sp ≤ dies.length) && dies.all (fun l => decide (l < s.logDies.length))
    && decide (4 ≤ jl) && decide (jl ≤ 14) && decide (4 ≤ el) && decide (el ≤ 14)
    && s.reg (Reg.SQT_GRP_SHAPE_POOL_PAGES g) != 0 && s.grpAcct g != 0xFFFF
    && s.reg (Reg.SQT_GRP_KV_BASE_ADDR g) % pageBytes == 0
    && decide (s.reg (Reg.SQT_GRP_KV_BASE_ADDR g) + s.reg (Reg.SQT_GRP_SHAPE_POOL_PAGES g) * pageBytes ≤ 2 ^ 47)
    && area (s.reg (Reg.SQT_GRP_LIST_ADDR g)) 65536 && area (s.reg (Reg.SQT_GRP_PAGES_ADDR g)) (16384 * 4096)
    && area (s.reg (Reg.SQT_GRP_JOIN_ADDR g)) (32 * 2 ^ jl) && area (s.reg (Reg.SQT_GRP_EVENT_ADDR g)) (16 * 2 ^ el)

/-- A group's structural registers have taken new values at its safe point, and are checked (R377). -/
def Mdl.groupSettle (s : Mdl) (g : Nat) : Mdl :=
  if s.groupOk g then s.setReg (Reg.SQT_GRP_STATUS_STATE g) (b2n (s.flag (Reg.SQT_GRP_CFG_ENABLE g)))
  else s.setRegs [(Reg.SQT_GRP_CFG_ENABLE g, 0), (Reg.SQT_GRP_STATUS_STATE g, 0), (Reg.SQT_GRP_STATUS_CFG_ERR g, 1)]

/-- A group in legacy direct mode takes its registers as they stand (R133): they are checked where they enable it. -/
def Mdl.groupFollow (s : Mdl) (g : Nat) : Mdl :=
  if s.flag (Reg.SQT_GRP_CFG_ENABLE g) then s.groupSettle g else s.setReg (Reg.SQT_GRP_STATUS_STATE g) 0

/-- Is every sequence-table entry of a group FREE (R375)? -/
def Mdl.groupEmpty (s : Mdl) (g : Nat) : Bool := s.sch.seqs.all fun p => p.2.group != g || p.2.state == .free

/-! ### Entries and rings -/

/-- Put a pair into a list sorted by admission epoch, after those of its epoch. -/
def insertSeq (x : Nat × SeqEntry) : List (Nat × SeqEntry) → List (Nat × SeqEntry)
  | [] => [x]
  | y :: t => if x.2.admitEpoch < y.2.admitEpoch then x :: y :: t else y :: insertSeq x t

/-- Entries of a group in given states, in the order of R383. -/
def Mdl.byShare (s : Mdl) (g : Nat) (p : SeqState → Bool) : List Nat :=
  ((s.sch.seqs.filter fun q => q.2.group == g && p q.2.state).foldl (fun l x => insertSeq x l) []).map (·.1)

/-- The batch of a group (R389). -/
def SeqState.inBatch : SeqState → Bool
  | .running | .stalled | .returning => true
  | _ => false
def Mdl.batchOf (s : Mdl) (g : Nat) : Nat := (s.sch.seqs.filter fun q => q.2.group == g && q.2.state.inBatch).length
def Mdl.batchRoom (s : Mdl) (g : Nat) : Bool :=
  decide (s.batchOf g < s.reg (Reg.SQT_GRP_LIMITS_MAX_BATCH g)) && decide ((s.sch.seqs.filter fun q => q.2.state.inBatch).length < 1024)

/-- Room in the event ring (R399). -/
def Mdl.eventRoom (s : Mdl) (g : Nat) : Bool :=
  (s.reg (Reg.SQT_GRP_PTR_EVENT_TAIL g) + 1) % 2 ^ s.reg (Reg.SQT_GRP_SHAPE_EVENT_LOG2 g) != s.reg (Reg.SQT_GRP_PTR_EVENT_HEAD g)

/-- How a group's step builder accesses memory. -/
def grpReader (g : Nat) : Accessor := .of (.group g)

/-- An access of a group's step builder that does not take place: it waits, and with it the build (`waits`); or its page fault is recorded. -/
def Mdl.groupEnd (s : Mdl) (g : Nat) (e : AccessEnd) : Mdl :=
  let a := s.grpAcct g
  match e with
  | .fault f addr => s.recordPage f a addr
  | .wait f =>
    if (s.beginWait (grpReader g) a f).isNone then s.recordPage .quota a f.addr
    else s.setGroup g { s.group g with waits := (s.group g).waits.or (some f) }

/-- Store to the group's account, as far as its pages allow. -/
def Mdl.groupStore (s : Mdl) (g addr : Nat) (l : List Byte) : Mdl :=
  match s.storeBytes (grpReader g) (s.grpAcct g) addr l with
  | .ok s => s
  | .error e => s.groupEnd g e

/-- Write an event record (Table 8-6). -/
def Mdl.seqEvent (s : Mdl) (g sequence entry kind reason generated : Nat) : Mdl :=
  let t := s.reg (Reg.SQT_GRP_PTR_EVENT_TAIL g)
  let s := s.groupStore g (s.reg (Reg.SQT_GRP_EVENT_ADDR g) + 16 * t)
    (leBytes 4 sequence ++ leBytes 2 entry ++ leBytes 1 kind ++ leBytes 1 reason ++ leBytes 4 generated ++ leBytes 4 (s.epoch % 2 ^ 32))
  s.setReg (Reg.SQT_GRP_PTR_EVENT_TAIL g) ((t + 1) % 2 ^ s.reg (Reg.SQT_GRP_SHAPE_EVENT_LOG2 g))

/-! ### Page sets (R374, R385) -/

/-- Pool pages of a group in use. -/
def Mdl.poolUsed (s : Mdl) (g : Nat) : List Nat :=
  (s.group g).pending ++ (s.sch.seqs.filter fun q => q.2.group == g).flatMap fun q => q.2.pages

/-- Reserve `n` further pool pages for an entry (R385): each one mapped on its HOME die, zero-filled, pinned and named in the
page list; the lowest free pool page first (DESIGN CHOICE, assumption log entry 17). A frame that R336 would give on another die than the HOME die
provides none (DEDUCED, assumption log entry 59). -/
def Mdl.reservePages (s : Mdl) (g i : Nat) : Nat → Option Mdl
  | 0 => some s
  | n + 1 =>
    let e := s.seq i
    let used := s.poolUsed g
    let p := firstNotIn used (used.length + 1) 0
    let a := s.grpAcct g
    let v := s.poolPage g p
    if s.reg (Reg.SQT_GRP_SHAPE_POOL_PAGES g) ≤ p then none
    else
      let home := s.setHome g (e.pages.length % s.setPages g)
      match s.mapHbm a v home true with
      | .done s =>
        if home.any (· != (s.page a v).pdie) then none else
        let s := s.setPage a v { s.page a v with pin := true }
        let s := s.groupStore g (s.reg (Reg.SQT_GRP_PAGES_ADDR g) + 4096 * i + 4 * e.pages.length) (leBytes 4 p)
        Mdl.reservePages (s.setSeq i { e with pages := e.pages ++ [p], held := e.held + 1 }) g i n
      | _ => none

/-- Raise HELD. -/
def Mdl.addHeld (s : Mdl) (g n : Nat) : Mdl := s.setReg (Reg.SQT_GRP_STATUS_HELD g) (s.reg (Reg.SQT_GRP_STATUS_HELD g) + n)

/-- The next tokens of a sequence (R384). -/
def Mdl.nextTokens (s : Mdl) (g : Nat) (e : SeqEntry) : Nat :=
  if e.consumed < e.promptLen then min (s.reg (Reg.SQT_GRP_LIMITS_PREFILL_CHUNK g)) (e.promptLen - e.consumed) else 1

/-- List an entry for the coming step. -/
def Mdl.listSeq (s : Mdl) (g i : Nat) : Mdl :=
  let e := s.seq i
  let s := s.setSeq i { e with state := .running, stall := 0, newTokens := s.nextTokens g e }
  let q := s.group g
  s.setGroup g { q with listed := q.listed ++ [i] }

/-- Pages of a sequence that are in HBM are to leave it (R340, R386). -/
def Mdl.sendPages (s : Mdl) (a : Nat) (vs : List Nat) : Mdl := vs.foldl (fun (s : Mdl) v =>
  let x := s.page a v
  if x.state = .hbm ∧ ¬ x.leaving then s.sendFar (pageKey a v, { x with pin := false }) else s) s

/-- Swap a sequence out (R386): its pages are unpinned and leave HBM. -/
def Mdl.swapOut (s : Mdl) (g i : Nat) : Mdl :=
  let e := s.seq i
  let a := s.grpAcct g
  let s := s.sendPages a (e.pages.map (s.poolPage g))
  (s.setSeq i { e with state := .swapping, stall := 0 }).countSat (Reg.SQT_GRP_STEPS_SWAPS g)

/-- A swapping sequence's last far write ends: SWAPPED; its frames join the pending releases (R386, R390). -/
def Mdl.swapOutDone (s : Mdl) (i : Nat) : Mdl :=
  let e := s.seq i
  if e.state ≠ .swapping then s
  else s.whole (0x0800 + e.group) (.swapOut i) fun s =>
    let g := e.group
    let a := s.grpAcct g
    let s := s.sendPages a (e.pages.map (s.poolPage g))
    if e.pages.any (fun p => (s.page a (s.poolPage g p)).state == .hbm) then s
    else
      let q := s.group g
      (s.setGroup g { q with pendingHeld := q.pendingHeld + e.held }).setSeq i { e with state := .swapped, held := 0 }

/-- Promote a sequence's far pages at the step builder's priority (R387), and pin them and those that are in HBM. -/
def Mdl.promoteSeq (s : Mdl) (g : Nat) (a : Nat) : List Nat → Option Mdl
  | [] => some s
  | p :: t =>
    let v := s.poolPage g p
    if (s.page a v).state = .far then
      (s.beginPromote a v none .almanac true).bind fun s =>
        Mdl.promoteSeq (s.setPage a v { s.page a v with pin := true }) g a t
    else Mdl.promoteSeq (if (s.page a v).state = .hbm then s.setPage a v (s.page a v).pinned else s) g a t

/-- A swapped sequence returns (R387). -/
def Mdl.returnSeq (s : Mdl) (g i need : Nat) : Option Mdl :=
  let e := s.seq i
  (s.promoteSeq g (s.grpAcct g) e.pages).bind fun s =>
    (s.setSeq i { e with state := .returning, held := e.pages.length }).reservePages g i (need - e.pages.length)

/-- A returning sequence whose last page has reached HBM is RUNNING, its pages pinned (R379, R387). -/
def Mdl.returned (s : Mdl) : Mdl :=
  s.sch.seqs.foldl (fun s q =>
    let a := s.grpAcct q.2.group
    if q.2.state = .returning && !s.mixed (0x0800 + q.2.group) && q.2.pages.all (fun p => (s.page a (s.poolPage q.2.group p)).state == .hbm) then
      let s := q.2.pages.foldl (fun (s : Mdl) p => let v := s.poolPage q.2.group p; s.setPage a v (s.page a v).pinned) s
      s.setSeq q.1 { q.2 with state := .running }
    else s) s

/-- COUDE_READ_DONE (R337, R354, R387). -/
def Mdl.coudeReadDone (s : Mdl) : Mdl := s.coudeArrive.returned

/-! ### collect() (R391 to R395, R400, R401) -/

/-- A sequence leaves with a reason (Table 8-2). -/
def Mdl.leaveSeq (s : Mdl) (i reason : Nat) : Mdl :=
  s.setSeq i { s.seq i with state := .leaving, reason := reason, leaveWritten := false, cancel := false }

/-- Is a prompt chunk that is not the last one listed for the entry (Table 8-4)? -/
def SeqEntry.midPrompt (e : SeqEntry) : Bool := decide (e.consumed < e.promptLen) && decide (e.consumed + e.newTokens < e.promptLen)

/-- OUT_ADDR as the work list gives it (Table 8-4): 0 where the chunk is not the prompt's last. -/
def SeqEntry.outAt (e : SeqEntry) : Nat := if e.midPrompt then 0 else e.outAddr + 4 * e.generated

/-- What a successful step returns for a listed entry (R391). -/
def Mdl.collectEntry (s : Mdl) (g k i : Nat) : Mdl :=
  let e := s.seq i
  match s.loadBytes (grpReader g) (s.grpAcct g) (s.reg (Reg.SQT_GRP_LIST_ADDR g) + 0x40 + 32 * k + 7) 1 with
  | .error e => s.groupEnd g e
  | .ok (l, s) =>
  let r := l.headD 0xFF
  if e.state ≠ .running then s
  else if r = 0 ∨ r = 1 then
    let s := s.setSeq i { e with
      length := e.length + e.newTokens
      consumed := if e.consumed < e.promptLen then e.consumed + e.newTokens else e.consumed
      generated := if e.outAt = 0 then e.generated else e.generated + 1
      stepped := true }
    if r = 1 then s.leaveSeq i 1 else s
  else s.leaveSeq i 4

/-- The last step's results (R391, R393, R394). -/
def Mdl.collectStep (s : Mdl) (g : Nat) : Mdl :=
  let q := s.group g
  let s := s.setGroup g { q with listed := [], stepEnd := none }
  match q.stepEnd with
  | none => s
  | some .success =>
    ((List.range q.listed.length).foldl (fun s k => s.collectEntry g k (q.listed.getD k 0)) s).setReg (Reg.SQT_GRP_STATUS_FAILS g) 0
  | some .commandInterrupted => s
  | some _ =>
    let s := (s.countSat (Reg.SQT_GRP_STATUS_FAILS g)).countSat (Reg.SQT_GRP_STEPS_FAILED g)
    if s.reg Reg.SQT_CTRL_FAIL_LIMIT ≤ s.reg (Reg.SQT_GRP_STATUS_FAILS g) then s.setReg (Reg.SQT_GRP_STATUS_STATE g) 2 else s

/-- A leaver's event is written when the ring has room, and its pages join the pending releases, held until the next build frees them with the entry
(R379, R395). -/
def Mdl.writeLeave (s : Mdl) (g i : Nat) : Mdl :=
  let e := s.seq i
  if e.leaveWritten || !s.eventRoom g then s
  else
    let s := s.seqEvent g e.sequence i 2 e.reason e.generated
    let q := s.group g
    (s.setGroup g { q with pending := q.pending ++ e.pages, pendingEntries := q.pendingEntries ++ [i]
                           pendingHeld := q.pendingHeld + e.held }).setSeq i { e with leaveWritten := true, held := 0 }

/-- Which sequences leave besides those of the last step (R392, R400, R401). -/
def Mdl.leavers (s : Mdl) (g : Nat) : Mdl :=
  (s.byShare g fun _ => true).foldl (fun s i =>
    let e := s.seq i
    let a := s.grpAcct g
    let lost := e.pages.any fun p => (s.page a (s.poolPage g p)).state == .lost
    match e.state with
    | .free | .leaving => s
    | .swapping => if lost then s.leaveSeq i 5 else s
    | st =>
      if e.cancel then s.leaveSeq i 3
      else if lost then s.leaveSeq i 5
      else if st = .running ∧ (e.maxNew ≤ e.generated ∨ s.maxSets g < s.setsFor g (e.length + 1)) then s.leaveSeq i 2
      else s) s

/-- collect(g). -/
def Mdl.collect (s : Mdl) (g : Nat) : Mdl :=
  let s := (s.collectStep g).leavers g
  (s.byShare g (· == .leaving)).foldl (fun s i => s.writeLeave g i) s

/-- Release what earlier builds left pending (R390). -/
def Mdl.releasePending (s : Mdl) (g : Nat) : Mdl :=
  let q := s.group g
  let a := s.grpAcct g
  let s := q.pending.foldl (fun s p => s.unmapPage a (s.poolPage g p)) s
  let s := q.pendingEntries.foldl (fun s i => s.setSeq i .init) s
  (s.setGroup g { q with pending := [], pendingEntries := [], pendingHeld := 0 }).setReg (Reg.SQT_GRP_STATUS_HELD g)
    (s.reg (Reg.SQT_GRP_STATUS_HELD g) - q.pendingHeld)

/-! ### The build (R380 to R390) -/

/-- Pages the budget still allows: none where the pages held exceed it. Even then a sequence that needs none is listed (Table 8-2). -/
def Mdl.availPages (s : Mdl) (g : Nat) : Nat :=
  s.reg (Reg.SQT_GRP_LIMITS_KV_LIMIT g) - s.reg (Reg.SQT_GRP_STATUS_HELD g)

/-- A batch entry's turn in a build: reserved and listed, or stalled, or swapped out; `avail` is the budget left. -/
def Mdl.buildEntry (s : Mdl) (g : Nat) (avail i : Nat) : Nat × Mdl :=
  let e := s.seq i
  let sets := e.pages.length / s.setPages g
  let need := (s.setsFor g (e.length + s.nextTokens g e) - sets) * s.setPages g
  let got := if need ≤ avail then s.reservePages g i need else none
  match got with
  | some s => (avail - need, (s.addHeld g need).listSeq g i)
  | none =>
    if s.reg (Reg.SQT_GRP_LIMITS_SWAP_AFTER g) ≤ e.stall + 1 then (avail, s.swapOut g i)
    else (avail, s.setSeq i { e with state := .stalled, stall := e.stall + 1 })

/-- A swapped entry's turn in a build (R387). -/
def Mdl.buildReturn (s : Mdl) (g : Nat) (avail i : Nat) : Nat × Mdl :=
  let need := s.setsFor g ((s.seq i).length + 1) * s.setPages g
  let got := if s.batchRoom g && decide (need ≤ avail) then s.returnSeq g i need else none
  match got with
  | some s => (avail - need, s.addHeld g need)
  | none => (avail, s)

/-- Joins waiting in a group's ring. -/
def Mdl.joinsWaiting (s : Mdl) (g : Nat) : Nat :=
  let n := 2 ^ s.reg (Reg.SQT_GRP_SHAPE_JOIN_LOG2 g)
  (s.reg (Reg.SQT_GRP_PTR_JOIN_TAIL g) % n + n - s.reg (Reg.SQT_GRP_PTR_JOIN_HEAD g) % n) % n

/-- Why a join descriptor is refused (R398), as REASON of Table 8-6. -/
def Mdl.badJoin (s : Mdl) (g : Nat) (l : List Byte) : Option Nat :=
  let f := fun o n => leNat ((l.drop o).take n)
  let addr := fun (a n : Nat) => a % 4 == 0 && decide (a + 4 * n ≤ 2 ^ 47)
  if f 4 4 ≠ 0 ∨ f 8 4 = 0 ∨ f 12 4 = 0 ∨ !addr (f 16 8) (f 8 4) ∨ !addr (f 24 8) (f 12 4) then some 1
  else if s.maxSets g < s.setsFor g (f 8 4 + 1) then some 2
  else none

/-- Take the descriptor at JOIN_HEAD off its ring. -/
def Mdl.popJoin (s : Mdl) (g : Nat) : Mdl :=
  s.setReg (Reg.SQT_GRP_PTR_JOIN_HEAD g) ((s.reg (Reg.SQT_GRP_PTR_JOIN_HEAD g) + 1) % 2 ^ s.reg (Reg.SQT_GRP_SHAPE_JOIN_LOG2 g))

/-- Admit a join into the lowest FREE entry (R378, R388); none when it and all behind it wait. -/
def Mdl.admitJoin (s : Mdl) (g avail : Nat) (l : List Byte) : Option (Nat × Mdl) :=
  let f := fun o n => leNat ((l.drop o).take n)
  let need := s.setsFor g (f 8 4 + 1) * s.setPages g
  let used := s.sch.seqs.map (·.1)
  let i := firstNotIn used (used.length + 1) 0
  if !s.batchRoom g || decide (16384 ≤ i) || !s.eventRoom g || decide (avail < need) then none
  else
    let e : SeqEntry := { SeqEntry.init with state := .running, group := g, sequence := f 0 4, promptLen := f 8 4, maxNew := f 12 4
                                             admitEpoch := s.epoch, promptAddr := f 16 8, outAddr := f 24 8 }
    ((s.setSeq i e).reservePages g i need).map fun s =>
      let s := (s.addHeld g need).seqEvent g e.sequence i 1 0 0
      (avail - need, (s.listSeq g i).popJoin g)

/-- Admit joins in ring order (R388, R398). -/
def Mdl.admitJoins (s : Mdl) (g avail : Nat) : Nat → Mdl
  | 0 => s
  | n + 1 =>
    match s.loadBytes (grpReader g) (s.grpAcct g) (s.reg (Reg.SQT_GRP_JOIN_ADDR g) + 32 * s.reg (Reg.SQT_GRP_PTR_JOIN_HEAD g)) 32 with
    | .error e => s.groupEnd g e
    | .ok (l, s) =>
      match s.badJoin g l with
      | some r =>
        if s.eventRoom g then Mdl.admitJoins ((s.seqEvent g (leNat (l.take 4)) 0xFFFF 3 r 0).popJoin g) g avail n else s
      | none =>
        match s.admitJoin g avail l with
        | some (avail, s) => Mdl.admitJoins s g avail n
        | none => s

/-- A work-list entry's 32 bytes (Table 8-4). -/
def SeqEntry.listBytes (e : SeqEntry) (i : Nat) : List Byte :=
  let pre := decide (e.consumed < e.promptLen)
  let last := pre && e.consumed + e.newTokens == e.promptLen
  leBytes 4 e.sequence ++ leBytes 2 i ++ leBytes 1 (b2n (!e.stepped) + 2 * b2n pre + 4 * b2n last) ++ leBytes 1 0xFF
    ++ leBytes 4 e.length ++ leBytes 4 e.newTokens
    ++ leBytes 8 (if pre then e.promptAddr + 4 * e.consumed else e.outAddr + 4 * (e.generated - 1))
    ++ leBytes 8 e.outAt

/-- Write the work-list area (Table 8-3). -/
def Mdl.writeList (s : Mdl) (g : Nat) : Mdl :=
  let l := (s.group g).listed
  let es := l.map fun i => (i, s.seq i)
  let a := s.reg (Reg.SQT_GRP_LIST_ADDR g)
  let head := leBytes 6 s.epoch ++ leBytes 2 l.length ++ leBytes 1 g ++ leBytes 1 (s.setPages g)
    ++ leBytes 2 (s.reg (Reg.SQT_GRP_CFG_TOKENS_PER_PAGE g)) ++ leBytes 4 0 ++ leBytes 8 (s.reg (Reg.SQT_GRP_KV_BASE_ADDR g))
    ++ leBytes 8 (s.reg (Reg.SQT_GRP_PAGES_ADDR g)) ++ List.replicate 32 0
  let s := s.groupStore g a (head ++ es.flatMap fun e => e.2.listBytes e.1)
  s.groupStore g (a + 0x8040) (es.flatMap fun e => leBytes 4 (e.2.length + e.2.newTokens))

/-- Hand the list to the group's step program as one execution (R403); an inactive program fails the step. While 4,096
jobs exist no number is free (R402): the step waits, and the next build lists its sequences again (DESIGN CHOICE, assumption log entry 59). -/
def Mdl.dispatchStep (s : Mdl) (g : Nat) : Mdl :=
  let prog := Table.get Prog.none s.host.programs (s.reg (Reg.SQT_GRP_CFG_PROGRAM g))
  match prog.image, prog.active with
  | some im, true =>
    let x := { Job.new (s.grpAcct g) (s.reg (Reg.SQT_GRP_CFG_JOB_CLASS g)) (leNat ((im.bytes.drop 0x0C).take 4)) im.work with
      plan := s.reg (Reg.SQT_GRP_CFG_PROGRAM g), group := some g, params := leBytes 8 (s.reg (Reg.SQT_GRP_LIST_ADDR g)) }
    match s.admitJob x with
    | some (j, s) => (s.setGroup g { s.group g with stepJob := some j }).setReg (Reg.SQT_GRP_STATUS_STEP_RUNNING g) 1
    | none => s
  | _, _ => s.setGroup g { s.group g with stepEnd := some .invalidField }

/-- One build of a group (R382); of a halted one only releases, cancellations and leaves. -/
def Mdl.buildGroup (s : Mdl) (g : Nat) : Mdl :=
  let s := (s.releasePending g).collect g
  if s.reg (Reg.SQT_GRP_STATUS_STATE g) = 2 then s
  else
    let r := (s.byShare g fun x => x == .running || x == .stalled).foldl
      (fun (r : Nat × Mdl) i => r.2.buildEntry g r.1 i) (s.availPages g, s)
    let r := (r.2.byShare g (· == .swapped)).foldl (fun (r : Nat × Mdl) i => r.2.buildReturn g r.1 i) r
    let s := if r.2.reg (Reg.SQT_GRP_STATUS_STATE g) = 3 then r.2 else r.2.admitJoins g r.1 (r.2.joinsWaiting g)
    let n := (s.group g).listed.length
    let s := s.setReg (Reg.SQT_GRP_STATUS_LISTED g) n
    let s := s.writeList g
    if n = 0 then s.countSat (Reg.SQT_GRP_STEPS_EMPTY g) else s.dispatchStep g

/-- Build a group: where an access of the build waits for a page, nothing of the build has happened yet (R328). -/
def Mdl.buildOrWait (s : Mdl) (g : Nat) : Mdl :=
  let t := s.buildGroup g
  match (t.group g).waits with
  | none => t.dropLines (· == .group g)
  | some f =>
    let s := s.setGroup g { s.group g with waits := some f }
    (s.beginWait (grpReader g) (s.grpAcct g) f).getD s

/-- A group's turn at a boundary (R380, R381, R168): overrun, held, or built; none while compute is quiesced for a chart (R147). -/
def Mdl.buildTurn (s : Mdl) (g : Nat) : Mdl :=
  if s.cht.closed then s
  else
  let s := s.setGroup g { s.group g with waits := none }
  let st := s.reg (Reg.SQT_GRP_STATUS_STATE g)
  if s.mixed (0x0800 + g) then
    if s.flag (Reg.SQT_GRP_CFG_ENABLE g) || st != 0 then s.beginHold (0x0800 + g) (.build g) else s
  else
    let s := s.returned
    let s := if s.legacy (0x0800 + g) && decide (st = 0 ∨ st = 1) && s.groupEmpty g then s.groupFollow g else s
    if s.reg (Reg.SQT_GRP_STATUS_STATE g) = 0 then s
    else if (s.group g).stepJob.isSome then s.countSat (Reg.SQT_GRP_STEPS_OVERRUN g)
    else s.buildOrWait g

/-- The builds of a boundary, in ascending group number (R380). -/
def Mdl.buildAll (s : Mdl) : Mdl := (List.range 8).foldl (fun s g => s.buildTurn g) s

/-- Builds whose accesses wait are tried again. -/
def Mdl.buildsGoOn (s : Mdl) : Mdl := (List.range 8).foldl (fun s g => if (s.group g).waits.isSome then s.buildTurn g else s) s

/-- SQT_CMD CANCEL (R400). -/
def Mdl.cancelSeq (s : Mdl) (i : Nat) : Mdl :=
  let e := s.seq i
  match e.state with
  | .free | .leaving => s
  | _ => s.setSeq i { e with cancel := true }

/-- Is a commit that clears a group's ENABLE pending (R376)? -/
def Mdl.closing (s : Mdl) (g : Nat) : Bool :=
  s.cht.commits.contains (0x800 + g) && s.flag (Reg.SQT_GRP_CFG_ENABLE g) && s.stagedValue (0x800 + g) (Reg.SQT_GRP_CFG_ENABLE g) == 0

/-- SQT_CMD RESUME (Table 8-9): a group that was halted while it closed goes on closing (R376). -/
def Mdl.resumeGroup (s : Mdl) (g : Nat) : Mdl :=
  let s := s.setReg (Reg.SQT_GRP_STATUS_FAILS g) 0
  if s.reg (Reg.SQT_GRP_STATUS_STATE g) = 2 then s.setReg (Reg.SQT_GRP_STATUS_STATE g) (if s.closing g then 3 else 1) else s

/-- An SQT_ENTRY word (Table 8-7). -/
def SeqEntry.word (e : SeqEntry) (setPages : Nat) : Nat :=
  e.state.code + e.group * 2 ^ 4 + min e.stall 255 * 2 ^ 8 + e.length % 2 ^ 20 * 2 ^ 16
    + e.pages.length / max 1 setPages % 2 ^ 12 * 2 ^ 36 + b2n e.cancel * 2 ^ 48
    + b2n (e.state != .free && decide (e.consumed < e.promptLen)) * 2 ^ 49

end Sys2Proof.Machine
end

