-- ==== Sys2Proof/Machine/Charts.lean ====
section
/-! DEFINITION. Chart banks, full and start-up loads, the option area, and the commands of coupled-field groups (R134 to R169, R711,
R712). A verification ends when time passes (Mdl.chartTick), and the waits of an erase, a program, a quiesce and an apply end
with commands of their own (assumption log entry 16). -/
namespace Sys2Proof.Machine

/-! ### Banks (R134 to R136, R711, R712) -/

def ChartSt.bank (c : ChartSt) (b : Nat) : BankStore := if b = 0 then c.bankA else c.bankB
def ChartSt.setBank (c : ChartSt) (b : Nat) (x : BankStore) : ChartSt := if b = 0 then { c with bankA := x } else { c with bankB := x }
def Mdl.bankState (s : Mdl) (b v : Nat) : Mdl :=
  s.setReg (if b = 0 then Reg.CHT_BANK_STATE_STATE_A else Reg.CHT_BANK_STATE_STATE_B) v

/-- A byte of a bank as die 0 holds it, an erased one 0xFF (R505). Verification reads die 0, whose copy equals die 1's in every bank whose
writes ended (R136). -/
def bankByte (x : BankStore) (o : Nat) : Byte := Table.get 0xFF#8 x.copy0 o

/-- Does a command run (R149)? -/
def Mdl.chartBusy (s : Mdl) : Bool := s.flag Reg.CHT_STATUS_BUSY

/-- Is a bank the one in force, or one that a load reads (R134)? -/
def Mdl.bankHeld (s : Mdl) (b : Nat) : Bool :=
  (s.cht.chart.isSome && s.reg Reg.CHT_STATUS_IN_FORCE_BANK == b)
    || (match s.cht.next with | some n => n.2 == b | none => false)

/-- ERASE_BANK (R134, R712). -/
def Mdl.eraseBank (s : Mdl) (b : Nat) : Mdl :=
  if s.chartBusy || s.bankHeld b then s.chartEnd 0x0C
  else
    ({ s with cht := { s.cht with op := some (.erase b 0) } }.bankState b 1).setRegs
      [(Reg.CHT_STATUS_BUSY, 1), (Reg.CHT_STATUS_STAGE, 5)]

/-- An erase or program of a bank was cut short (R711, R712). -/
def Mdl.breakBank (s : Mdl) (b : Nat) : Mdl :=
  ({ s with cht := { s.cht.setBank b { s.cht.bank b with next := 0, broken := true } with op := none } }.bankState b 1).setReg
    Reg.CHT_NEXT_OFFSET_OFFSET 0

/-- Erase a bank's copy on a configuration flash die. -/
def BankStore.wipe (x : BankStore) (die : Nat) : BankStore := if die = 0 then { x with copy0 := [] } else { x with copy1 := [] }

/-- ERASE_BANK_DONE (R136, R712): both dies are erased; `fail` when the configuration flash fails. -/
def Mdl.eraseBankDone (s : Mdl) (fail : Bool) : Mdl :=
  match s.cht.op with
  | some (.erase b _) =>
    if fail then (s.breakBank b).chartIdle 0x0E
    else
      let s : Mdl := { s with cht := { s.cht.setBank b .init with op := none } }
      ((s.bankState b 0).setReg Reg.CHT_NEXT_OFFSET_OFFSET 0).chartIdle 0
  | _ => s

/-- PROGRAM_BANK (R134, R135, R711, Table 3-23): `data` is what the host's DMA brings; fewer bytes than CHT_DMA_LEN are a DMA error. It starts at
CHT_NEXT_OFFSET, and is refused where the bank's writes did not stop there. One that ends in the DMA error 0x0D programs nothing and leaves the
bank's state and contents as they were (DESIGN CHOICE, assumption log entry 19: R712 does not say). -/
def Mdl.programBank (s : Mdl) (b : Nat) (data : List Byte) : Mdl :=
  let n := s.reg Reg.CHT_DMA_LEN_LEN
  let x := s.cht.bank b
  if s.chartBusy || s.bankHeld b || x.broken || n % 4096 != 0 || decide (0x1000000 < n) || s.reg Reg.CHT_DMA_ADDR_ADDR % 4096 != 0
      || x.next != s.reg Reg.CHT_NEXT_OFFSET_OFFSET || decide (0x4000000 < x.next + n) then s.chartEnd 0x0C
  else if n = 0 then s.chartEnd 0
  else if data.length < n then s.chartEnd 0x0D
  else
    ({ s with cht := { s.cht with op := some (.program b 0 (data.take n)) } }.bankState b 1).setRegs
      [(Reg.CHT_STATUS_BUSY, 1), (Reg.CHT_STATUS_STAGE, 5)]

/-- Store a list of bytes from an offset. -/
def putBytes (t : Table Byte) : Nat → List Byte → Table Byte
  | _, [] => t
  | o, b :: l => putBytes (Table.set 0xFF#8 t o b) (o + 1) l

/-- Program a list of bytes at a bank's next offset on a configuration flash die. -/
def BankStore.put (x : BankStore) (die : Nat) (l : List Byte) : BankStore :=
  if die = 0 then { x with copy0 := putBytes x.copy0 x.next l } else { x with copy1 := putBytes x.copy1 x.next l }

/-- PROGRAM_BANK_DONE (R135, R136): both dies are programmed. -/
def Mdl.programBankDone (s : Mdl) (fail : Bool) : Mdl :=
  match s.cht.op with
  | some (.program b d data) =>
    if fail then (s.breakBank b).chartIdle 0x0E
    else
      let x := s.cht.bank b
      let y := if d = 0 then (x.put 0 data).put 1 data else x.put 1 data
      let s : Mdl := { s with cht := { s.cht.setBank b { y with next := x.next + data.length } with op := none } }
      (s.setReg Reg.CHT_NEXT_OFFSET_OFFSET (x.next + data.length)).chartIdle 0
  | _ => s

/-! ### Verification (R143) -/

/-- What verification reads of the module. -/
def Mdl.chartEnv (s : Mdl) : ChartEnv :=
  { opt := s.cht.opt, steppings := s.reg Reg.IDN_STEPPING_COMPUTE :: s.reg Reg.IDN_STEPPING_HUB :: s.svc.dieSteps, dies := s.goodDies
    slots := s.servedSlots
    powered := (List.range 9).filter fun i => s.flag (Reg.MED_SLOT_STATUS_PRESENT i) && s.flag (Reg.MED_SLOT_STATUS_POWERED i)
    vendorKey := s.svc.vendorKey }

/-- Verify a bank and record its state, 2 or 3 (R712); a bank cut short fails (R711). -/
def Mdl.verify (s : Mdl) (b : Nat) : Except ChartErr Chart × Mdl :=
  let x := s.cht.bank b
  let r := if x.broken then .error ⟨1, 0, 0, 0⟩ else Chart.verify s.chartEnv (bankByte x)
  match r with
  | .ok c => (.ok c, s.bankState b 2)
  | .error e => (.error e, s.bankState b 3)

/-- VERIFY_BANK: the verification begins (R144, R149). -/
def Mdl.verifyBank (s : Mdl) (b : Nat) : Mdl :=
  if s.chartBusy then s.chartEnd 0x0C
  else { s with cht := { s.cht with op := some (.verify b false) } }.setRegs [(Reg.CHT_STATUS_BUSY, 1), (Reg.CHT_STATUS_STAGE, 1)]

/-! ### Full load (R143 to R150) -/

/-- Quiesce compute (R145, R147): admission closes, every cluster stops at its next mark, and a step that no cluster has begun is abandoned. -/
def Mdl.quiesce (s : Mdl) : Mdl :=
  let s : Mdl := { s with cht := { s.cht with closed := true } }
  let s := s.jobList.foldl (fun s p => if p.2.group.isSome && !p.2.started then s.abortJob p.1 .commandInterrupted else s) s
  s.clusters.foldl (fun s p => s.setCluster (p.1 / 26) (p.1 % 26) { s.cluster (p.1 / 26) (p.1 % 26) with quiesce := true }) s

/-- LOAD_FULL (R143, R149, R150): accepted while only partial loads run; its verification begins. -/
def Mdl.loadFull (s : Mdl) (b : Nat) : Mdl :=
  if s.cht.op.isSome || s.fullLoad then s.chartEnd 0x0C
  else { s with cht := { s.cht with op := some (.verify b true) } }.setRegs [(Reg.CHT_STATUS_BUSY, 1), (Reg.CHT_STATUS_STAGE, 1)]

/-- The verification under way ends (R143 to R145, R712): its bank's state is 2 or 3, and a full load that passes quiesces compute. -/
def Mdl.verified (s : Mdl) : Mdl :=
  match s.cht.op with
  | some (.verify b load) =>
    let r := ({ s with cht := { s.cht with op := none } } : Mdl).verify b
    match r.1 with
    | .error e => r.2.chartStop e
    | .ok c =>
      if load then ({ r.2 with cht := { r.2.cht with next := some (c, b) } }.quiesce).setRegs [(Reg.CHT_STATUS_BUSY, 1), (Reg.CHT_STATUS_STAGE, 2)]
      else r.2.chartIdle 0
  | _ => s

/-- Time passes for the operation under way: a verification ends, and an erase or program goes from die 0 to die 1 (R136, R144; DESIGN CHOICE,
assumption log entry 16). -/
def Mdl.chartTick (s : Mdl) : Mdl :=
  match s.cht.op with
  | some (.verify _ _) => s.verified
  | some (.erase b 0) => { s with cht := { s.cht.setBank b ((s.cht.bank b).wipe 0) with op := some (.erase b 1) } }
  | some (.program b 0 data) => { s with cht := { s.cht.setBank b ((s.cht.bank b).put 0 data) with op := some (.program b 1 data) } }
  | _ => s

/-- QUIESCE_TIMEOUT (R145): a cluster without a mark within 10 ms has its macro-operations ended. -/
def Mdl.quiesceTimeout (s : Mdl) (d c : Nat) : Mdl :=
  let s := s.verified
  let x := s.cluster d c
  if !x.quiesce || (x.cur.isNone && x.queue.isEmpty) then s
  else if x.cur.isSome then s.faultMacro d c .commandInterrupted 0x22
  else s.endMacro d c .commandInterrupted 0x22 0

/-- Has every cluster stopped? -/
def Mdl.allQuiet (s : Mdl) : Bool := s.clusters.all fun p => p.2.cur.isNone && p.2.queue.isEmpty && p.2.saving.isNone

/-- Show the span allowance of each class (R633). -/
def Mdl.showAllowance (s : Mdl) (c : SpanCfg) : Mdl :=
  (List.range 8).foldl (fun s i => s.setReg (Reg.SPN_CLASS_ALLOWANCE i) (16 * c.credits.getD i 0)) s

/-- A twin state is entered: shown, journaled before the module acts in it, and logged (R650, R657, R659, Table 14-10). SEEKING is
not journaled, since R651 compares the journaled states there (DEDUCED, assumption log entry 25). -/
def Mdl.enterTwin (s : Mdl) (st : Nat) : Mdl :=
  let was := s.reg Reg.TWN_STATUS_STATE
  if was = st then s
  else
    let gen := s.reg Reg.TWN_PAIR_GEN_GEN
    let draining := s.twn.detaching
    let ana := fun (x : Nat) => x == 0 || x == 4 || x == 5
    let s := s.setReg Reg.TWN_STATUS_STATE st
    let s := if st = 1 then s
      else
        let s := s.journal 0x31 (st + gen * 2 ^ 3 + s.reg Reg.TWN_STATUS_PARTNER * 2 ^ 51)
        { s with twn := { s.twn with journaled := st, journaledGen := gen } }
    let s : Mdl := { s with twn := { s.twn with heard := false, detaching := 0 } }
    let s := s.logBook 0x13 (st + gen * 2 ^ 3)
    if (ana was && draining == 0) == ana st then s else s.emit (.notice 0x0C (b2n (ana st)))

/-- Take a chart's SPAN settings (R126, R127, R152, Table 13-2). -/
def Mdl.applySpan (s : Mdl) (c : SpanCfg) : Mdl :=
  let same := s.reg Reg.SPN_STATUS_MODULE == c.module && s.reg Reg.SPN_STATUS_ROLE_NOW == c.role && s.reg Reg.SPN_STATUS_MASTER == c.master
  let s := if same then s
    else s.setRegs [(Reg.SPN_STATUS_MODULE, c.module), (Reg.SPN_STATUS_ROLE_NOW, c.role), (Reg.SPN_STATUS_MASTER, c.master),
      (Reg.SPN_STATUS_STATE, if c.role = 0 then 0 else if c.role = 2 then 2 else 1)]
  let s : Mdl := if same then s else { s with spn := { s.spn with admitted := false } }
  let s := (List.range 8).foldl (fun (s : Mdl) n =>
    let on := bit c.linkEnable n && s.domainOn (if n < 4 then 24 else 26)
    let st := s.reg (Reg.SPN_LINK_STATE n)
    if on then (if st = 0 then s.setReg (Reg.SPN_LINK_STATE n) 1 else s)
    else if st = 0 then s
    else (s.setLink n .init).setRegs [(Reg.SPN_LINK_STATE n, 0), (Reg.SPN_LINK_WIDTH n, 0)]) s
  let s := s.showAllowance c
  let s := if c.role = 2 ∧ (Table.get DirEntry.absent s.spn.directory c.module).state ≠ 1 then
      let s : Mdl := { s with spn := { s.spn with directory := Table.set .absent s.spn.directory c.module ⟨1, s.svc.serial % 2 ^ 64, s.epoch⟩ } }
      s.setReg Reg.SPN_STATUS_MEMBERS (s.spn.directory.filter fun p => p.2.state == 1).length
    else s
  let s := s.setReg Reg.TWN_STATUS_PARTNER (if c.twin then c.partner else 0)
  if c.twin then s else s.enterTwin 0

/-- The load at start-up (R151, R152): the bank of CHART_BANK, the other bank, or the built-in chart. FALLBACK_USED stays 0 where only the
built-in chart is left, though the failure of both banks is in the log book (DESIGN CHOICE, assumption log entry 19: R151 names the flag for the
other bank's chart alone). -/
def Mdl.startupLoad (s : Mdl) : Mdl :=
  let b := s.cht.opt.chartBank % 2
  let load := fun (s : Mdl) (c : Chart) (b : Nat) =>
    ({ s with cht := { s.cht with next := some (c, b) } }.applySpan c.span).setRegs
      [(Reg.CHT_STATUS_BUSY, 1), (Reg.CHT_STATUS_STAGE, 3), (Reg.CHT_STATUS_ERR, 0)]
  let builtin := fun (s : Mdl) =>
    ({ s with cht := { s.cht with nextBuiltin := true } }.logBook 0x0F 3).setRegs
      [(Reg.CHT_STATUS_BUSY, 1), (Reg.CHT_STATUS_STAGE, 3), (Reg.CHT_STATUS_ERR, 0x10)]
  match s.verify b with
  | (.ok c, s) => load s c b
  | (.error _, s) =>
    if s.cht.opt.fallback ≠ 1 then builtin s
    else match s.verify (1 - b) with
      | (.ok c, s) => load ((s.logBook 0x0F (2 + c.chartId % 2 ^ 56 * 2 ^ 8)).setReg Reg.CHT_STATUS_FALLBACK_USED 1) c (1 - b)
      | (.error _, s) => builtin (s.logBook 0x0F 2)

/-- CHART_APPLY (R144, R150, R160, R162): the maps take the chart's dies; it then waits for the next boundary. A load whose chart has more dies
than are left by now fails as its verification would have (error 0x09; at start-up R151 chooses again: DEDUCED, assumption log entry 19). -/
def Mdl.chartApply (s : Mdl) : Mdl :=
  let s := s.verified
  let stage := s.reg Reg.CHT_STATUS_STAGE
  let ready := !s.svc.loading.isSome && s.allQuiet && (stage == 2 || stage == 3)
  let go := fun (s : Mdl) (n : Nat) =>
    let s := s.mapAll n
    let s := s.clusters.foldl (fun s p => s.setCluster (p.1 / 26) (p.1 % 26) { s.cluster (p.1 / 26) (p.1 % 26) with held := false }) s
    let s : Mdl := { s with svc := { s.svc with bringIns := [] }, cht := { s.cht with partials := [] } }
    s.setReg Reg.CHT_STATUS_STAGE 4
  if !ready then s
  else match s.cht.next with
    | some (c, _) =>
      if c.dieCount ≤ s.goodDies.length then go s c.dieCount
      else if s.cht.chart.isNone && !s.flag Reg.CHT_STATUS_BUILTIN then { s with cht := { s.cht with next := none } }.startupLoad
      else s.loadFails
    | none => if s.cht.nextBuiltin then go s s.goodDies.length else s

/-! ### Coupled-field writes and holds (R163 to R169, R369, R375 to R377) -/

/-- Fields of a group with a bit in the register at an address: an access of any part of it counts as one write of each (R167). -/
def countedFields (g addr : Nat) : List Fld := match Reg.find addr with
  | some r => (groupFields g).filter fun f => f.addr == r.2
  | none => []

/-- Fields of a register at an address, of a group, that an access of `bytes` bytes covers, with the bits it writes. -/
def coveredFields (g addr bytes value : Nat) : List (Fld × Nat) :=
  (countedFields g addr).filterMap fun f =>
    let base := 8 * (addr - f.addr)
    if f.lo < base + 8 * bytes ∧ base < f.lo + f.width then
      let lo := max f.lo base
      let hi := min (f.lo + f.width) (base + 8 * bytes)
      some (f, bits value (lo - base) (hi - lo) * 2 ^ (lo - f.lo))
    else none

/-- Operations held on a group resume once its counts are equal (R168). -/
def Mdl.resumeHolds (s : Mdl) (g : Nat) : Mdl :=
  if s.mixed g then s
  else
    let mine := s.cht.holds.filter fun h => h.group == g
    let s := ({ s with cht := { s.cht with holds := s.cht.holds.filter fun h => h.group != g } }).showHold
    mine.foldl (fun s h => match h.op with
      | .build i => s.buildTurn i
      | .modelLoad n => s.modelLoad n
      | .modelUnload n => s.modelUnload n
      | .fire n t v => s.fireAt n t v
      | .channel n => s.achEnable n true
      | .copy n i tc => s.achCopy n i tc
      | .credit n i => s.slotConsumed n i
      | .swapOut i => s.swapOutDone i
      | .lost n => s.breakLost n
      | .arrival _ _ | .job _ => s) s

/-- A chart coming into force leaves no mixed group behind, and what was held goes on (R148, R168). -/
def Mdl.resumeAll (s : Mdl) : Mdl := (s.cht.holds.map (·.group)).foldl (fun s g => s.resumeHolds g) s

/-- The owning block acts on a channel group's new ENABLE (R366, R368). -/
def Mdl.enableChanged (s : Mdl) (g : Nat) (was : Bool) : Mdl :=
  if 0xA80 ≤ g ∧ g < 0xAC0 then
    let now := s.flag (Reg.TIR_ACH_CFG_ENABLE (g - 0xA80))
    if now == was then s else s.achEnable (g - 0xA80) now
  else s

/-- COUPLED_FIELD_WRITE (R164, R166, R167): one access is one write of every field it covers. A field the access covers in part keeps
its other bits. -/
def Mdl.coupledFieldWrite (s : Mdl) (addr bytes value : Nat) : Mdl :=
  match (Reg.find addr).bind fun r => groupOfAddr r.2 with
  | none => s
  | some g =>
    let was := 0xA80 ≤ g && s.flag (Reg.TIR_ACH_CFG_ENABLE (g - 0xA80))
    let old := fun (f : Fld) => if s.legacy g then s.reg f else s.stagedValue g f
    let merged := (coveredFields g addr bytes value).map fun p =>
      let base := 8 * (addr - p.1.addr)
      let lo := max p.1.lo base
      let hi := min (p.1.lo + p.1.width) (base + 8 * bytes)
      (p.1, old p.1 - bits (old p.1) (lo - p.1.lo) (hi - lo) * 2 ^ (lo - p.1.lo) + p.2)
    let s := s.coupledWrite g merged (countedFields g addr)
    if s.legacy g then (s.enableChanged g was).resumeHolds g else s

/-! ### Coming into force (R127, R130, R131, R148, R152, R153) -/

/-- The domains a chart switches on and off when it comes into force (R130, R131). -/
def Mdl.applyPower (s : Mdl) (offMask : Nat) : Mdl :=
  let dies := s.logDies
  let mem := s.memoryOnly
  let off := fun (n : Nat) =>
    if 24 ≤ n then bit offMask n
    else match dies.findIdx? (· == n / 6) with
      | none => true
      | some ld => s.svc.retiredDie (n / 6) || bit offMask (6 * ld + n % 6) || (mem && decide (n % 6 < 5))
  let was := s.reg Reg.PWR_DOMAIN_STATUS_ON
  let s : Mdl := { s with svc := { s.svc with busy := [] } }
  let s := s.setReg Reg.PWR_DOMAIN_STATUS_ON (maskOf ((List.range 30).filter fun n => !off n))
  let s := (List.range 24).foldl (fun s n =>
    if n % 6 < 4 && !bit was n && !off n then s.clearQuadrant (n / 6) (n % 6) else s) s
  (List.range 4).foldl (fun s d => s.showCores d) s

/-- What both kinds of chart do in the boundary that brings them into force (R148). -/
def Mdl.enterForce (s : Mdl) (entries : List Nat) (len : Nat) (span : SpanCfg) (offMask : Nat) : Mdl :=
  let s := (s.fillEphemeris entries len).discardStaged
  let s : Mdl := { s with cht := { s.cht with closed := false, next := none, nextBuiltin := false, generation := s.cht.generation + 1 } }
  let s := s.clusters.foldl (fun s p => s.setCluster (p.1 / 26) (p.1 % 26) { s.cluster (p.1 / 26) (p.1 % 26) with quiesce := false }) s
  let s := ((s.applyPower offMask).applySpan span).eyeRelease
  let s := s.setReg Reg.CHT_LOAD_EPOCH_EPOCH s.epoch
  s.useSource (s.sourceFor (s.reg Reg.TRN_CTRL_SOURCE))

/-- Every in-service core takes its PERSONALITY and default mode (R122, R179). -/
def Mdl.showAllPersonalities (s : Mdl) : Mdl :=
  s.logDies.foldl (fun s d => (s.logClusters d).foldl (fun s c =>
    let s := s.showPersonality d c
    let s := s.showEye d c
    (s.logCores d c).foldl (fun s k => s.setReg (Reg.SEQ_CORE_STATUS_MODE d c k) (s.reg (Reg.SEQ_CORE_STATUS_DEFAULT_MODE d c k))) s) s) s

/-- A new chart leaves the tier engine's and the scheduler's structures consistent with its dies (R371). -/
def Mdl.chartChange (s : Mdl) : Mdl :=
  let n := s.logDies.length
  (s.tierChartChange).breakDieChannels fun ld => decide (n ≤ ld)

/-- CHART_IN_FORCE (R148, R153): the chart that waits comes into force in this boundary. -/
def Mdl.chartInForce (s : Mdl) : Mdl :=
  if s.reg Reg.CHT_STATUS_STAGE ≠ 4 then s
  else match s.cht.next with
    | some (c, b) =>
      let s : Mdl := { s with cht := { s.cht with chart := some c } }
      let s := s.setRegs [(Reg.CHT_STATUS_BUILTIN, 0), (Reg.CHT_STATUS_IN_FORCE_BANK, b), (Reg.CHT_IN_FORCE_CHART_ID, c.chartId),
        (Reg.CHT_IN_FORCE_VER_CHART_VERSION, c.version), (Reg.CHT_IN_FORCE_VER_SECURITY_VERSION, c.security),
        (Reg.CHT_NEXT_OFFSET_OFFSET, (s.cht.bank (1 - b)).next)]
      let s := if c.period = 0 then s else s.defaultPeriod c.period
      let s := (s.enterForce c.ephemeris c.cycleLen c.span c.offMask).count Reg.CHT_COUNT_FULL_LOADS
      ((s.showAllPersonalities).chartChange.resumeAll).chartIdle 0
    | none =>
      if !s.cht.nextBuiltin then s
      else
        let s : Mdl := { s with cht := { s.cht with chart := none } }
        let s := s.setRegs [(Reg.CHT_STATUS_BUILTIN, 1), (Reg.CHT_IN_FORCE_CHART_ID, 0), (Reg.CHT_IN_FORCE_VER_CHART_VERSION, 0),
          (Reg.CHT_IN_FORCE_VER_SECURITY_VERSION, 0)]
        ((s.enterForce Eph.builtin 4 .outside 0).chartChange.resumeAll).setRegs [(Reg.CHT_STATUS_BUSY, 0), (Reg.CHT_STATUS_STAGE, 0)]

/-! ### Partial loads on request (R159) -/

/-- LOAD_PARTIAL; refused too where fewer than three dies are left, since R44 leaves no cluster in service to load (DEDUCED, assumption log
entry 53). -/
def Mdl.loadPartial (s : Mdl) (ld lc : Nat) : Mdl :=
  let ok := !s.memoryOnly && match s.cht.chart with
    | some c => decide (ld < c.dieCount) && decide (lc < 25) && decide (ld < s.logDies.length)
    | none => false
  if s.chartBusy || !ok then s.chartEnd 0x0C
  else { s with cht := { s.cht with partials := s.cht.partials ++ [(ld, lc)] } }.setReg Reg.CHT_STATUS_BUSY 1

/-! ### The option area (R137 to R142) -/

/-- An option record read from its 4,096 bytes (Table 3-14). The owner key hash stands first digest byte first: the model's choice beside
R5 (log 57). -/
def OptRec.read (l : List Byte) : OptRec :=
  let f := fun (o n : Nat) => leNat ((l.drop o).take n)
  { sequence := f 0x008 8, chartBank := f 0x010 1, fallback := f 0x011 1, personality := f 0x012 1, pcieMaxRate := f 0x013 1
    clocking := f 0x014 1, mgmtBus := f 0x015 1, fwBank := f 0x016 1, debugPolicy := f 0x017 1, ownerState := f 0x020 1
    ownerKeyId := f 0x028 8, ownerKeyHash := leNat (((l.drop 0x030).take 48).reverse), minSecurity := f 0x018 4, raw := l }

/-- The bytes of an option record, its CRC included. -/
def OptRec.bytes (r : OptRec) : List Byte :=
  if r.raw ≠ [] then r.raw
  else
    let body := leBytes 4 0x504F5847 ++ leBytes 2 1 ++ leBytes 2 0 ++ leBytes 8 r.sequence ++ leBytes 1 r.chartBank ++ leBytes 1 r.fallback
      ++ leBytes 1 r.personality ++ leBytes 1 r.pcieMaxRate ++ leBytes 1 r.clocking ++ leBytes 1 r.mgmtBus ++ leBytes 1 r.fwBank
      ++ leBytes 1 r.debugPolicy ++ leBytes 4 r.minSecurity ++ leBytes 4 0 ++ leBytes 1 r.ownerState ++ List.replicate 7 0
      ++ leBytes 8 r.ownerKeyId ++ (leBytes 48 r.ownerKeyHash).reverse ++ List.replicate 0xF9C 0
    body ++ leBytes 4 (crc32 body)

/-- Is a record valid: MAGIC, FORMAT and CRC (R138)? R142 accepts "any valid record". -/
def optOk (l : List Byte) : Bool :=
  l.length == 4096 && leNat (l.take 4) == 0x504F5847 && leNat ((l.drop 4).take 2) == 1
    && crc32 (l.take 0xFFC) == leNat ((l.drop 0xFFC).take 4)

/-- The valid record of highest SEQUENCE on a die (R138). -/
def OptRing.newest (x : OptRing) : Option OptRec :=
  ((x.half0 ++ x.half1).filter fun r => optOk r.bytes).foldl (fun (a : Option OptRec) r => match a with
    | none => some r
    | some b => if b.sequence < r.sequence then some r else some b) none

/-- Append a record on a die: a full half is left, and the other one is erased, which does not hold the newest valid record then (R140). -/
def OptRing.append (x : OptRing) (r : OptRec) : OptRing :=
  if x.cur = 0 then (if x.half0.length < 1024 then { x with half0 := r :: x.half0 } else { x with half1 := [r], cur := 1 })
  else if x.half1.length < 1024 then { x with half1 := r :: x.half1 }
  else { x with half0 := [r], cur := 0 }

/-- The stored record that a reset loads: die 0's, or die 1's when die 0 has none (R138). -/
def ChartSt.stored (c : ChartSt) : Option OptRec := c.ring0.newest.or c.ring1.newest

/-- The record that the next one replaces: the newest stored, or the factory values (R140). -/
def ChartSt.newestOpt (c : ChartSt) : OptRec := c.stored.getD .factory

/-- Does a record differ where a claimed module needs an authorisation block (R141)? -/
def optGuarded (old new : OptRec) : Bool :=
  old.ownerState == 1 &&
    (old.ownerState != new.ownerState || old.ownerKeyId != new.ownerKeyId || old.ownerKeyHash != new.ownerKeyHash
      || old.debugPolicy != new.debugPolicy || decide (new.minSecurity < old.minSecurity))

/-- A valid authorisation block (R141, Table 3-15). -/
def Mdl.authOk (s : Mdl) (old : OptRec) (record auth : List Byte) : Bool :=
  let f := fun (o n : Nat) => leNat ((auth.drop o).take n)
  let pub := (auth.drop 0x60).take 96
  auth.length == 288 && f 0 4 == 0x55415847 && sha384 pub == old.ownerKeyHash && f 0x10 8 == old.sequence
    && f 0x18 16 == s.svc.serial && leNat (((auth.drop 0x28).take 48).reverse) == sha384 record
    && signatureOk (leNat pub) (sha384 (auth.take 0xC0)) (f 0xC0 96)

/-- Append an option record to die 0 and then to die 1, with its log-book records (R136, R140, Table 14-10). -/
def Mdl.appendOption (s : Mdl) (new : OptRec) : Mdl :=
  let old := s.cht.newestOpt
  let s : Mdl := { s with cht := { s.cht with ring0 := s.cht.ring0.append new, ring1 := s.cht.ring1.append new } }
  let s := s.logBook 0x0F (1 + new.sequence % 2 ^ 56 * 2 ^ 8)
  if old.ownerState = new.ownerState then s else s.logBook 0x10 (if new.ownerState = 1 then 4 else 5)

/-- SET_OPTION (R140 to R142): the current record is the newest stored one, though one stored since start-up comes into force at the next cold reset
alone (DESIGN CHOICE, assumption log entry 19: Table 3-15 speaks of the record in force). `record` and `auth` are what the host's DMA brings; `auth` empty for no block. -/
def Mdl.setOption (s : Mdl) (record auth : List Byte) : Mdl :=
  let old := s.cht.newestOpt
  let new := OptRec.read record
  let n := s.reg Reg.CHT_DMA_LEN_LEN
  if s.chartBusy || (n != 4096 && n != 0) || s.reg Reg.CHT_DMA_ADDR_ADDR % 4096 != 0 then s.chartEnd 0x0C
  else if n = 0 then s.chartEnd 0
  else if record.length ≠ 4096 then s.chartEnd 0x0D
  else if !optOk record || new.sequence != old.sequence + 1
      || (optGuarded old new && !(s.reg Reg.CHT_AUTH_ADDR_ADDR != 0 && s.authOk old record auth)) then s.chartEnd 0x0F
  else (s.appendOption new).chartEnd 0

/-- The newest valid record is loaded at reset, or the factory values are used (R138, R139). -/
def Mdl.loadOption (s : Mdl) : Mdl :=
  { s with cht := { s.cht with opt := s.cht.newestOpt } }.setReg Reg.SVC_STATUS_OPT_FACTORY (b2n s.cht.stored.isNone)

/-- ABORT (R149, R711): an erase or program leaves its bank broken, a verification leaves the bank's state as it was. Where none of them runs it
has no effect: on an idle loader it ends as a command does, with DONE set and ERR 0, and while a load applies or a partial load runs it changes
nothing (DESIGN CHOICE, assumption log entry 19: whether it sets DONE is open). -/
def Mdl.chartAbort (s : Mdl) : Mdl :=
  match s.cht.op with
  | some (.erase b _) => (s.breakBank b).chartIdle 0
  | some (.program b _ _) => (s.breakBank b).chartIdle 0
  | some (.verify _ _) => ({ s with cht := { s.cht with op := none } } : Mdl).chartIdle 0
  | none => if s.chartBusy then s else s.chartEnd 0

/-! ### Commits and hold limits (R165, R169, R369, R375) -/

/-- Is a group at its owning block's safe point (R369, R375)? A BROKEN end is at it as a disabled one is, so that a committed ENABLE 0 reaches it (R368;
DEDUCED, assumption log entry 18). -/
def Mdl.safePoint (s : Mdl) (g : Nat) : Bool :=
  if 0x800 ≤ g ∧ g < 0x808 then s.groupEmpty (g - 0x800)
  else if 0xA00 ≤ g ∧ g < 0xA80 then s.reg (Reg.TIR_MODEL_CTRL_STATE (g - 0xA00)) == 0
  else if 0xA80 ≤ g ∧ g < 0xAC0 then
    let n := g - 0xA80
    s.reg (Reg.TIR_ACH_STATUS_STATE n) == 0 || s.reg (Reg.TIR_ACH_STATUS_STATE n) == 2 || (s.ach n).slots.all (· == .free)
  else true

/-- COUPLED_COMMIT_APPLY (R165, R369, R375, R377): a pending commit is applied at its safe point. -/
def Mdl.coupledApply (s : Mdl) (g : Nat) : Mdl :=
  if !s.cht.commits.contains g || !s.safePoint g then s
  else
    let was := 0xA80 ≤ g && s.flag (Reg.TIR_ACH_CFG_ENABLE (g - 0xA80))
    let s := ((s.applyStaged g).commitApplied g).enableChanged g was
    if 0x800 ≤ g ∧ g < 0x808 then s.groupSettle (g - 0x800) else s

/-- CPL_COMMIT (R165, R166): a commit that clears a serving group's ENABLE closes it while it is pending (R376). -/
def Mdl.cplCommit (s : Mdl) (g : Nat) : Mdl :=
  let s := s.commitGroup g
  if 0x800 ≤ g ∧ g < 0x808 then
    let n := g - 0x800
    if s.closing n && s.reg (Reg.SQT_GRP_STATUS_STATE n) == 1 then s.setReg (Reg.SQT_GRP_STATUS_STATE n) 3
    else s
  else s

/-- COUPLING_HOLD_TIMEOUT (R169): holds that have lasted CPL_HOLD_LIMIT boundaries end with Coupling Hold Timeout. Where an operation shows its
end in a register that has no code for it, that code is a free value; the others show HOLD_TIMEOUT alone (assumption log entry 54). -/
def Mdl.holdTimeout (s : Mdl) : Mdl :=
  let limit := s.reg Reg.CPL_HOLD_LIMIT_LIMIT
  let past := s.cht.holds.filter fun h => decide (limit ≤ h.age)
  if past.isEmpty then s
  else
    let s := ({ s with cht := { s.cht with holds := s.cht.holds.filter fun h => !decide (limit ≤ h.age) } }).showHold
    let s := s.setReg Reg.CPL_STATUS_HOLD_TIMEOUT 1
    past.foldl (fun s h => match h.op with
      | .build g => s.setGroup g { s.group g with stepEnd := some .couplingHoldTimeout }
      | .modelLoad n =>
        let r := s.fresh 4
        r.2.setReg (Reg.TIR_MODEL_CTRL_ERR n) r.1
      | .channel n => s.setRegs [(Reg.TIR_ACH_CFG_ENABLE n, 0), (Reg.TIR_ACH_STATUS_ERR n, 1)]
      | .job j => s.abortJob j .couplingHoldTimeout
      | _ => s) s

/-- A boundary ages every hold (R169). -/
def Mdl.ageHolds (s : Mdl) : Mdl :=
  { s with cht := { s.cht with holds := s.cht.holds.map fun h => { h with age := h.age + 1 } } }

end Sys2Proof.Machine
end

