-- ==== Sys2Proof/Machine/Catalogue.lean ====
section
/-! DEFINITION. Catalogue commands, the catalogues' work at a boundary, and the admission of search batches (R423 to R443). -/
namespace Sys2Proof.Machine

/-! ### CAT_CMD (R428 to R435, Tables 9-4, 9-10 to 9-16) -/

/-- A catalogue command ends with an error code. -/
def Mdl.catEndCmd (s : Mdl) (err : Nat) : Mdl :=
  s.setRegs [(Reg.CAT_CMD_STATUS_BUSY, 0), (Reg.CAT_CMD_STATUS_DONE, 1), (Reg.CAT_CMD_STATUS_ERR, err)]

/-- The checks of an image: its mapping, header, sections, ID table. -/
def Mdl.catImageErr (s : Mdl) (a base : Nat) : Option Nat :=
  let i := s.catImage a base
  if !s.catMapped a base 256 then some 3
  else if !s.catHeaderOk i then some 2
  else if !s.catSectionsOk i || !s.catMapped a base (s.catEnd i) then some 3
  else if !s.catIdsOk i then some 4
  else none

/-- Is the control area too small (R430)? -/
def CatSt.ctrlSmall (x : CatSt) (bitmapPages : Nat) : Bool :=
  decide (x.ctrlPages * pageBytes < 16 * 2 ^ x.journalLog2 + 16 * bitmapPages) || decide (x.copyRoom bitmapPages < 64)

/-- ATTACH. The command runs until the last image page is in HBM (DEDUCED, assumption log entry 22). -/
def Mdl.catAttach (s : Mdl) (n acct base ctrl pages jlog : Nat) : Mdl :=
  let x := s.cat n
  let y : CatSt := { x with acct := acct, ctrl := ctrl, ctrlPages := pages, journalLog2 := jlog }
  if acct = 0xFFFF ∨ base % pageBytes ≠ 0 ∨ ctrl % pageBytes ≠ 0 ∨ 2 ^ 47 ≤ base ∨ 2 ^ 47 < ctrl + pages * pageBytes
      ∨ pages < 1 ∨ 1024 < pages ∨ jlog < 10 ∨ 15 < jlog then s.catEndCmd 0x0C
  else if x.state ≠ .detached then s.catEndCmd 1
  else match s.catImageErr acct base with
    | some e => s.catEndCmd e
    | none =>
      let i := s.catImage acct base
      let l := imagePages base (s.catEnd i)
      if y.ctrlSmall i.bitmapPages then s.catEndCmd 3
      else match s.catPin acct l with
        | none => (s.catUnpin acct l).catEndCmd 0x0B
        | some s =>
          (s.setCat n { y with state := .attaching, coming := some (base, l.length) }).setReg Reg.CAT_CMD_STATUS_BUSY 1

/-- CATALOGUE_ATTACHED: the last image page is in HBM (Table 9-4). -/
def Mdl.catAttached (s : Mdl) (n : Nat) : Mdl :=
  let x := s.cat n
  let here := match x.coming with
    | some b => (List.range b.2).all fun p => (s.page x.acct (b.1 / pageBytes + p)).state == .hbm
    | none => true
  if x.state == .attaching && here then (s.setCat n { x with state := .serving }).catEndCmd 0 else s

/-- STAGE (R434, R435). -/
def Mdl.catStage (s : Mdl) (n base swap : Nat) : Mdl :=
  let x := s.cat n
  if base % pageBytes ≠ 0 ∨ 2 ^ 47 ≤ base then s.catEndCmd 0x0C
  else if x.state ≠ .serving ∨ x.staged.isSome then s.catEndCmd 1
  else match s.catImageErr x.acct base with
    | some e => s.catEndCmd e
    | none =>
      let i := s.catImage x.acct base
      let cur := x.gen.map fun g => (s.catImage x.acct g.addr, g.since)
      let l := imagePages base (s.catEnd i)
      if x.ctrlSmall (i.bitmapPages + (cur.map fun c => c.1.bitmapPages).getD 0) then s.catEndCmd 3
      else if (match cur with | some c => decide (i.generation ≤ c.1.generation) | none => false) then s.catEndCmd 5
      else if (match cur with | some c => decide (i.baseEpoch < c.2) | none => false) then s.catEndCmd 6
      else if x.old.isSome then s.catEndCmd 7
      else match s.catPin x.acct l with
        | none => (s.catUnpin x.acct l).catEndCmd 0x0B
        | some s => (s.setCat n { x with staged := some (base, swap) }).catEndCmd 0

/-- UNSTAGE. -/
def Mdl.catUnstage (s : Mdl) (n : Nat) : Mdl :=
  let x := s.cat n
  match x.staged with
  | some b => if x.state = .serving then ((s.catUnpinImage x.acct b.1).setCat n { x with staged := none }).catEndCmd 0 else s.catEndCmd 1
  | none => s.catEndCmd 1

/-- DETACH. -/
def Mdl.catDetach (s : Mdl) (n : Nat) : Mdl :=
  let x := s.cat n
  if x.state ≠ .serving then s.catEndCmd 1
  else
    let s := match x.staged with
      | some b => s.catUnpinImage x.acct b.1
      | none => s
    ((s.setCat n { x with state := .detaching, staged := none, pending := [], journal := [] }).catSettle n).catEndCmd 0

/-- Is an item deleted or about to be (R432)? -/
def Mdl.catGone (s : Mdl) (x : CatSt) (i : CatImage) (id o : Nat) : Bool := x.pending.any (fun p => p.1 == id) || !s.live x i s.epoch o

/-- DELETE (R432): a journal record, and a copy reserved for the item's bitmap page. -/
def Mdl.catDelete (s : Mdl) (n id : Nat) : Mdl :=
  let x := s.cat n
  if x.state ≠ .serving then s.catEndCmd 1
  else match x.gen with
    | none => s.catEndCmd 8
    | some g =>
      let i := s.catImage x.acct g.addr
      match s.ordinalOf i id with
      | none => s.catEndCmd 8
      | some o =>
        if s.catGone x i id o then s.catEndCmd 0
        else if 2 ^ x.journalLog2 ≤ x.journal.length then s.catEndCmd 9
        else if !x.reserved.contains (o / 32768) && s.copiesFree x == 0 then s.catEndCmd 0x0A
        else
          let s := s.memWrite x.acct (x.ctrl + 16 * x.journal.length) (leBytes 8 id ++ leBytes 8 s.epoch)
          (s.setCat n { x with pending := x.pending ++ [(id, o)], journal := x.journal ++ [(id, s.epoch)]
                               accepted := (x.accepted + 1) % 2 ^ 32 }).catEndCmd 0

/-- A write of CAT_CMD: its arguments are latched (R428). -/
def Mdl.catCommand (s : Mdl) (op n acct : Nat) : Mdl :=
  if s.flag Reg.CAT_CMD_STATUS_BUSY then s.setReg Reg.CAT_CMD_STATUS_ERR 0x0D
  else
    let addr := s.reg Reg.CAT_CMD_ADDR_ADDR
    let aux := s.reg Reg.CAT_CMD_AUX_AUX
    match op with
    | 1 => s.catAttach n acct addr aux (s.reg Reg.CAT_CMD_ARG_CTRL_PAGES) (s.reg Reg.CAT_CMD_ARG_JOURNAL_LOG2)
    | 2 => s.catStage n addr (aux % 2 ^ 48)
    | 3 => s.catUnstage n
    | 4 => s.catDetach n
    | 5 => s.catDelete n addr
    | _ => s.catEndCmd 0x0C

/-! ### The work at a boundary (R432 to R437) -/

/-- A bitmap page's new copy: the newest content with the pending deletes of the page cleared, stamped with the new epoch, in
the lowest free slot; the version table's 16 bytes are free values (their layout is not given, assumption log entry 22). -/
def Mdl.catCopyPage (s : Mdl) (n : Nat) (base page : Nat) (pending : List (Nat × Nat)) : Mdl :=
  let x := s.cat n
  let i := s.catImage x.acct base
  let bits := s.memRead x.acct (x.bitmapAddr i page s.epoch) 4096
  let ords := (pending.filter fun p => p.2 / 32768 == page).map fun p => p.2 % 32768
  let new := (List.range 4096).map fun k =>
    (List.range 8).foldl (fun (b : Byte) j => if ords.contains (8 * k + j) then b &&& ~~~ BitVec.ofNat 8 (2 ^ j) else b) (bits.getD k 0)
  let slot := firstNotIn (x.copies.map (·.slot)) (x.copies.length + 1) 0
  let s := s.memWrite x.acct (x.copyAddr slot) new
  let v := s.freshBytes 16
  (v.2.memWrite x.acct (x.ctrl + 16 * 2 ^ x.journalLog2 + 16 * page) v.1).setCat n
    { x with copies := { image := base, page := page, stamp := s.epoch, slot := slot } :: x.copies }

/-- The copies for the deletes of the ended epoch. -/
def Mdl.catCopies (s : Mdl) (n : Nat) : Mdl :=
  let x := s.cat n
  match x.gen with
  | some g =>
    let s := x.reserved.foldl (fun s p => s.catCopyPage n g.addr p x.pending) s
    s.setCat n { s.cat n with pending := [] }
  | none => s

/-- An item of the new generation is cleared in its LIVE section. -/
def Mdl.catClear (s : Mdl) (i : CatImage) (o : Nat) : Mdl :=
  let a := i.at_ 11 + o / 8
  let b := BitVec.ofNat 8 (s.memNat i.acct a 1)
  s.memWrite i.acct a [b &&& ~~~ BitVec.ofNat 8 (2 ^ (o % 8))]

/-- A swap that is due (R434). -/
def Mdl.catSwap (s : Mdl) (n : Nat) : Mdl :=
  let x := s.cat n
  match x.staged with
  | none => s
  | some (base, at_) =>
    let i := s.catImage x.acct base
    if s.epoch < at_ || !(imagePages base (s.catEnd i)).all (fun p => (s.page x.acct p).state == .hbm) then s
    else
      let s := (x.journal.filter fun r => decide (i.baseEpoch ≤ r.2)).foldl (fun s r => match s.ordinalOf i r.1 with
        | some o => s.catClear i o
        | none => s) s
      (s.setCat n { x with gen := some ⟨base, s.epoch⟩, old := x.gen, staged := none, journal := [] }).catSettle n

/-- The stamp of the next newer copy of the same page. -/
def CatSt.nextStamp (x : CatSt) (c : CatCopy) : Option Nat :=
  x.copies.foldl (fun (m : Option Nat) e =>
    if e.image = c.image ∧ e.page = c.page ∧ c.stamp < e.stamp then some (match m with | none => e.stamp | some v => min v e.stamp)
    else m) none

/-- Copies that no running batch can read are freed (R433). -/
def Mdl.catFree (s : Mdl) (n : Nat) : Mdl :=
  let x := s.cat n
  s.setCat n { x with copies := x.copies.filter fun c => match x.nextStamp c with
    | none => true
    | some next => x.batches.any fun b => decide (b.epoch < next) }

/-- A generation whose image has arrived comes into force (Table 9-4). -/
def Mdl.catInForce (s : Mdl) (n : Nat) : Mdl :=
  let x := s.cat n
  match x.state, x.coming with
  | .serving, some b => s.setCat n { x with gen := some ⟨b.1, s.epoch⟩, coming := none }
  | _, _ => s

/-- All catalogues at a boundary, in ascending number (R437). -/
def Mdl.catBoundary (s : Mdl) : Mdl :=
  s.cats.foldl (fun (s : Mdl) p =>
    (((s.setCat p.1 { s.cat p.1 with running := [] }).catInForce p.1).catCopies p.1 |>.catSwap p.1).catFree p.1) s

/-! ### Batches and queries (R439 to R443, Tables 9-5 to 9-8) -/

/-- The batch descriptor (Table 9-5). -/
structure Batch where
  cat : Nat
  queries : Nat
  queryAddr : Nat
  queryStride : Nat
  resultStride : Nat
  resultAddr : Nat
  filterAddr : Nat
  filters : Nat
  expectGen : Nat
  reserved : Nat
  deriving DecidableEq, Repr

/-- A little-endian field of a byte list; bytes beyond its end are zero. -/
def field (l : List Byte) (o n : Nat) : Nat := leNat ((l.drop o).take n)

def Batch.of (l : List Byte) : Batch :=
  { cat := field l 0 1, queries := field l 4 4, queryAddr := field l 8 8, queryStride := field l 16 4, resultStride := field l 20 4
    resultAddr := field l 24 8, filterAddr := field l 32 8, filters := field l 40 1, expectGen := field l 48 8
    reserved := field l 1 3 + field l 41 7 + field l 56 8 }

/-- A query record (Table 9-6). -/
structure Query where
  no : Nat
  k : Nat
  probe : Nat
  filter : Nat
  rerank : Nat
  hops : Nat
  reserved : Nat
  deriving DecidableEq, Repr

def Mdl.queryAt (s : Mdl) (a : Nat) (b : Batch) (q : Nat) : Query :=
  let f := fun o n => s.memNat a (b.queryAddr + q * b.queryStride + o) n
  { no := q, k := f 0 4, probe := f 4 2, filter := f 6 1, rerank := f 7 1, hops := f 8 2, reserved := f 10 22 }

/-- K', the length of a query's best list (R460). -/
def Query.best (q : Query) : Nat := q.k * max 1 q.rerank

/-- Is a query refused with QSTATUS 1 (R440)? -/
def Query.refused (q : Query) (b : Batch) (i : CatImage) : Bool :=
  decide (4096 < q.k) || (i.kind == 1 && q.probe == 0)
    || (i.kind == 2 && (decide (q.probe < q.k) || decide (2048 < q.probe) || q.hops == 0 || decide (4096 < q.hops)))
    || (decide (b.filters ≤ q.filter) && q.filter != 0xFF) || q.reserved != 0 || decide (16 < q.rerank)
    || decide (65536 < q.k * q.rerank) || decide (b.resultStride < 64 + 16 * q.best)

/-- Lists a LIST query visits (Table 9-6). -/
def Query.probes (q : Query) (i : CatImage) : Nat := min q.probe i.lists

/-- A batch's estimate in cluster-microseconds (R443). -/
def Mdl.batchEstimate (s : Mdl) (i : CatImage) (b : Batch) : Nat :=
  ceilDiv ((List.range b.queries).foldl (fun n k =>
    let q := s.queryAt i.acct b k
    n + match i.kind with
      | 1 => 4 * i.lists * i.dim + q.probes i * ceilDiv i.items (max 1 i.lists) * i.codeBytes
      | 2 => 4 * q.hops * i.degree * i.dim
      | _ => i.items * i.codeBytes) 0) 32768000

/-- An operand of a filter (Table 9-8). -/
structure FilterOp where
  addr : Nat
  form : Nat
  bit : Nat
  words : Nat
  deriving DecidableEq, Repr

/-- The operands of filter entry `f`. -/
def Mdl.filterOps (s : Mdl) (a : Nat) (b : Batch) (f : Nat) : List FilterOp :=
  let e := b.filterAddr + 160 * f
  (List.range (min 8 (s.memNat a e 1))).map fun i =>
    let w := s.memNat a (e + 64 + 12 * i) 8
    { addr := bits w 0 47, form := bits w 47 1, bit := bits w 48 6, words := s.memNat a (e + 72 + 12 * i) 4 }

/-- Bytes an operand must cover (R455). -/
def FilterOp.extent (o : FilterOp) (items : Nat) : Nat := if o.form = 0 then ceilDiv items 8 else items * o.words * 8

/-- Is a field of a filter entry reserved and set, or out of range? -/
def Mdl.filterBad (s : Mdl) (a : Nat) (b : Batch) (f : Nat) : Bool :=
  let e := b.filterAddr + 160 * f
  let n := s.memNat a e 1
  decide (8 < n) || s.memNat a (e + 1) 31 != 0
    || (List.range (min 8 n)).any (fun i => bits (s.memNat a (e + 64 + 12 * i) 8) 54 10 != 0)
    || (s.filterOps a b f).any fun o => if o.form = 0 then o.words != 0 else o.words == 0 || decide (8 < o.words) || decide (64 * o.words ≤ o.bit)

/-- The bytes of a query's vector (Table 9-6). -/
def CatImage.queryBytes (i : CatImage) : Nat := if i.code = 3 then i.codeBytes else 4 * i.dim

/-- The fourth row of Table 9-7: code 0x01 or 0x06. It comes before the row for QUERY_COUNT 0, for which the filter table is not read. -/
def Mdl.batchFault (s : Mdl) (i : CatImage) (b : Batch) : Option Nat :=
  let a := i.acct
  let inside := fun addr n => decide (addr + n ≤ 2 ^ 47)
  let fs := List.range b.filters
  if b.reserved ≠ 0 ∨ 65536 < b.queries ∨ 16 < b.filters ∨ (b.filterAddr = 0 ∧ b.filters ≠ 0) then some 1
  else if b.queryAddr % 64 ≠ 0 ∨ b.resultAddr % 64 ≠ 0 ∨ b.filterAddr % 64 ≠ 0 ∨ b.queryStride % 64 ≠ 0 ∨ b.resultStride % 64 ≠ 0
      ∨ b.queryStride < 32 + i.queryBytes ∨ !inside b.queryAddr (b.queries * b.queryStride)
      ∨ !inside b.resultAddr (b.queries * b.resultStride) ∨ !inside b.filterAddr (160 * b.filters) then some 6
  else if b.queries = 0 then none
  else if fs.any (s.filterBad a b) then some 1
  else if fs.any (fun f => (s.filterOps a b f).any fun o => !inside o.addr (o.extent i.items)) then some 6
  else none

/-! ### Places (R449) -/

/-- Is a logical die a catalogue die (ROLE 2 or 3)? -/
def Mdl.catalogueRole (s : Mdl) (l : Nat) : Bool := match s.cht.chart with
  | some c => match c.roles[l]? with | some (r, _) => r == 2 || r == 3 | none => false
  | none => false

/-- Cores of a physical cluster that allow modes 0, 1 and 2. -/
def Mdl.catalogueCores (s : Mdl) (d c : Nat) : Nat := ((List.range 8).filter fun k => s.modesOf d c k % 8 == 7).length

/-- Physical clusters of a physical die that hold a place for a group. -/
def Mdl.catalogueClusters (s : Mdl) (d : Nat) : List Nat := (s.logClusters d).filter fun c => decide (0 < s.catalogueCores d c)

/-- Catalogue dies with a place, by logical number. -/
def Mdl.catalogueDies (s : Mdl) : List Nat :=
  (List.range s.logDies.length).filter fun l => s.catalogueRole l && !(s.catalogueClusters (s.logDies.getD l 0)).isEmpty

/-- The physical clusters with a place for a group. -/
def Mdl.cataloguePlaces (s : Mdl) : List (Nat × Nat) :=
  (s.catalogueDies.map fun l => s.logDies.getD l 0).flatMap fun d => (s.catalogueClusters d).map fun c => (d, c)

/-! ### Admission (R439, Table 9-7) -/

/-- Fail a search batch as a macro-operation's status would (Table 9-7, R591). -/
def Mdl.failBatch (s : Mdl) (cid ctl : Nat) (st : Status) (code : Nat) : Mdl :=
  s.emit (.completion cid ctl st (if st = Status.commandInterrupted then 1 else 0) 0 code)

/-- A search batch at admission (R439): the first case of Table 9-7 that applies. Its job may run on every cluster with a place for a group. -/
def Mdl.searchBatch (s : Mdl) (cid ctl cls acct : Nat) (params : List Byte) : Mdl :=
  let b := Batch.of params
  let x := s.cat b.cat
  match x.gen with
  | none => s.failBatch cid ctl .catalogueNotAttached 0
  | some g =>
    if x.state ≠ .serving ∨ x.acct ≠ acct then s.failBatch cid ctl .catalogueNotAttached 0
    else
      let i := s.catImage acct g.addr
      let est := s.batchEstimate i b
      if s.overloaded cls est then (s.countRefused cls).failBatch cid ctl .commandInterrupted 0
      else if s.catalogueDies.isEmpty then s.failBatch cid ctl .computeDegraded 0
      else match s.batchFault i b with
        | some c => s.failBatch cid ctl .computeResourceFault c
        | none =>
          if b.queries = 0 then s.complete cid ctl .success
          else
            let work := (s.cataloguePlaces.filterMap fun p => s.logicalOf p.1 p.2).map fun l => (l, [])
            match s.admitJob { Job.new acct cls est work with cid := some (cid, ctl), params := params, catalogue := some b.cat } with
            | none => (s.countRefused cls).failBatch cid ctl .commandInterrupted 0
            | some (j, s) => s.setCat b.cat { x with batches := x.batches ++ [⟨j, s.epoch, none, [], [], b.queries⟩] }

end Sys2Proof.Machine
end

