-- ==== Sys2Proof/Machine/FlashEvents.lean ====
section
/-! DEFINITION. Events of the media: reads that complete, SRAM faults, the scrubber, lost and fitted cartridges (R480 to R504, R543 to
R546, R694 to R697). -/
namespace Sys2Proof.Machine

/-! ### Reads that complete (R481, R485 to R487) -/

/-- A detour that met a codeword at step 4 is abandoned: its read goes on as if R480 did not allow it (R481). -/
def Mdl.abandonDetour (s : Mdl) (r : DieRead) : Mdl :=
  match s.die r.blk.slot r.blk.die with
  | .programming .. => s.readWait r
  | .erasing _ => if s.flag Reg.MED_CTRL_ERASE_SUSPEND_READ then s.suspendFor r else s.readWait r
  | _ => if s.readAct r = .direct then s.readDirect r else s.readWait r

/-- FLASH_READ_DONE: each codeword of a read of stripe `i` is recovered or not (R485 to R487). A Coudé read of an unrecovered codeword
loses its page (R486). A read that the channel does not grant yet, because the other path has the turn, goes on waiting (R364). With `detour`, the codewords are the sources of a detour read of row `row` in group `g` (R481). -/
def Mdl.flashReadDone (s : Mdl) (i g row : Nat) (coude detour : Bool) (cws : List CwRead) : Mdl :=
  if detour && cws.any (fun c => decide (4 ≤ c.step)) then
    let s := (cws.filter fun c => decide (c.step < 4)).foldl (fun (s : Mdl) c => s.codeword i c.row c.group c.cw c.step c.nbits) s
    s.abandonDetour ⟨(s.stripe i).place g, row, cws.length, if coude then .coude else .host⟩
  else
    let t := if detour then (true, s) else s.grantTransfer ((s.stripe i).place g) row coude
    if !t.1 then s
    else cws.foldl (fun (s : Mdl) c =>
      let s := s.codeword i c.row c.group c.cw c.step c.nbits
      if coude && decide (5 ≤ c.step) then
        match (((s.stripe i).sectorAt c.row c.group c.cw).bind fun p => s.farOwner i p) with
        | some key => s.losePage (key / 2 ^ 26) (key % 2 ^ 26)
        | none => s
      else s) t.2

/-! ### SRAM outside the cores (R489, Table 10-8) -/

/-- SRAM_UNCORRECTABLE. -/
def Mdl.sramFault (s : Mdl) (m : SramFault) : Mdl :=
  match m with
  | .clusterStore d c => s.clusterFault d c 5 []
  | .domeData none => s
  | .domeData (some p) => s.loseLines [p]
  | .domeTag d l => (s.loseLines l).hierRecord (unitDie d) 8 0
  | .hubBuffer false => s
  | .hubBuffer true => s.packageFault 0x0D
  | .serviceSram => s.takeover

/-! ### The scrubber (R500 to R504, Tables 10-10 and 10-21) -/

def Mdl.scrub (s : Mdl) (n : Nat) : Scrub := Table.get .init s.med.scrubs n
def Mdl.setScrub (s : Mdl) (n : Nat) (x : Scrub) : Mdl :=
  { s with med := { s.med with scrubs := Table.set .init s.med.scrubs n x } }

/-- SCRUB_START. -/
def Mdl.scrubStart (s : Mdl) (n kind : Nat) : Mdl :=
  let first := s.reg (Reg.SCB_START_FIRST n)
  let count := s.reg (Reg.SCB_COUNT_COUNT n)
  let limit := if kind = 0 then 524288 else 23552 * s.logDies.length
  let s := s.setRegs [(Reg.SCB_CMD_OP n, 1), (Reg.SCB_CMD_KIND n, kind)]
  if s.flag (Reg.SCB_STATUS_BUSY n) then s.setReg (Reg.SCB_STATUS_ERR n) 2
  else if limit < first + count then s.setReg (Reg.SCB_STATUS_ERR n) 1
  else
    let s := s.setRegs [(Reg.SCB_STATUS_ERR n, 0), (Reg.SCB_STATUS_STOPPED n, 0), (Reg.SCB_STATUS_DONE n, b2n (count == 0)),
      (Reg.SCB_STATUS_BUSY n, b2n (count != 0)), (Reg.SCB_SUM0_CLEAN n, 0), (Reg.SCB_SUM0_MAX_BITS n, 0), (Reg.SCB_SUM1_CORRECTED n, 0),
      (Reg.SCB_SUM1_UNCORR n, 0), (Reg.SCB_SUM1_RETIRED n, 0), (Reg.SCB_SUM2_EPOCHS n, 0), (Reg.SCB_SUM2_SKIPPED n, 0)]
    let s := s.setScrub n ⟨kind, first, count, 0⟩
    if count = 0 then s else s.want 4 (s.scrubTarget n)

/-- SCRUB_STOP: the scrub ends at the next codeword. -/
def Mdl.scrubStop (s : Mdl) (n : Nat) : Mdl :=
  let s := s.setReg (Reg.SCB_CMD_OP n) 2
  if s.flag (Reg.SCB_STATUS_BUSY n) then
    (s.want 4 (s.scrubTarget n)).setRegs [(Reg.SCB_STATUS_BUSY n, 0), (Reg.SCB_STATUS_STOPPED n, 1), (Reg.SCB_STATUS_DONE n, 1)]
  else s

/-- A context has finished one stripe or unit. -/
def Mdl.scrubNext (s : Mdl) (n : Nat) : Mdl :=
  let x := s.scrub n
  let s := s.setScrub n { x with done := x.done + 1 }
  if x.count ≤ x.done + 1 then s.setRegs [(Reg.SCB_STATUS_BUSY n, 0), (Reg.SCB_STATUS_DONE n, 1)] else s

/-- Add to a context's summary. -/
def Mdl.scrubSum (s : Mdl) (n clean corrected uncorr retired bits : Nat) : Mdl :=
  let s := ((s.countSat (Reg.SCB_SUM0_CLEAN n) clean).countSat (Reg.SCB_SUM1_CORRECTED n) corrected).countSat (Reg.SCB_SUM1_UNCORR n) uncorr
  (s.countSat (Reg.SCB_SUM1_RETIRED n) retired).setReg (Reg.SCB_SUM0_MAX_BITS n) (max (s.reg (Reg.SCB_SUM0_MAX_BITS n)) bits)

/-- The segment time of a scrub (Table 2-17): a page-row read at most, or one 2 MiB unit at 64 GB/s (Table 10-2, R502; that a scrub's segment is its
read DEDUCED, assumption log entry 52). -/
def scrubReadNs : Nat := 100000
def scrubUnitNs : Nat := 32768

/-- SCRUB_STRIPE: in a SCRUB window of the stripe's slot, the next stripe of a context is read or skipped (R501). `cws` lists the
codewords that did not read clean. -/
def Mdl.scrubStripe (s : Mdl) (n phase : Nat) (cws : List CwRead) : Mdl :=
  let s := s.atPhase phase
  let x := s.scrub n
  let i := x.first + x.done
  let e := s.stripe i
  if !s.flag (Reg.SCB_STATUS_BUSY n) || x.kind != 0 then s
  else if s.remaining 4 e.slot < scrubReadNs then s.want 4 e.slot
  else
    let total := if e.state = .retired then 0 else (List.range 16).foldl (fun a g => a + 16 * (s.blk (e.place g)).rows) 0
    if e.state = .free ∨ total = 0 then (s.countSat (Reg.SCB_SUM2_SKIPPED n)).scrubNext n
    else
      let bad := (cws.filter fun c => decide (5 ≤ c.step)).length
      let rebuilt := (cws.foldl (fun l c => if c.step = 4 ∧ !l.contains c.group then c.group :: l else l) ([] : List Nat)).length
      let s := cws.foldl (fun (s : Mdl) c => s.codeword i c.row c.group c.cw c.step c.nbits) s
      (s.scrubSum n (total - cws.length) (cws.length - bad) bad rebuilt (cws.foldl (fun m c => max m c.nbits) 0)).scrubNext n

/-- SCRUB_HBM: in a SCRUB window of the owning logical die, the next 2 MiB unit of a context is read (R502). `hits` lists the codewords
that did not read clean. -/
def Mdl.scrubHbm (s : Mdl) (n phase : Nat) (hits : List HbmHit) : Mdl :=
  let s := s.atPhase phase
  let x := s.scrub n
  let u := x.first + x.done
  let ld := u / 23552
  if !s.flag (Reg.SCB_STATUS_BUSY n) || x.kind != 1 then s
  else if s.remaining 4 (4096 + ld) < scrubUnitNs then s.want 4 (4096 + ld)
  else
    let d := s.logDies.getD ld 0
    let here := hits.filter fun h => h.stack / 2 == d && h.unit / 256 == u % 23552
    let bad := (here.filter (·.bad)).length
    let left := fun (s : Mdl) => s.reg (Reg.MED_HBM_SPARE_SPARE_LEFT (2 * d)) + s.reg (Reg.MED_HBM_SPARE_SPARE_LEFT (2 * d + 1))
    let before := left s
    let s := here.foldl (fun (s : Mdl) h => if h.bad then s.hbmUncorrectable ⟨h.stack, h.unit⟩ else s.hbmCorrectable ⟨h.stack, h.unit⟩) s
    (s.scrubSum n (65536 - here.length) (here.length - bad) bad (before - left s) (here.foldl (fun m h => max m h.nbits) 0)).scrubNext n

/-- A boundary passes for the contexts that run. -/
def Mdl.scrubEpoch (s : Mdl) : Mdl :=
  (List.range 4).foldl (fun s n => if s.flag (Reg.SCB_STATUS_BUSY n) then s.countSat (Reg.SCB_SUM2_EPOCHS n) else s) s

/-! ### Cartridges (R543, R544, R694 to R697) -/

/-- A CARTRIDGE record (Table 14-10). -/
def Mdl.cartRecord (s : Mdl) (slot what role : Nat) : Mdl :=
  let serial := match Table.get none s.svc.cartIds slot with
    | some c => c.serial
    | none => 0
  s.logBook 0x0A (slot + what * 2 ^ 4 + role * 2 ^ 8 + serial % 2 ^ 64 * 2 ^ 16)

/-- The stripe number that stands for a lost place: no stripe has it. -/
def lostStripe : Nat := 524288

/-- An active or powered cartridge is lost (R543, R695); a migration onto it ends. -/
def Mdl.cartridgeLost (s : Mdl) (slot : Nat) : Mdl :=
  if s.reg (Reg.MED_SLOT_STATUS_ROLE slot) ≠ 1 ∧ ¬ s.flag (Reg.MED_SLOT_STATUS_POWERED slot) then s
  else
    let mine := fun (s : Mdl) (i : Nat) => decide ((s.stripe i).slot = slot)
    let banks := (List.range 8).filter fun b => (s.ftl.bankFormat b).1 == slot || bits (s.reg Reg.FTL_BANK_SLOT_SLOTS) (4 * b) 4 == slot
    let s0 := s
    let s := (s.ftl.copies.filter fun c => mine s0 c.target || c.sources.any (mine s0)).foldl (fun (s : Mdl) c => s.abandonCopy c) s
    let s := s0.ftl.far.foldl (fun (s : Mdl) p =>
      if mine s0 ((p.2 - 1) / 240) then
        let a := p.1 / 2 ^ 26
        let n := p.1 % 2 ^ 26
        if (s.page a n).state = .far then s.losePage a n
        else (s.setPage a n { s.page a n with farCopy := false }).farDrop p.1
      else s) s
    let s := s0.ftl.map.foldl (fun (s : Mdl) p =>
      if p.2.mapped && !p.2.lost && mine s0 p.2.stripe then s.mapSet p.1 { p.2 with lost := true, filling := false } else s) s
    let s := { s with ftl := { s.ftl with
      index := s.ftl.index.map fun e => match e with
        | .put u x st p q => if mine s0 st then .put u x lostStripe 0 q else .put u x st p q
        | e => e
      bad := Table.set false s.ftl.bad (lostStripe * unitSectors) true
      openLog := Table.set 0 s.ftl.openLog slot 0
      openFar := Table.set 0 s.ftl.openFar slot 0
      migration := s.ftl.migration.filter fun m => m.target != slot
      copies := s.ftl.copies.filter fun c => c.kind != .migration || s.ftl.migration.any fun m => m.target != slot
      lostSlots := if s.ftl.lostSlots.contains slot || banks.isEmpty then s.ftl.lostSlots else s.ftl.lostSlots ++ [slot] } }
    let s := (banks.flatMap fun b => (List.range 65536).map fun j => 65536 * b + j).foldl (fun (s : Mdl) i =>
      if mine s i then s.putStripe i { s.stripe i with state := .retired, role := 0, valid := 0 } else s) s
    let s := { s with med := { s.med with dies := s.med.dies.filter fun p => p.1 / 128 != slot
                                          waiting := s.med.waiting.filter fun r => r.blk.slot != slot } }
    let s := s.setRegs [(Reg.MED_SLOT_STATUS_ROLE slot, 3), (Reg.MED_SLOT_STATUS_PROGRAMMING slot, 0), (Reg.MED_SLOT_STATUS_ERASING slot, 0),
      (Reg.MED_SLOT_STATUS_SUSPENDED slot, 0)]
    let s := (s.cartRecord slot 3 3).showSpare.showMigrate
    let s : Mdl := { s with ftl := { s.ftl with discards := s.ftl.discards.map fun d => { d with bad := d.bad.filter fun a => a.slot != slot } } }
    if s.ftl.lostSlots.isEmpty then s else s.startMigration.spareCheck

/-- A migration is due by wear or spares (R544). -/
def Mdl.migrationDue (s : Mdl) : Bool :=
  !s.ftl.lostSlots.isEmpty || decide (s.reg Reg.FTL_STATUS_SPARE_PCT ≤ s.reg Reg.FTL_SPARE_CTRL_BRING_PCT)
    || s.activeSlots.any fun sl => decide (s.reg Reg.FTL_SPARE_CTRL_WEAR_LIMIT ≤ s.meanErases sl)

/-- MIGRATION_START (R544). -/
def Mdl.migrationStart (s : Mdl) : Mdl := if s.migrationDue then s.startMigration else s

/-- May an identity be accepted (R696)? -/
def Mdl.acceptable (s : Mdl) (c : CartId) : Bool :=
  c.good && decide (c.totalErases < s.reg Reg.FTL_SPARE_CTRL_WEAR_LIMIT * 1081344)

/-- Make a slot the parked spare (R697): powered, role 2. -/
def Mdl.parkSpare (s : Mdl) (slot : Nat) : Mdl :=
  s.setRegs [(Reg.MED_SLOT_STATUS_POWERED slot, 1), (Reg.MED_SLOT_STATUS_ROLE slot, 2)]

/-- At a migration's end the lowest slot that holds an accepted, idle cartridge becomes the parked spare when none remains (R697). -/
def Mdl.adoptSpare (s : Mdl) : Mdl :=
  if s.parkedSpare.isSome then s
  else match (List.range 9).find? fun sl => s.flag (Reg.MED_SLOT_STATUS_PRESENT sl) && s.reg (Reg.MED_SLOT_STATUS_ROLE sl) == 0
      && (match Table.get none s.svc.cartIds sl with | some c => s.acceptable c | none => false) with
    | some sl => (s.parkSpare sl).cartRecord sl 4 2
    | none => s

/-- MIGRATION_END (R545, R697), with a checkpoint (R557). -/
def Mdl.migrationEnds (s : Mdl) : Mdl :=
  let t := s.migrationEnd
  if s.ftl.migration.isSome && t.ftl.migration.isNone then t.adoptSpare.checkpoint else t

/-- CARTRIDGE_INSERT: the identity is read, and the cartridge is refused, parked or left idle (R696 to R698). -/
def Mdl.cartridgeInsert (s : Mdl) (slot : Nat) (c : CartId) : Mdl :=
  if s.flag (Reg.MED_SLOT_STATUS_PRESENT slot) then s
  else
    let s : Mdl := { s with svc := { s.svc with cartIds := Table.set none s.svc.cartIds slot (some c) } }
    let s := s.setRegs [(Reg.MED_SLOT_STATUS_PRESENT slot, 1), (Reg.MED_SLOT_STATUS_POWERED slot, 0), (Reg.MED_SLOT_STATUS_ROLE slot, 0)]
    let s : Mdl := { s with med := { s.med with blocks := s.med.blocks.filter fun p => p.1 / 8448 / 128 != slot }
                            ftl := { s.ftl with sparesUsed := s.ftl.sparesUsed.filter fun p => p.1 / 128 != slot } }
    if !s.acceptable c then s.cartRecord slot 5 0
    else
      let s := (s.cartRecord slot 1 (if s.parkedSpare.isNone then 2 else 0)).total .cartridges
      if s.parkedSpare.isNone then s.parkSpare slot else s

/-- CARTRIDGE_PULL (R543, R695). -/
def Mdl.cartridgePull (s : Mdl) (slot : Nat) : Mdl :=
  if !s.flag (Reg.MED_SLOT_STATUS_PRESENT slot) then s
  else
    let powered := s.flag (Reg.MED_SLOT_STATUS_POWERED slot)
    let role := s.reg (Reg.MED_SLOT_STATUS_ROLE slot)
    let s := if role = 1 then s.cartridgeLost slot
      else if powered then (s.cartridgeLost slot).setReg (Reg.MED_SLOT_STATUS_ROLE slot) 0
      else (s.cartRecord slot 2 0).setReg (Reg.MED_SLOT_STATUS_ROLE slot) 0
    let s := s.setRegs [(Reg.MED_SLOT_STATUS_PRESENT slot, 0), (Reg.MED_SLOT_STATUS_POWERED slot, 0)]
    { s with svc := { s.svc with cartIds := Table.set none s.svc.cartIds slot none } }

end Sys2Proof.Machine
end

