-- ==== Sys2Proof/Machine/HostOps.lean ====
section
/-! DEFINITION. What commands do to NVM and zoned namespaces on one module: writes, zones, deallocation, secure discard, namespace
management, format, sanitize; and how host commands meet device memory (R551 to R554, R572 to R575, R592 to R602). -/
namespace Sys2Proof.Machine

/-- Where a logical block of a namespace lies: unit and sector (R573). -/
def Ns.place (n : Ns) (lba : Nat) : Nat × Nat :=
  if n.kind = .zoned then (n.first + lba / 131072, lba % 131072) else (n.first + lba / 122880, lba % 122880)

/-! ### Namespaces -/

def Mdl.nsAt (s : Mdl) (n : Nat) : Option Ns := Table.get none s.host.ns n
def Mdl.setNs (s : Mdl) (n : Nat) (x : Option Ns) : Mdl := { s with host := { s.host with ns := Table.set none s.host.ns n x } }

/-- The namespaces that exist, as pairs with their NSID; the compute namespace 64 always exists and is not listed. -/
def Mdl.nsList (s : Mdl) : List (Nat × Ns) := s.host.ns.filterMap fun p => p.2.map fun x => (p.1, x)

/-- The lowest NSID from 1 to 63 that no namespace uses (R574; which one is DESIGN CHOICE, assumption log entry 17). -/
def Mdl.freeNsid (s : Mdl) : Option Nat := (List.range 63).findSome? fun i => if (s.nsAt (i + 1)).isNone then some (i + 1) else none

/-- Logical units of the module: data stripes at default format (Table 11-1). -/
def unitCount : Nat := 448000

/-- The lowest free run of `n` units (R574): it starts at unit 0 or where a namespace ends. -/
def Mdl.freeRun (s : Mdl) (n : Nat) : Option Nat :=
  let used := s.nsList.filterMap fun p => if p.2.kind = .memory then none else some (p.2.first, p.2.first + p.2.units)
  let fits := fun a => decide (a + n ≤ unitCount) && used.all fun u => decide (a + n ≤ u.1) || decide (u.2 ≤ a)
  (0 :: used.map (·.2)).foldl (fun b a => if fits a && (match b with | some c => decide (a < c) | none => true) then some a else b) none

/-- Delete a namespace: NVM units are deallocated, range sets that use a memory namespace go (R588). -/
def Mdl.dropNs (s : Mdl) (n : Nat) : Mdl :=
  match s.nsAt n with
  | none => s
  | some x =>
    let s := if x.kind = .memory then s else (List.range x.units).foldl (fun (s : Mdl) i => s.deallocUnit (x.first + i)) s
    let s := s.setNs n none
    if x.kind = .memory then
      { s with host := { s.host with sets := s.host.sets.filter fun p => match p.2 with
        | some l => l.all fun r => r.nsid != n
        | none => false } }
    else s

/-! ### Writes and zones (R517, R552 to R554, R575) -/

/-- Take a stripe for a zone (R517, R575). -/
def Mdl.startZone (s : Mdl) (u : Nat) : Option Mdl := (s.zoneRoom).newFill u true

/-- Write at a zone's write pointer; a zone written to its capacity is full. -/
def Mdl.zoneWrite (s : Mdl) (u : Nat) (ds : List Sector) : Option Mdl :=
  let go := fun (s : Mdl) =>
    let s := s.fillWrite u ds
    let m := s.unit u
    if unitSectors ≤ m.fill then s.setUnit u { m with full := true } else s
  if (s.unit u).mapped then some (go s) else (s.startZone u).map go

/-- Deallocate part of a unit or all of it (R523, R550). -/
def Mdl.deallocRun (s : Mdl) (u x n : Nat) : Mdl :=
  if n = 0 then s
  else if x = 0 ∧ unitSectors ≤ n then s.deallocUnit u
  else
    let s := s.trimRun u x n
    if s.reg Reg.FTL_MERGE_MERGE_AT < n then s.startMerge u false else s

/-! ### Secure discard (R551) -/

/-- May a stripe hold a copy of sectors of the unit: its current data stripe, a log stripe whose unit list names it, or a STALE or ERASING stripe
whose OWNER or unit list does (R551 step 3)? -/
def Mdl.mayHold (s : Mdl) (u : Nat) (p : Nat × Stripe) : Bool :=
  let named := (Table.get [] s.ftl.unitLists p.1).contains u
  match p.2.state with
  | .stale | .erasing => p.2.owner == u || named
  | .opened | .sealed => if p.2.role = 2 then named else p.2.role == 1 && p.2.owner == u
  | _ => false

/-- Live content outside the range of a discard of unit `u` begins to leave stripe `i`: its data stripe is merged, a log stripe is sealed and
copied out (R531, R551). -/
def Mdl.leaveStripe (s : Mdl) (u i : Nat) : Mdl :=
  let e := s.stripe i
  if e.state ≠ .opened ∧ e.state ≠ .sealed then s
  else if e.role = 1 then s.startMerge u false
  else
    let s := (s.sealStripe i).staleIfEmpty i
    if (s.stripe i).state ≠ .sealed ∨ s.isSource i then s
    else match s.takeTarget e.slot 2 e.light false 0 with
      | none => s.abandonForSpace
      | some r => r.2.beginCopy .set r.1 [i] none

/-- One secure discard goes on: stripes that content has left wait for their erase, and their failed die-blocks are to be sent one as well. -/
def Mdl.discardGoesOn (s : Mdl) (d : Discard) : Mdl × Discard :=
  let s := d.leave.foldl (fun (s : Mdl) i => s.leaveStripe d.unit i) s
  let dying := fun (i : Nat) => (s.stripe i).state == .stale || (s.stripe i).state == .erasing
  let left := d.leave.filter dying
  let bad := left.flatMap fun i => ((List.range 16).filter fun g => bit (s.stripe i).failed g).map fun g => (s.stripe i).place g
  (s, { d with leave := d.leave.filter fun i => (s.stripe i).state == .opened || (s.stripe i).state == .sealed
               erase := d.erase.filter dying ++ left, bad := d.bad ++ bad })

/-- Secure discards go on; one with nothing left to erase is done, and the merges it abandoned restart (R551). -/
def Mdl.discardsGoOn (s : Mdl) : Mdl :=
  let r := s.ftl.discards.foldl (fun (r : Mdl × List Discard) d =>
    let q := r.1.discardGoesOn d
    (q.1, r.2 ++ [q.2])) (s, [])
  let open_ := fun (d : Discard) => !(d.leave.isEmpty && d.erase.isEmpty && d.bad.isEmpty)
  let s : Mdl := { r.1 with ftl := { r.1.ftl with discards := r.2.filter open_ } }
  (r.2.filter fun d => !open_ d).foldl (fun (s : Mdl) d =>
    (d.redo.foldl (fun (s : Mdl) v => s.startMerge v false) s).count Reg.FTL_DISCARD_SECURE_DONE) s

/-- A secure discard of `n` sectors of unit `u` from sector `x` begins (R551): copies whose sources hold them are abandoned, and every entry
that names them goes. -/
def Mdl.secureRun (s : Mdl) (u x n : Nat) : Mdl :=
  if n = 0 then s
  else
    let before := s
    let redo := s.ftl.copies.filter fun c => c.unit == some u || c.sources.any fun i => before.mayHold u (i, before.stripe i)
    let s := redo.foldl (fun (s : Mdl) c => s.abandonCopy c) s
    let s :=
      if x ≠ 0 ∨ n < unitSectors then
        let s := s.dropRun u x n
        ({ s with ftl := { s.ftl with index := s.ftl.index.flatMap (LogEnt.cut u x (x + n)) } }).trimRun u x n
      else s.deallocUnit u
    let due := (s.listed.filter (s.mayHold u)).map (·.1)
    let d : Discard := ⟨u, x, n, due, [], [], (redo.filterMap (·.unit)).filter (· ≠ u)⟩
    { s with ftl := { s.ftl with discards := s.ftl.discards ++ [d] } }.discardsGoOn

/-- Does a secure discard of one of these runs go on? -/
def Mdl.discarding (s : Mdl) (runs : List (Nat × Nat × Nat)) : Bool :=
  s.ftl.discards.any fun d => runs.any fun r => d.unit == r.1 && decide (d.first < r.2.1 + r.2.2) && decide (r.2.1 < d.first + d.count)

/-! ### Format and sanitize (R597, R598) -/

/-- Every unit of a namespace. -/
def Ns.unitList (x : Ns) : List Nat := (List.range x.units).map (x.first + ·)

/-- Draw a new media key for a namespace (R595). -/
def Mdl.rekey (s : Mdl) (n : Nat) : Mdl :=
  match s.nsAt n with
  | none => s
  | some x =>
    let k := s.fresh 256
    k.2.setNs n (some { x with key := k.1 })

/-- Format one namespace (R597). -/
def Mdl.formatNs (s : Mdl) (n ses : Nat) : Mdl :=
  match s.nsAt n with
  | none => s
  | some x =>
    if ses = 1 then x.unitList.foldl (fun (s : Mdl) u => s.secureRun u 0 unitSectors) s
    else x.unitList.foldl (fun (s : Mdl) u => s.deallocUnit u) (if ses = 2 then s.rekey n else s)

/-- Every catalogue is detached (R598); an ATTACH under way ends with it, by a code that no rule names (a free value). -/
def Mdl.detachAll (s : Mdl) : Mdl :=
  let cats := s.cats.filterMap fun p =>
    let x : CatSt := { CatSt.init with accepted := p.2.accepted, queries := p.2.queries }
    if x = .init then none else some (p.1, x)
  let s : Mdl := { s with cats := cats }
  if s.flag Reg.CAT_CMD_STATUS_BUSY then
    let e := s.fresh 4
    e.2.setRegs [(Reg.CAT_CMD_STATUS_BUSY, 0), (Reg.CAT_CMD_STATUS_DONE, 1), (Reg.CAT_CMD_STATUS_ERR, e.1)]
  else s

/-- Sanitize a module whose compute is quiet (R598): device memory, memory namespaces and catalogues go, then the erase, whole at once (assumption
log entry 16); compute admission reopens unless a chart load keeps it closed. -/
def Mdl.sanitizeNow (s : Mdl) (block : Bool) : Mdl :=
  let s := s.clearTiers
  let s := (s.nsList.filter fun p => p.2.kind == .memory).foldl (fun (s : Mdl) p => s.dropNs p.1) s
  let s := s.detachAll
  let stores := s.nsList
  let s :=
    if block then
      let s := s.ftl.copies.foldl (fun (s : Mdl) c => s.abandonCopy c) s
      let s := stores.foldl (fun (s : Mdl) p => p.2.unitList.foldl (fun (s : Mdl) u => s.setUnit u .none) s) s
      let s : Mdl := { s with ftl := { s.ftl with index := [], openLog := [], openFar := [], unitLists := [], far := [], map := [] } }
      let s := (List.range 524288).foldl (fun (s : Mdl) i =>
        if (s.stripe i).state = .retired then s
        else (s.setStripe i { s.stripe i with state := .stale, valid := 0 }).eraseWhole i) s
      ({ s with ftl := { s.ftl with buffer := [] } }).checkpoint
    else
      let s := stores.foldl (fun (s : Mdl) p => p.2.unitList.foldl (fun (s : Mdl) u => s.deallocUnit u) (s.rekey p.1)) s
      let k := s.fresh 256
      { k.2 with tir := { k.2.tir with spillKey := k.1 } }
  let s : Mdl := { s with host := { s.host with sanitize := none } }
  let s :=
    if s.cht.closed then s
    else s.clusters.foldl (fun s p => s.setCluster (p.1 / 26) (p.1 % 26) { s.cluster (p.1 / 26) (p.1 % 26) with quiesce := false }) s
  (s.showLog).logBook 0x14 ((if block then 2 else 1) + 4)

/-- A sanitize of this module begins (R598): compute quiesces as R145 says, every cluster at its next mark; the rest waits until it is quiet. -/
def Mdl.beginSanitize (s : Mdl) (block : Bool) : Mdl :=
  let s := s.logBook 0x14 (if block then 2 else 1)
  let s : Mdl := { s with host := { s.host with sanitize := some ⟨block, none⟩ } }
  let s := s.clusters.foldl (fun s p => s.setCluster (p.1 / 26) (p.1 % 26) { s.cluster (p.1 / 26) (p.1 % 26) with quiesce := true }) s
  if s.allQuiet then s.sanitizeNow block else s

/-! ### The write buffer (R474, R518, R519) -/

/-- Sectors that the write buffer holds: 256 MiB. -/
def bufferSectors : Nat := 65536

/-- Sectors of host data in the write buffer: those of data and log stripes whose rows are not complete (R474). -/
def Mdl.buffered (s : Mdl) : Nat :=
  (s.listed.filter fun p => (p.2.state == .opened || p.2.state == .sealed) && (p.2.role == 1 || p.2.role == 2) && !(s.ftl.copies.any fun c => c.target == p.1)).foldl
    (fun n p => n + (s.dataSectors p.1 - 240 * p.2.rows)) 0

/-- Has the write buffer room for a write (R519)? One larger than the buffer waits until it is empty (DESIGN CHOICE, assumption log entry 58). -/
def Mdl.bufferRoom (s : Mdl) (sectors : Nat) : Bool := sectors == 0 || decide (s.buffered + min sectors bufferSectors ≤ bufferSectors)

/-- Sectors that a change writes. -/
def opSectors : NvOp → Nat
  | .write _ _ ds => ds.length
  | _ => 0

/-! ### Applying a change (R647) -/

/-- The unit whose home orders a change; namespace management, format and sanitize go with unit 0 (DEDUCED, assumption log entry 25). -/
def unitOfOp (o : NvOp) : Nat :=
  match o with
  | .write u _ _ | .dealloc u _ _ | .secure u _ _ | .zoneOpen u | .zoneFinish u | .zoneReset u => u
  | .nsCreate .. | .nsDelete _ | .format .. | .sanitize _ => 0

/-- Apply a change to this module's namespaces; none when it must wait for stripes or log-index room (R521, R524). -/
def Mdl.nvApply (s : Mdl) (o : NvOp) : Option Mdl :=
  match o with
  | .write u x ds =>
    let s := s.count Reg.FTL_WRITTEN_SECTORS ds.length
    match s.nsOfUnit u with
    | some n => if n.kind = .zoned then s.zoneWrite u ds else s.writeRun u x ds
    | none => s.writeRun u x ds
  | .dealloc u x n =>
    let whole := n == 0 || (x == 0 && decide (unitSectors ≤ n))
    if !whole && decide (8388608 ≤ s.ftl.index.length) then none else some (s.deallocRun u x n)
  | .secure u x n =>
    let whole := n == 0 || (x == 0 && decide (unitSectors ≤ n))
    if !whole && decide (8388608 ≤ s.ftl.index.length) then none else some (s.secureRun u x n)
  | .zoneOpen u => if (s.unit u).mapped then some s else s.startZone u
  | .zoneFinish u => some (s.finishZone u false)
  | .zoneReset u => some (s.deallocUnit u)
  | .nsCreate n zoned units cls =>
    match s.freeRun units with
    | none => some s
    | some first =>
      if (s.nsAt n).isSome then some s else
      let k := s.fresh 256
      some (k.2.setNs n (some { kind := if zoned then .zoned else .nvm, first := first, units := units
                                size := units * (if zoned then 131072 else unitSectors), cls := cls, acct := 0, base := 0, key := k.1 }))
  | .nsDelete n => some (s.dropNs n)
  | .format n ses => some (s.formatNs n ses)
  | .sanitize block => some (s.beginSanitize block)

/-- The units a change touches, whose dirty bits it sets outside PAIRED (R654). -/
def Mdl.unitsOf (s : Mdl) (o : NvOp) : List Nat :=
  match o with
  | .write u _ _ | .dealloc u _ _ | .secure u _ _ | .zoneOpen u | .zoneFinish u | .zoneReset u => [u]
  | .format n _ | .nsDelete n => match s.nsAt n with
    | some x => if x.kind = .memory then [] else x.unitList
    | none => []
  | .nsCreate .. => []
  | .sanitize _ => List.range unitCount

/-- The runs of an NVM namespace's units that blocks `lba` to `lba + n - 1` cover. -/
def Ns.unitRuns (x : Ns) (lba n : Nat) : List (Nat × Nat × Nat) :=
  ((List.range x.units).map fun k =>
    let lo := max lba (k * unitSectors)
    (x.first + k, lo - k * unitSectors, min (lba + n) ((k + 1) * unitSectors) - lo)).filter fun r => r.2.2 != 0

/-- The runs that a change discards securely. -/
def Mdl.discardRuns (s : Mdl) (o : NvOp) : List (Nat × Nat × Nat) :=
  match o with
  | .secure u x n => [(u, x, n)]
  | .format n ses => match s.nsAt n with
    | some x => if ses = 1 then x.unitList.map fun u => (u, 0, unitSectors) else []
    | none => []
  | _ => []

/-- The runs that a host command discards securely. -/
def Mdl.secureRuns (s : Mdl) (o : HostOp) : List (Nat × Nat × Nat) :=
  match o with
  | .secure n rs => match s.nsAt n with
    | some x => rs.flatMap fun r => x.unitRuns r.1 r.2
    | none => []
  | .format n ses => s.discardRuns (.format n ses)
  | .forwarded o _ => s.discardRuns o
  | _ => []

/-- Does what a change began go on here: a secure discard or a sanitize (R551, R598)? -/
def Mdl.changeGoesOn (s : Mdl) (o : NvOp) : Bool :=
  s.discarding (s.discardRuns o) || match o with
    | .sanitize _ => s.host.sanitize.isSome
    | _ => false

/-- Does what a host command began go on here? -/
def Mdl.commandGoesOn (s : Mdl) (o : HostOp) : Bool :=
  s.discarding (s.secureRuns o) || match o with
    | .sanitize _ => s.host.sanitize.isSome
    | .forwarded o _ => s.changeGoesOn o
    | _ => false

/-! ### Device memory as the host meets it (R566 to R568, R594, Table 12-4) -/

/-- The fault of an access that does not take place: one whose promotion finds no frame has exceeded its quota (R337). -/
def AccessEnd.endsAs : AccessEnd → PageFault
  | .fault f _ => f
  | .wait _ => .quota

/-- Bytes of an account's range as the host reads them, page by page: an unmapped page gives zeros and stays unmapped. -/
def Mdl.hostLoad (s : Mdl) (a addr n : Nat) : List Nat → Except PageFault (List Byte × Mdl)
  | [] => .ok ([], s)
  | p :: t =>
    let lo := max addr (p * pageBytes)
    let len := min (addr + n) ((p + 1) * pageBytes) - lo
    if (s.page a p).state = .unmapped then
      (Mdl.hostLoad s a addr n t).map fun r => (List.replicate len 0#8 ++ r.1, r.2)
    else match s.loadBytes (.of .host) a lo len with
      | .error e => .error e.endsAs
      | .ok (l, s) => (Mdl.hostLoad s a addr n t).map fun r => (l ++ r.1, r.2)

/-- Bytes the host writes, page by page: an unmapped page is mapped in HBM, zero-filled, first. The pages before one that fails
are written. -/
def Mdl.hostStore (s : Mdl) (a addr : Nat) (l : List Byte) : List Nat → Option PageFault × Mdl
  | [] => (none, s)
  | p :: t =>
    let lo := max addr (p * pageBytes)
    let len := min (addr + l.length) ((p + 1) * pageBytes) - lo
    match (if (s.page a p).state = .unmapped then s.mapHbm a p none else .done s) with
    | .done s =>
      match s.storeBytes (.of .host) a lo ((l.drop (lo - addr)).take len) with
      | .error e => (some e.endsAs, s)
      | .ok s => Mdl.hostStore s a addr l t
    | _ => (some .quota, s)

/-- Do the pages of a host access let it take place now? A far or moving page is waited for, as are the remote bytes of a read, and a write to an
unmapped page waits for its frame (R567); a fault is left to the access itself. -/
def Mdl.readyPages (s : Mdl) (a addr n : Nat) (write : Bool) : List Nat → Bool × Mdl
  | [] => (true, s)
  | p :: t => match (s.page a p).state with
    | .unmapped => match (if write then s.mapHbm a p none else .done s) with
      | .done s => Mdl.readyPages s a addr n write t
      | .wait s => (false, s)
      | _ => (true, s)
    | _ => match s.waitFor (.of .host) a (partIn addr n p).1 (partIn addr n p).2 write with
      | none => Mdl.readyPages s a addr n write t
      | some f => match s.beginWait (.of .host) a f with
        | some s => (false, s)
        | none => (true, s)

def Mdl.hostReady (s : Mdl) (a addr n : Nat) (write : Bool) : Bool × Mdl := s.readyPages a addr n write (pagesOf addr n)

def Mdl.hostRead (s : Mdl) (a addr n : Nat) : Except PageFault (List Byte × Mdl) := s.hostLoad a addr n (pagesOf addr n)
def Mdl.hostWrite (s : Mdl) (a addr : Nat) (l : List Byte) : Option PageFault × Mdl := s.hostStore a addr l (pagesOf addr l.length)

end Sys2Proof.Machine
end

