-- ==== Sys2Proof/Machine/Twin.lean ====
section
/-! DEFINITION. Twins (R646 to R659): the mirroring of changes, dirty bits, the twin state machine, resync, checkpoints; and the end of a
host command with its range locks (R579, R580). -/
namespace Sys2Proof.Machine

/-! ### Ending host commands -/

def Mdl.fetchedAt (s : Mdl) (cid ctl : Nat) : Option Fetched := s.host.fetched.find? fun f => f.cmd.cid == cid && f.cmd.ctl == ctl
def Mdl.mapFetched (s : Mdl) (cid ctl : Nat) (g : Fetched → Fetched) : Mdl :=
  { s with host := { s.host with fetched := s.host.fetched.map fun f => if f.cmd.cid = cid ∧ f.cmd.ctl = ctl then g f else f } }

/-- Release the range-lock entries of a command (R579). -/
def Mdl.unlock (s : Mdl) (cid ctl : Nat) : Mdl :=
  { s with host := { s.host with locks := s.host.locks.filter fun l => !(l.cid == cid && l.ctl == ctl) } }

/-- A command leaves the fetched list with a status: its locks are released and it completes, or its forwarder is answered. -/
def Mdl.endCmd (s : Mdl) (cid ctl : Nat) (st : Status) : Mdl :=
  match s.fetchedAt cid ctl with
  | none => s
  | some f =>
    let s := s.unlock cid ctl
    let s : Mdl := { s with host := { s.host with fetched := s.host.fetched.filter fun g => !(g.cmd.cid == cid && g.cmd.ctl == ctl) } }
    match f.cmd.op with
    | .forwarded _ m => s.respond m (if st = Status.success then 0 else 7) 0 []
    | _ => if f.discard then s else s.complete cid ctl st (f.result % 2 ^ 32) (f.result / 2 ^ 32 % 2 ^ 32)

/-- Are these sectors on flash (R21)? -/
def Mdl.runOnFlash (s : Mdl) (u x n : Nat) : Bool := (List.range n).all fun i => match s.source u (x + i) with
  | .at st p => decide (p / 240 < (s.stripe st).rows)
  | _ => true

/-- A command performed here, with no mirror outstanding, its data safe and its secure discards or its sanitize at their end, completes (R21, R518, R551, R647). -/
def Mdl.settleCmd (s : Mdl) (cid ctl : Nat) : Mdl :=
  match s.fetchedAt cid ctl with
  | none => s
  | some f =>
    if f.started && f.left == 0 && !s.commandGoesOn f.cmd.op && f.flash.all fun r => s.runOnFlash r.1 r.2.1 r.2.2 then s.endCmd cid ctl .success else s

/-! ### Messages of changes (Table 13-6) -/

def sectorBytes (d : Sector) : List Byte := leBytes 4096 d.toNat
def sectorOf (l : List Byte) : Sector := BitVec.ofNat 32768 (leNat (l.take 4096))
def sectorsOf : Nat → List Byte → List Sector
  | 0, _ => []
  | n + 1, l => sectorOf l :: sectorsOf n (l.drop 4096)

/-- The data of a TWIN_WRITE or TWIN_COPY message. -/
def twinRun (u x n order : Nat) : List Byte := leBytes 16 (u + x * 2 ^ 19 + n * 2 ^ 36 + order * 2 ^ 64)

/-- The 64 bytes of a TWIN_OP, whose layout the spec leaves open (DESIGN CHOICE, assumption log entry 25): op, unit, first, count, the twin
order number in the last 8. -/
def twinOpBytes (op a b c order : Nat) : List Byte :=
  leBytes 8 op ++ leBytes 8 a ++ leBytes 8 b ++ leBytes 8 c ++ List.replicate 24 0 ++ leBytes 8 order

/-- A change as a message: its TYPE, data and stream. -/
def twinMsgOf (o : NvOp) (order : Nat) : Nat × List Byte × List Byte :=
  match o with
  | .write u x ds => (0x10, twinRun u x ds.length order, ds.flatMap sectorBytes)
  | .dealloc u x n => (0x11, twinOpBytes 1 u x n order, [])
  | .secure u x n => (0x11, twinOpBytes 2 u x n order, [])
  | .zoneOpen u => (0x11, twinOpBytes 3 u 0 0 order, [])
  | .zoneFinish u => (0x11, twinOpBytes 4 u 0 0 order, [])
  | .zoneReset u => (0x11, twinOpBytes 5 u 0 0 order, [])
  | .nsCreate n z k c => (0x11, twinOpBytes 6 n k (c + b2n z * 2 ^ 8) order, [])
  | .nsDelete n => (0x11, twinOpBytes 7 n 0 0 order, [])
  | .format n ses => (0x11, twinOpBytes 8 n ses 0 order, [])
  | .sanitize b => (0x11, twinOpBytes 9 (b2n b) 0 0 order, [])

/-- The change a message carries. -/
def twinMsgOp (m : LMsg) : Option NvOp :=
  let w := leNat (m.data.take 16)
  let f := fun (i : Nat) => leNat ((m.data.drop (8 * i)).take 8)
  if m.type = 0x10 then some (.write (bits w 0 19) (bits w 19 17) (sectorsOf (bits w 36 17) m.stream))
  else match f 0 with
    | 1 => some (.dealloc (f 1) (f 2) (f 3))
    | 2 => some (.secure (f 1) (f 2) (f 3))
    | 3 => some (.zoneOpen (f 1))
    | 4 => some (.zoneFinish (f 1))
    | 5 => some (.zoneReset (f 1))
    | 6 => some (.nsCreate (f 1) (bit (f 3) 8) (f 2) (bits (f 3) 0 8))
    | 7 => some (.nsDelete (f 1))
    | 8 => some (.format (f 1) (f 2))
    | 9 => some (.sanitize (f 1 == 1))
    | _ => none

/-- The twin order number of a message; 0 for a change forwarded to its home (assumption log entry 24). -/
def twinOrder (m : LMsg) : Nat := if m.type = 0x10 then leNat ((m.data.drop 8).take 8) else leNat ((m.data.drop 56).take 8)

/-! ### Homes, mirrors, dirty bits (R646, R647, R654) -/

def Mdl.twinState (s : Mdl) : Nat := s.reg Reg.TWN_STATUS_STATE
def Mdl.feeding (s : Mdl) : Bool := s.flag Reg.TWN_STATUS_FEEDING
def Mdl.isLower (s : Mdl) : Bool := decide (s.myModule < s.reg Reg.TWN_STATUS_PARTNER)

/-- Is this module home to a unit (R646)? -/
def Mdl.homeHere (s : Mdl) (u : Nat) : Bool :=
  if s.twinState = 4 ∨ s.twinState = 3 then (u % 2 == 0) == s.isLower else true

/-- Does this module mirror its changes: PAIRED, or the survivor of a resync (R647, R655)? -/
def Mdl.mirroring (s : Mdl) : Bool := s.twinState == 4 || (s.twinState == 5 && s.feeding)

/-- May NVM and zoned namespaces be reached here (Table 13-12)? Not while DETACH is under way (R652). -/
def Mdl.anaOk (s : Mdl) : Bool := (s.twinState == 0 || s.twinState == 4 || s.twinState == 5) && s.twn.detaching == 0

def Mdl.showDirty (s : Mdl) : Mdl :=
  s.setRegs [(Reg.TWN_DIRTY_DIRTY, s.twn.dirty.length), (Reg.TWN_DIRTY_RESYNC_LEFT, s.twn.resync.length)]

/-- Set a unit's dirty bit, journaled when first set (R654, Table 13-13). -/
def Mdl.setDirty (s : Mdl) (u : Nat) : Mdl :=
  if Table.get false s.twn.dirty u then s
  else
    let s := s.journal 0x32 (u + 2 ^ 19)
    ({ s with twn := { s.twn with dirty := Table.set false s.twn.dirty u true } }).showDirty

def Mdl.clearDirty (s : Mdl) (u : Nat) : Mdl :=
  if Table.get false s.twn.dirty u then
    let s := s.journal 0x32 u
    ({ s with twn := { s.twn with dirty := Table.set false s.twn.dirty u false } }).showDirty
  else s

/-- Send a change to the partner and remember it (R647); a command counts once, however many changes it makes (Table 13-27). -/
def Mdl.sendMirror (s : Mdl) (o : NvOp) (order : Nat) (owner : Option (Nat × Nat)) (fwd : Option LMsg) : Mdl :=
  let id := s.twn.nextMirror
  let another := owner.isSome && s.twn.mirrors.any fun m => m.owner == owner
  let s : Mdl := { s with twn := { s.twn with nextMirror := id + 1, mirrors := s.twn.mirrors ++ [⟨id, order, o, owner, fwd⟩] } }
  let m := twinMsgOf o order
  let s := (s.twinSend m.1 m.2.1 m.2.2 (.mirror id)).getD s
  if another then s else s.count Reg.TWN_MIRROR_MIRRORED

/-- Perform one change of a command (R647): here and mirrored, forwarded to its home, or here alone with dirty bits. The second
component counts the mirrors it waits for; none when it must wait for room. -/
def Mdl.change (s : Mdl) (o : NvOp) (owner : Option (Nat × Nat)) (fwd : Option LMsg) : Option (Mdl × Nat) :=
  if s.mirroring then
    if s.homeHere (unitOfOp o) then
      (s.nvApply o).map fun s =>
        let order := s.twn.nextOrder
        (({ s with twn := { s.twn with nextOrder := order + 1 } } : Mdl).sendMirror o order owner fwd, 1)
    else some (s.sendMirror o 0 owner fwd, 1)
  else
    let units := s.unitsOf o
    (s.nvApply o).map fun s => (if s.twinState = 4 then s else units.foldl (fun (s : Mdl) u => s.setDirty u) s, 0)

/-- Perform the changes of a command in order. -/
def Mdl.changes (s : Mdl) (owner : Option (Nat × Nat)) (fwd : Option LMsg) : List NvOp → Option (Mdl × Nat)
  | [] => some (s, 0)
  | o :: t => (s.change o owner fwd).bind fun r => (Mdl.changes r.1 owner fwd t).map fun q => (q.1, q.2 + r.2)

/-- A mirror leaves the list; its command loses one of its outstanding mirrors. -/
def Mdl.dropMirror (s : Mdl) (m : Mirror) : Mdl :=
  let s : Mdl := { s with twn := { s.twn with mirrors := s.twn.mirrors.filter fun x => x.id != m.id } }
  let s := match m.fwd with
    | some f => s.unlock f.tag 65536
    | none => s
  match m.owner with
  | some (cid, ctl) => s.mapFetched cid ctl fun f => { f with left := f.left - 1 }
  | none => s

/-! ### The twin state machine (R650 to R653, Table 13-11) -/

/-- The forwarded changes this module was performing for its partner are dropped. -/
def Mdl.dropForwards (s : Mdl) : Mdl :=
  let gone := s.host.fetched.filterMap fun f => match f.cmd.op with
    | .forwarded _ _ => some (f.cmd.cid, f.cmd.ctl)
    | _ => none
  gone.foldl (fun (s : Mdl) p =>
    let s := s.unlock p.1 p.2
    { s with host := { s.host with fetched := s.host.fetched.filter fun f => !(f.cmd.cid == p.1 && f.cmd.ctl == p.2) } }) s

/-- Twin order numbers start afresh. -/
def Mdl.restartOrders (s : Mdl) : Mdl :=
  { s with twn := { s.twn with nextOrder := 1, lastOrder := 0, early := [], slow := [] }
           spn := { s.spn with reqs := s.spn.reqs.filter fun r => match r.purpose with
             | .mirror _ => false
             | .resync .. => false
             | _ => true } }

/-- The mirrors that wait are resolved without the partner: each unit's bit is set, a change forwarded is performed here, and the
commands complete. -/
def Mdl.resolveMirrors (s : Mdl) : Mdl :=
  let l := s.twn.mirrors
  l.foldl (fun (s : Mdl) m =>
    let units := s.unitsOf m.op
    let s := if m.order = 0 then (s.nvApply m.op).getD s else s
    let s := (units.foldl (fun (s : Mdl) u => s.setDirty u) s).dropMirror m
    match m.owner with
    | some (cid, ctl) => s.settleCmd cid ctl
    | none => s) s

def Mdl.raiseGen (s : Mdl) : Mdl := s.setReg Reg.TWN_PAIR_GEN_GEN (s.reg Reg.TWN_PAIR_GEN_GEN + 1)

/-- Enter SOLO (R650): the generation rises, and this module is home to every unit. -/
def Mdl.enterSolo (s : Mdl) (forced : Bool) : Mdl :=
  let s := (s.raiseGen.enterTwin 5).setRegs [(Reg.TWN_STATUS_FORCED, b2n forced), (Reg.TWN_STATUS_FEEDING, 0)]
  let s : Mdl := { s with twn := { s.twn with resync := [] } }
  s.resolveMirrors.dropForwards.restartOrders.showDirty

/-- Enter PAIRED (R650): one more than the larger generation; a resync's bitmap clears. -/
def Mdl.enterPaired (s : Mdl) (partnerGen : Nat) : Mdl :=
  let s := s.setReg Reg.TWN_PAIR_GEN_GEN (max (s.reg Reg.TWN_PAIR_GEN_GEN) partnerGen + 1)
  let s := (s.enterTwin 4).setRegs [(Reg.TWN_STATUS_FORCED, 0), (Reg.TWN_STATUS_FEEDING, 0)]
  let s := s.twn.dirty.foldl (fun (s : Mdl) p => s.clearDirty p.1) s
  let s : Mdl := { s with twn := { s.twn with resync := [], mirrors := [] } }
  s.restartOrders.showDirty.twinCtrl 4

/-- A dirty bitmap as 65,536 bytes. -/
def bitmapBytes (t : Table Bool) : List Byte :=
  (List.range 65536).map fun i => BitVec.ofNat 8 (maskOf ((List.range 8).filter fun b => Table.get false t (8 * i + b)))

/-- The units set in a bitmap. -/
def bitmapUnits (l : List Byte) : List Nat := (List.range 524288).filter fun u => bit (l.getD (u / 8) 0).toNat (u % 8)

/-- Enter RESYNC as the rejoiner: its bitmap goes to the survivor. -/
def Mdl.enterResync (s : Mdl) : Mdl :=
  let s := ((s.enterTwin 3).setReg Reg.TWN_STATUS_FORCED 0).restartOrders
  (s.twinSend 0x14 (leBytes 8 0) (bitmapBytes s.twn.dirty) .bitmap).getD s

/-- Ask the span master for the partner's state (Table 13-9). -/
def Mdl.queryPartner (s : Mdl) : Mdl :=
  let m := s.reg Reg.SPN_STATUS_MASTER
  (s.sendDir m 0x11 (s.reg Reg.TWN_STATUS_PARTNER) 0 0 .partner).getD (s.unrouted m)

/-- A HELLO goes out once the power-on self-test has ended (R651, R662). -/
def Mdl.helloOn (s : Mdl) (n : Nat) : Mdl :=
  if (s.twinState = 1 ∨ s.twinState = 2) ∧ s.svc.selfTested then s.twinOn 0x15 (s.twinCtrlData 1) [] (.ctrl 1) n else s

/-- HELLO on links 6 and 7, those of them that carry twin traffic (Table 13-11). -/
def Mdl.sendHello (s : Mdl) : Mdl :=
  ([6, 7].filter fun n => s.linkActive n && (s.link n).twinOk).foldl (fun (s : Mdl) n => s.helloOn n) s

/-- Enter HELD (R653): writes that wait for a TWACK end Inaccessible with their units' bits set. -/
def Mdl.enterHeld (s : Mdl) : Mdl :=
  let s := s.enterTwin 2
  let l := s.twn.mirrors
  let s := l.foldl (fun (s : Mdl) m =>
    let s := ((s.unitsOf m.op).foldl (fun (s : Mdl) u => s.setDirty u) s).dropMirror m
    match m.owner with
    | some (cid, ctl) => s.endCmd cid ctl .accessInaccessible
    | none => s) s
  s.dropForwards.restartOrders.queryPartner.sendHello

/-- The survivor's resync stops when the twin links are down: its own bits are kept. -/
def Mdl.stopFeeding (s : Mdl) : Mdl :=
  let s := s.setReg Reg.TWN_STATUS_FEEDING 0
  let s : Mdl := { s with twn := { s.twn with resync := [] } }
  s.resolveMirrors.restartOrders.showDirty

/-- A twin command ends (Table 13-24). -/
def Mdl.twinCmdEnd (s : Mdl) (err : Nat) : Mdl :=
  s.setRegs [(Reg.TWN_CMD_STATUS_BUSY, 0), (Reg.TWN_CMD_STATUS_DONE, 1), (Reg.TWN_CMD_STATUS_ERR, err)]

/-- Both twin links are down, or no TWACK came in time (Table 13-11). A DETACH under way ends for want of its links (DEDUCED, assumption log
entry 25). -/
def Mdl.twinFailed (s : Mdl) : Mdl :=
  let draining := s.twn.detaching
  let s := match s.twinState with
    | 4 => if s.isLower then s.enterSolo false else s.enterHeld
    | 3 => s.enterHeld
    | 5 => if s.feeding then s.stopFeeding else s
    | _ => s
  if draining = 0 then s else ({ s with twn := { s.twn with detaching := 0 } }).twinCmdEnd 2

/-- TWACK_TIMEOUT (Table 13-11): a module in RESYNC or DETACHED awaits no TWACK of a change; the survivor of a resync stops it as when the links
are down (DEDUCED, assumption log entry 25). -/
def Mdl.twackTimeout (s : Mdl) : Mdl := if s.twinState = 3 ∨ s.twinState = 6 then s else s.twinFailed

/-- Enter SEEKING: HELLO sent on links 6 and 7. -/
def Mdl.enterSeeking (s : Mdl) : Mdl := (s.enterTwin 1).sendHello

/-- A HELLO exchange settles SEEKING by the journaled states and generations (Table 13-11); a HELD module whose partner is SOLO
resyncs. -/
def Mdl.settleHello (s : Mdl) (pst pgen : Nat) : Mdl :=
  let s : Mdl := { s with twn := { s.twn with heard := true } }
  let gen := s.reg Reg.TWN_PAIR_GEN_GEN
  let mine := s.twn.journaled
  if s.twinState = 2 then (if pst = 5 then s.enterResync else s)
  else if s.twinState ≠ 1 then s
  else if mine = 5 ∧ pst = 5 then s.enterTwin 7
  else if pst = 5 then s.enterResync
  else if mine = 5 then s.enterSolo false
  else if mine = 4 ∧ pst = 4 ∧ gen = pgen then s.enterPaired pgen
  else if pgen < gen ∨ (gen = pgen ∧ s.isLower) then s.enterSolo false
  else s.enterResync

/-- NO_HELLO (Table 13-11). -/
def Mdl.noHello (s : Mdl) : Mdl :=
  if s.twinState = 1 ∧ ¬ s.twn.heard ∧ s.twn.journaled = 5 then s.enterSolo false else s

/-- The OP, state and generation of a TWIN_CTRL message or its response. -/
def ctrlOp (m : LMsg) : Nat := leNat (m.data.take 1)
def ctrlState (m : LMsg) : Nat := leNat ((m.data.drop 1).take 1)
def ctrlGen (m : LMsg) : Nat := leNat ((m.data.drop 2).take 6)

/-- A TCRSP answers a TWIN_CTRL message with the same layout (DEDUCED, assumption log entry 25). -/
def Mdl.answerCtrl (s : Mdl) (m : LMsg) : Mdl := s.respond m 0 0 (s.twinCtrlData (ctrlOp m))

/-- A HELLO arrives (R651, R662): held until the self-test has ended; a DETACHED module seeks again. -/
def Mdl.helloIn (s : Mdl) (m : LMsg) : Mdl :=
  if !s.svc.selfTested then { s with twn := { s.twn with heldHello := some m } }
  else
    let s := if s.twinState = 6 then s.enterSeeking else s
    (s.answerCtrl m).settleHello (ctrlState m) (ctrlGen m)

/-- The self-test has ended: the twin links' gate opens (R662). -/
def Mdl.openTwinGate (s : Mdl) : Mdl :=
  let s := s.sendHello
  match s.twn.heldHello with
  | some m => ({ s with twn := { s.twn with heldHello := none } }).helloIn m
  | none => s

/-- A DETACH notice arrives: a PAIRED module goes SOLO before it answers. -/
def Mdl.detachIn (s : Mdl) (m : LMsg) : Mdl := (if s.twinState = 4 then s.enterSolo false else s).answerCtrl m

/-- RESYNC_DONE arrives: the rejoiner answers and pairs. -/
def Mdl.resyncDoneIn (s : Mdl) (m : LMsg) : Mdl :=
  let t := s.answerCtrl m
  if s.twinState = 3 then t.enterPaired (ctrlGen m) else t

/-- A PAIRED notice arrives; the pairing itself rests on RESYNC_DONE or HELLO (Table 13-11). -/
def Mdl.pairedIn (s : Mdl) (m : LMsg) : Mdl := s.answerCtrl m

/-- PICKED arrives in SPLIT: the bitmap goes to the survivor, so that what was written here is copied over, and this module's own
bits are discarded (R651; the order DEDUCED, assumption log entry 25). -/
def Mdl.pickedIn (s : Mdl) (m : LMsg) : Mdl :=
  let s := s.answerCtrl m
  if s.twinState = 7 then
    let s := s.enterResync
    s.twn.dirty.foldl (fun (s : Mdl) p => s.clearDirty p.1) s
  else s

/-- Any TWIN_CTRL message. -/
def Mdl.ctrlIn (s : Mdl) (m : LMsg) : Mdl :=
  match ctrlOp m with
  | 1 => s.helloIn m
  | 2 => s.detachIn m
  | 3 => s.resyncDoneIn m
  | 4 => s.pairedIn m
  | 5 => s.pickedIn m
  | _ => s.respond m 7 0 []

/-! ### Twin commands (TWN_CMD) -/

/-- Is any command that changes or reads NVM content under way? -/
def Mdl.storageBusy (s : Mdl) : Bool := !s.host.fetched.isEmpty || !s.twn.mirrors.isEmpty

/-- DETACH goes on (R652): once every command fetched has completed with its mirrors acknowledged, the notice goes out and DETACHED is
journaled. -/
def Mdl.detachStep (s : Mdl) : Mdl :=
  if s.twn.detaching = 1 ∧ ¬ s.storageBusy then
    let s := (s.twinCtrl 2).enterTwin 6
    { s with twn := { s.twn with detaching := 2 } }
  else s

/-- TWIN_DETACH (R652): the namespaces become Inaccessible, and the module drains. -/
def Mdl.twinDetach (s : Mdl) : Mdl :=
  if s.flag Reg.TWN_CMD_STATUS_BUSY then s
  else if !s.spanCfg.twin then s.twinCmdEnd 3
  else if s.twinState ≠ 4 then s.twinCmdEnd 1
  else if s.twinLink.isNone then s.twinCmdEnd 2
  else
    let s := s.setRegs [(Reg.TWN_CMD_STATUS_BUSY, 1), (Reg.TWN_CMD_STATUS_ERR, 0)]
    let s : Mdl := { s with twn := { s.twn with detaching := 1 } }
    (s.emit (.notice 0x0C 0)).detachStep

/-- REJOIN (Table 13-11). -/
def Mdl.rejoin (s : Mdl) : Mdl :=
  if s.flag Reg.TWN_CMD_STATUS_BUSY then s
  else if !s.spanCfg.twin then s.twinCmdEnd 3
  else if s.twinState ≠ 6 then s.twinCmdEnd 1
  else if s.twinLink.isNone then s.twinCmdEnd 2
  else s.enterSeeking.twinCmdEnd 0

/-- FORCE_SOLO (Table 13-11). -/
def Mdl.forceSolo (s : Mdl) : Mdl :=
  if s.flag Reg.TWN_CMD_STATUS_BUSY then s
  else if !s.spanCfg.twin then s.twinCmdEnd 3
  else if s.twinState ≠ 1 ∧ s.twinState ≠ 2 then s.twinCmdEnd 1
  else (s.enterSolo true).twinCmdEnd 0

/-- PICK (Table 13-11). -/
def Mdl.pick (s : Mdl) : Mdl :=
  if s.flag Reg.TWN_CMD_STATUS_BUSY then s
  else if !s.spanCfg.twin then s.twinCmdEnd 3
  else if s.twinState ≠ 7 then s.twinCmdEnd 1
  else if s.twinLink.isNone then s.twinCmdEnd 2
  else ((s.enterSolo false).twinCtrl 5).twinCmdEnd 0

/-! ### Applying the partner's changes (R647) -/

/-- A change that a message carries has been performed here: the message is answered, once its secure discards or its sanitize are at their end (R551, R600). -/
def Mdl.performed (s : Mdl) (m : LMsg) : Mdl :=
  if (twinMsgOp m).any s.changeGoesOn then { s with twn := { s.twn with slow := s.twn.slow ++ [m] } }
  else s.respond m 0 0 []

/-- Messages whose secure discards have ended are answered. -/
def Mdl.slowAnswers (s : Mdl) : Mdl :=
  s.twn.slow.foldl (fun (s : Mdl) m => s.performed m) { s with twn := { s.twn with slow := [] } }

/-- Apply the early messages that are next in order, as many as are held. -/
def Mdl.applyEarly (s : Mdl) : Nat → Mdl
  | 0 => s
  | k + 1 =>
    match s.twn.early.find? fun m => twinOrder m == s.twn.lastOrder + 1 with
    | none => s
    | some m =>
      match (twinMsgOp m).bind fun o => if s.bufferRoom (opSectors o) then s.nvApply o else none with
      | none => s
      | some t =>
        let t : Mdl := { t with twn := { t.twn with lastOrder := t.twn.lastOrder + 1, early := t.twn.early.filter fun x => x != m } }
        Mdl.applyEarly (t.performed m) k

/-- A mirrored change arrives with a twin order number: it is applied in order, and acknowledged once it is. -/
def Mdl.mirrorIn (s : Mdl) (m : LMsg) : Mdl :=
  if s.twinState ≠ 4 ∧ s.twinState ≠ 3 then s.respond m 7 0 []
  else if (twinMsgOp m).isNone then s.respond m 7 0 []
  else if twinOrder m ≤ s.twn.lastOrder then s.respond m 0 0 []
  else
    let s : Mdl := { s with twn := { s.twn with early := s.twn.early ++ [m] } }
    s.applyEarly s.twn.early.length

/-- The TWACK of a mirror (R647, R653); `ns` is its round trip. -/
def Mdl.mirrorAck (s : Mdl) (id : Nat) (ok : Bool) (ns : Nat) : Mdl :=
  match s.twn.mirrors.find? fun m => m.id == id with
  | none => s
  | some m =>
    let s := s.setRegs [(Reg.TWN_MIRROR_LAST_NS, min ns 65535), (Reg.TWN_MIRROR_MAX_NS, max (s.reg Reg.TWN_MIRROR_MAX_NS) (min ns 65535))]
    let s := s.dropMirror m
    let s := match m.owner with
      | some (cid, ctl) => if ok then s.settleCmd cid ctl else s.endCmd cid ctl .accessInaccessible
      | none => s
    s.detachStep

/-! ### Resync (R655, R656) -/

/-- The survivor has nothing left to copy: RESYNC_DONE goes out. -/
def Mdl.resyncCheck (s : Mdl) : Mdl :=
  if s.twinState = 5 ∧ s.feeding ∧ s.twn.resync.isEmpty then s.twinCtrl 3 else s

/-- A dirty bitmap arrives: the resync copies the union; on a PAIRED module this one is survivor for the units named (R656). -/
def Mdl.bitmapIn (s : Mdl) (m : LMsg) : Mdl :=
  let s := s.respond m 0 0 []
  let units := bitmapUnits m.stream
  let add := fun (t : Table Bool) => units.foldl (fun (t : Table Bool) u => Table.set false t u true) t
  if s.twinState = 5 then
    let s := (s.setReg Reg.TWN_STATUS_FEEDING 1).restartOrders
    (({ s with twn := { s.twn with resync := add s.twn.dirty } } : Mdl).showDirty).resyncCheck
  else if s.twinState = 4 then
    let s := units.foldl (fun (s : Mdl) u => s.setDirty u) s
    ({ s with twn := { s.twn with resync := add s.twn.resync } }).showDirty
  else s

/-- RESYNC_COPY: the survivor sends `n` sectors of a unit from sector `x`, 1 to 256. -/
def Mdl.resyncCopy (s : Mdl) (u x n : Nat) : Mdl :=
  if Table.get false s.twn.resync u && ((s.twinState == 5 && s.feeding) || s.twinState == 4) && decide (1 ≤ n) && decide (n ≤ 256)
      && decide (x + n ≤ unitSectors) then
    let r := (List.range n).foldl (fun (r : List Byte × Mdl) i =>
      match r.2.readSector u (x + i) with
      | some d => (r.1 ++ sectorBytes d, r.2)
      | none => let f := r.2.fresh 32768; (r.1 ++ leBytes 4096 f.1, f.2)) (([], s) : List Byte × Mdl)
    (r.2.twinSend 0x13 (twinRun u x n 0) r.1 (.resync u (x + n == unitSectors))).getD r.2
  else s

/-- The TWACK of a resync piece: the unit's bit clears with its last one. -/
def Mdl.resyncAck (s : Mdl) (u : Nat) (last ok : Bool) : Mdl :=
  if last && ok then
    let s := s.clearDirty u
    (({ s with twn := { s.twn with resync := Table.set false s.twn.resync u false } } : Mdl).showDirty).resyncCheck
  else s

/-- TWIN_COPY: the rejoiner gathers a unit's pieces in a merge and commits it with the last one; a change mirrored meanwhile keeps
its place (R532, R655). -/
def Mdl.copyIn (s : Mdl) (m : LMsg) : Mdl :=
  let w := leNat (m.data.take 16)
  let u := bits w 0 19
  let x := bits w 19 17
  let n := bits w 36 17
  if ¬ (s.twinState = 3 ∨ (s.twinState = 4 ∧ (s.unit u).lost)) then s.respond m 7 0 []
  else
    let s := if x = 0 then
        let old := s.ftl.copies.filter fun c => c.unit == some u
        (old.foldl (fun (s : Mdl) c => s.abandonCopy c) s).startMerge u false
      else s
    match s.ftl.copies.find? fun c => c.unit == some u with
    | none => if x = 0 then s.respond m 1 100 [] else s.respond m 0 0 []
    | some c =>
      let ds := sectorsOf n m.stream
      let s := (List.range n).foldl (fun (s : Mdl) i => s.setStripeSector c.target (x + i) (ds.getD i 0)) s
      let s := if x + n < unitSectors then s
        else
          let s := s.journal 0x09 c.number
          let s : Mdl := { s with ftl := { s.ftl with copies := s.ftl.copies.filter fun d => d.number != c.number } }
          (s.switchMerge c u).countSat Reg.FTL_GC_COUNT_COPIES
      s.respond m 0 0 []

/-- A PAIRED module that has lost units names them to its partner (R656). -/
def Mdl.sendLost (s : Mdl) : Mdl :=
  let lost := s.ftl.map.filterMap fun p => if p.2.lost then some (p.1, true) else none
  if s.twinState = 4 ∧ ¬ lost.isEmpty then (s.twinSend 0x14 (leBytes 8 0) (bitmapBytes lost) .bitmap).getD s else s

/-! ### Checkpoints (R649) -/

/-- CRC-32 of the active bank's SPAN_TRAFFIC entries, in bank order. -/
def Mdl.spanTrafficCrc (s : Mdl) : Nat := crc32 ((s.activeEntries.filter fun e => Eph.cls e == 7).flatMap (leBytes 8))

/-- The sequence table as words. -/
def Mdl.seqWords (s : Mdl) : Table Nat :=
  s.sch.seqs.foldl (fun (t : Table Nat) p => Table.set 0 t p.1 (p.2.word (s.setPages p.2.group))) []

/-- Send a TWIN_CKPT: the entries that changed, and a trailer of four 4-byte fields (the widths DESIGN CHOICE, assumption log
entry 25). -/
def Mdl.sendCheckpoint (s : Mdl) : Mdl :=
  if s.twinState ≠ 4 then s
  else
    let now := s.seqWords
    let keys := (now.map (·.1)) ++ (s.twn.sent.map (·.1)).filter fun k => !(now.map (·.1)).contains k
    let changed := keys.filter fun k => Table.get 0 now k ≠ Table.get 0 s.twn.sent k
    let recs := changed.flatMap fun k => leBytes 8 (Table.get 0 now k) ++ leBytes 4 k ++ leBytes 4 0
    let trailer := leBytes 4 changed.length ++ leBytes 4 (s.reg Reg.EPH_SWAPS_SWAPS) ++ leBytes 4 (s.reg Reg.EPH_CYCLE_ACTIVE_LEN)
      ++ leBytes 4 s.spanTrafficCrc
    let s : Mdl := { s with twn := { s.twn with sent := now } }
    (s.twinSend 0x12 (leBytes 8 s.epoch ++ leBytes 8 changed.length) (recs ++ trailer) .ckpt).getD s

/-- EPH_MISMATCH: set while the CRC of the partner's last checkpoint differs from this module's own (R649). -/
def Mdl.showMismatch (s : Mdl) : Mdl := match s.twn.peerCrc with
  | some c => s.setReg Reg.TWN_STATUS_EPH_MISMATCH (b2n (c != s.spanTrafficCrc))
  | none => s

/-- A TWIN_CKPT arrives. -/
def Mdl.checkpointIn (s : Mdl) (m : LMsg) : Mdl :=
  let n := leNat ((m.data.drop 8).take 2)
  let rec_ := fun (i : Nat) => (m.stream.drop (16 * i)).take 16
  let peer := (List.range n).foldl (fun (t : Table Nat) i =>
    Table.set 0 t (leNat (((rec_ i).drop 8).take 4)) (leNat ((rec_ i).take 8))) s.twn.peer
  let tail := m.stream.drop (16 * n)
  let f := fun (i : Nat) => leNat ((tail.drop (4 * i)).take 4)
  let s : Mdl := { s with twn := { s.twn with peer := peer, peerSwaps := f 1, peerLen := f 2, peerCrc := some (f 3) } }
  ((s.setReg Reg.TWN_PEER_CKPT_EPOCH (leNat (m.data.take 6))).showMismatch).respond m 0 0 []

/-- TCRSP: the answer to a TWIN_CTRL message of this module (R651, R652, R669). -/
def Mdl.ctrlAnswered (s : Mdl) (op : Nat) (m : LMsg) : Mdl :=
  match op with
  | 1 => s.settleHello (ctrlState m) (ctrlGen m)
  | 2 =>
    if s.twn.detaching = 2 then
      let s := ({ s with twn := { s.twn with detaching := 0 } }).twinCmdEnd (if ctrlState m = 5 then 0 else 4)
      if ctrlState m = 5 ∧ s.flag Reg.SVC_STATUS_WITHDRAW then ({ s with svc := { s.svc with safeToRemove := true } }).emit .safeToRemove
      else s
    else s
  | 3 => if s.twinState = 5 ∧ s.feeding then s.enterPaired (ctrlGen m) else s
  | _ => s

end Sys2Proof.Machine
end

