-- ==== Sys2Proof/Machine/Host.lean ====
section
/-! DEFINITION. Host I/O and namespace commands: what they check, the range locks they take, and how they are performed (R572 to R602). -/
namespace Sys2Proof.Machine

def Mdl.ctl (s : Mdl) (n : Nat) : Ctl := Table.get .init s.host.ctls n
def Mdl.setCtl (s : Mdl) (n : Nat) (x : Ctl) : Mdl := { s with host := { s.host with ctls := Table.set .init s.host.ctls n x } }

/-- Does a controller take commands: enabled, ready, not shut down, the module in service (R45, R570)? -/
def Mdl.ctlOk (s : Mdl) (n : Nat) : Bool := (s.ctl n).enabled && (s.ctl n).ready && !(s.ctl n).shut && !s.host.fatal

/-! ### Ranges (R579, R580) -/

/-- Blocks of one zone or unit of a namespace's LBA space (R573). -/
def Ns.stride (n : Ns) : Nat := if n.kind = .zoned then 131072 else unitSectors

/-- A range of blocks as the range-lock table keys it. -/
def blockRange (nsid lba n : Nat) : Bool × Nat × Nat := (false, nsid * 2 ^ 40 + lba, n)

/-- A byte range of a memory namespace, by device-virtual address. -/
def Mdl.byteRange (s : Mdl) (nsid start len : Nat) : Bool × Nat × Nat :=
  match s.nsAt nsid with
  | some x => (true, memKey x.acct (x.base + start), len)
  | none => (true, 0, 0)

/-- A source or destination range of either kind of namespace. -/
def Mdl.anyRange (s : Mdl) (r : SrcRange) : Bool × Nat × Nat :=
  match s.nsAt r.nsid with
  | some x => if x.kind = .memory then s.byteRange r.nsid r.start r.len else blockRange r.nsid r.start r.len
  | none => blockRange r.nsid r.start r.len

/-- Sectors of a unit as the range-lock table keys them. -/
def Mdl.unitRange (s : Mdl) (u x n : Nat) : Bool × Nat × Nat :=
  match s.nsList.find? fun p => p.2.kind != .memory && decide (p.2.first ≤ u) && decide (u < p.2.first + p.2.units) with
  | some p => blockRange p.1 ((u - p.2.first) * p.2.stride + x) n
  | none => (false, 0, 0)

/-- The ranges a command writes, one entry each (R579). -/
def Mdl.writeRanges (s : Mdl) (o : HostOp) : List (Bool × Nat × Nat) :=
  match o with
  | .read .. | .memRead .. | .create .. | .delete _ | .sanitize _ => []
  | .write n l ds => [blockRange n l ds.length]
  | .zeroes n l k => [blockRange n l k]
  | .deallocate n rs | .secure n rs => rs.map fun r => blockRange n r.1 r.2
  | .copy n d rs => [blockRange n d (rs.foldl (fun a r => a + (if (s.nsAt r.nsid).any (fun x => x.kind == .memory) then r.len / 4096 else r.len)) 0)]
  | .zoneAppend n z _ | .zoneOpen n z | .zoneFinish n z | .zoneReset n z => [blockRange n z 131072]
  | .memWrite n b l => [s.byteRange n b l.length]
  | .memCopy n d rs => [s.byteRange n d (rs.foldl (fun a r => a + (if (s.nsAt r.nsid).any (fun x => x.kind == .memory) then r.len else 4096 * r.len)) 0)]
  | .execute _ set _ => ((Table.get none s.host.sets set).getD []).filterMap fun r => if r.writable then some (s.byteRange r.nsid r.start r.len) else none
  | .format n ses => if ses = 1 then [blockRange n 0 (2 ^ 40)] else []
  | .forwarded o _ => match o with
    | .write u x ds => [s.unitRange u x ds.length]
    | .dealloc u x n | .secure u x n => [s.unitRange u x n]
    | .zoneOpen u | .zoneFinish u | .zoneReset u => [s.unitRange u 0 131072]
    | _ => []

/-- The ranges a command reads. -/
def Mdl.readRanges (s : Mdl) (o : HostOp) : List (Bool × Nat × Nat) :=
  match o with
  | .read n l k => [blockRange n l k]
  | .memRead n b l => [s.byteRange n b l]
  | .copy _ _ rs | .memCopy _ _ rs => rs.map s.anyRange
  | .execute _ set _ => ((Table.get none s.host.sets set).getD []).map fun r => s.byteRange r.nsid r.start r.len
  | _ => []

/-- Do a lock entry and a range overlap? -/
def Lock.meets (l : Lock) (r : Bool × Nat × Nat) : Bool :=
  l.mem == r.1 && decide (l.start < r.2.1 + r.2.2) && decide (r.2.1 < l.start + l.len)

/-- Entries of the range-lock table (R579). -/
def lockTableSize : Nat := 4096

/-- May a fetched command be performed: it has its entries, and no entry of a command fetched earlier overlaps it (R580, R581)? -/
def Mdl.mayStart (s : Mdl) (f : Fetched) : Bool :=
  f.locked && !f.started &&
    let rs := s.writeRanges f.cmd.op ++ s.readRanges f.cmd.op
    s.host.locks.all fun l => !(decide (l.seq < f.seq) && rs.any l.meets)

/-- Take a command's entries when the table has room for them all (R581). -/
def Mdl.takeLocks (s : Mdl) (f : Fetched) : Mdl :=
  let rs := s.writeRanges f.cmd.op
  if f.locked ∨ lockTableSize < s.host.locks.length + rs.length then s
  else
    let s : Mdl := { s with host := { s.host with locks := s.host.locks ++ rs.map fun r => ⟨f.seq, f.cmd.cid, f.cmd.ctl, r.1, r.2.1, r.2.2⟩ } }
    s.mapFetched f.cmd.cid f.cmd.ctl fun f => { f with locked := true }

/-! ### Checks at fetch -/

/-- Is a sanitize under way (R598)? -/
def Mdl.sanitizing (s : Mdl) : Bool := s.host.sanitize.isSome || s.host.fetched.any fun f => match f.cmd.op with
  | .sanitize _ => true
  | .forwarded (.sanitize _) _ => true
  | _ => false

/-- The first failing check of a list. -/
def firstStatus (l : List (Bool × Status)) : Option Status := (l.find? fun p => !p.1).map (·.2)

/-- May this module's media be reached (R598, R653)? -/
def Mdl.mediaChecks (s : Mdl) : List (Bool × Status) := [(!s.sanitizing, .sanitizeInProgress), (s.anaOk, .accessInaccessible)]

/-- Checks of a command on NVM or zoned namespace `n` with block ranges `rs` (R573). -/
def Mdl.blockChecks (s : Mdl) (n : Nat) (rs : List (Nat × Nat)) : List (Bool × Status) :=
  match s.nsAt n with
  | none => [(false, .invalidNamespace)]
  | some x => [(x.kind != .memory, .invalidField), (rs.all fun r => decide (r.1 + r.2 ≤ x.size), .lbaOutOfRange)] ++ s.mediaChecks

/-- Checks of a command on memory namespace `n` with byte ranges `rs` (R573). -/
def Mdl.byteChecks (s : Mdl) (n : Nat) (rs : List (Nat × Nat)) : List (Bool × Status) :=
  match s.nsAt n with
  | none => [(false, .invalidNamespace)]
  | some x => [(x.kind == .memory, .invalidField), (rs.all fun r => decide (r.1 + r.2 ≤ x.size), .lbaOutOfRange)]

def Mdl.zonedChecks (s : Mdl) (n z : Nat) : List (Bool × Status) :=
  s.blockChecks n [(z, 1)] ++ [((s.nsAt n).any fun x => x.kind == .zoned, .invalidField), (z % 131072 == 0, .invalidField)]

/-- Checks of a source range of a copy. -/
def Mdl.sourceChecks (s : Mdl) (r : SrcRange) : List (Bool × Status) :=
  if (s.nsAt r.nsid).any fun x => x.kind == .memory then s.byteChecks r.nsid [(r.start, r.len)] ++ [(r.len % 4096 == 0, .invalidField)]
  else s.blockChecks r.nsid [(r.start, r.len)]

def Mdl.writable (s : Mdl) : List (Bool × Status) := [(!s.readOnly, .namespaceWriteProtected)]

/-- Blocks a source range brings to a copy. -/
def Mdl.blocksOf (s : Mdl) (r : SrcRange) : Nat := if (s.nsAt r.nsid).any fun x => x.kind == .memory then r.len / 4096 else r.len

/-- The execution header of Table 12-8, as numbers: class, flags, channels, context address and stride, estimate. -/
def execField (l : List Byte) (o n : Nat) : Nat := leNat ((l.drop o).take n)

/-- The account of a memory range set. -/
def Mdl.setAcct (s : Mdl) (l : List MemRange) : Nat :=
  match l.head? with
  | some r => match s.nsAt r.nsid with
    | some x => x.acct
    | none => 0
  | none => 0

def Mdl.prog (s : Mdl) (i : Nat) : Prog := Table.get .none s.host.programs i

/-- The logical clusters a plan's CLUSTERS names (Table 12-7). -/
def planClusters (im : PlanImage) : List Nat := (List.range 100).filter fun b => bit (leNat ((im.bytes.drop 0x10).take 16)) b

/-- Is a named channel enabled, in the direction given, and the account's (Table 12-9 step 3)? -/
def Mdl.channelFits (s : Mdl) (n dir acct : Nat) : Bool :=
  decide (n < 64) && s.achOpen n && s.reg (Reg.TIR_ACH_CFG_DIR n) == dir && s.reg (Reg.TIR_ACH_CFG_ACCOUNT n) == acct

/-- Steps 1 to 3 of Table 12-9. -/
def Mdl.execChecks (s : Mdl) (program set : Nat) (p : List Byte) : List (Bool × Status) :=
  let f := execField p
  let ranges := Table.get none s.host.sets set
  let acct := s.setAcct (ranges.getD [])
  let search := program == 0x100
  let im := (s.prog program).image
  let flags := f 0x05 1
  let used := match im with
    | some i => (planClusters i).length
    | none => 0
  [ (search || (decide (program < 256) && (s.prog program).active && im.isSome), .invalidField), (ranges.isSome, .invalidField),
    (decide (64 ≤ p.length) && decide (p.length ≤ 4096), .invalidField),
    (f 0 4 == 0x58455847, .planInvalid),
    (bits (f 4 1) 4 4 == 0 && decide (flags < 8) && f 0x18 0x28 == 0, .planInvalid),
    (!bit flags 0 || (f 0x10 4 % 4096 == 0 && decide (4096 ≤ f 0x10 4)), .planInvalid),
    (!bit flags 0 || (f 0x08 8 % pageBytes == 0 && decide (f 0x08 8 + f 0x10 4 * used ≤ 2 ^ 47)), .planInvalid),
    (!search || f 0x14 4 == 0, .planInvalid),
    (s.degraded || search || (im.any fun i => (planClusters i).all fun c => (s.physicalOf c).isSome), .planInvalid),
    (!bit flags 1 || s.channelFits (f 0x06 1) 0 acct, .invalidField), (!bit flags 2 || s.channelFits (f 0x07 1) 1 acct, .invalidField) ]

/-- Every check a command passes before it takes its range lock. Sizes beyond MDTS and the Copy limits are refused as the NVMe
specifications assign (R571, R576, R611). -/
def Mdl.hostCheck (s : Mdl) (o : HostOp) : Option Status :=
  firstStatus (match o with
  | .read n l k => s.blockChecks n [(l, k)] ++ [(decide (k ≤ 256), .invalidField)]
  | .write n l ds => s.blockChecks n [(l, ds.length)] ++ [(decide (ds.length ≤ 256), .invalidField)] ++ s.writable
  | .zeroes n l k => s.blockChecks n [(l, k)] ++ [(decide (k ≤ 65536), .invalidField)] ++ s.writable
  | .deallocate n rs => s.blockChecks n rs ++ [(decide (rs.length ≤ 256), .invalidField)] ++ s.writable
  | .secure n rs => s.blockChecks n rs ++ [((s.nsAt n).any fun x => x.kind != .zoned, .invalidField), (decide (rs.length ≤ 256), .invalidField)]
      ++ s.writable
  | .copy n d rs =>
    let k := rs.foldl (fun a r => a + s.blocksOf r) 0
    rs.flatMap s.sourceChecks ++ s.blockChecks n [(d, k)]
      ++ [(decide (rs.length ≤ 128) && decide (k ≤ 122880) && rs.all (fun r => decide (s.blocksOf r ≤ 65535)), .commandSizeLimit)] ++ s.writable
  | .zoneAppend n z ds => s.zonedChecks n z ++ [(decide (ds.length ≤ 256), .invalidField)] ++ s.writable
  | .zoneOpen n z => s.zonedChecks n z
  | .zoneFinish n z | .zoneReset n z => s.zonedChecks n z ++ s.writable
  | .memRead n b k => s.byteChecks n [(b, k)]
  | .memWrite n b l => s.byteChecks n [(b, l.length)]
  | .memCopy n d rs =>
    rs.flatMap s.sourceChecks ++ s.byteChecks n [(d, rs.foldl (fun a r => a + 4096 * s.blocksOf r) 0)]
      ++ [(decide (rs.length ≤ 128), .commandSizeLimit)]
  | .execute g set p => s.execChecks g set p
  | .create zoned blocks cls =>
    [(decide (cls ≤ 2), .invalidField), (decide (0 < blocks), .invalidField), (s.freeNsid.isSome, .namespaceIdentifierUnavailable),
      ((s.freeRun (ceilDiv blocks (if zoned then 131072 else unitSectors))).isSome, .namespaceInsufficientCapacity)] ++ s.mediaChecks
  | .delete n => s.blockChecks n []
  | .format n ses => s.blockChecks n [] ++ [(decide (ses ≤ 2), .invalidField)] ++ s.writable
  | .sanitize _ => [(!s.sanitizing, .sanitizeInProgress), (s.twinState == 4 || s.twinState == 0 || s.twinState == 6, .commandSequenceError)]
  | .forwarded .. => [])

/-! ### Performing commands -/

/-- A range of blocks as runs inside units: unit, first sector, sectors. -/
def Ns.runs (n : Ns) : Nat → Nat → Nat → List (Nat × Nat × Nat)
  | 0, _, _ => []
  | fuel + 1, lba, count =>
    if count = 0 then []
    else
      let p := n.place lba
      let k := min count (n.stride - p.2)
      (p.1, p.2, k) :: Ns.runs n fuel (lba + k) (count - k)

def Ns.allRuns (n : Ns) (lba count : Nat) : List (Nat × Nat × Nat) := n.runs (count / n.stride + 2) lba count

/-- Writes of at most 256 sectors each for a run of data (Table 13-6). -/
def writeOps (u x : Nat) : Nat → List Sector → List NvOp
  | 0, _ => []
  | fuel + 1, ds => if ds.isEmpty then [] else .write u x (ds.take 256) :: writeOps u (x + 256) fuel (ds.drop 256)

/-- The writes of blocks from an LBA. -/
def Ns.writeOps (n : Ns) (lba : Nat) (ds : List Sector) : List NvOp :=
  (n.allRuns lba ds.length).foldl (fun (r : List NvOp × List Sector) p =>
    (r.1 ++ Machine.writeOps p.1 p.2.1 (p.2.2 / 256 + 1) (r.2.take p.2.2), r.2.drop p.2.2)) ([], ds) |>.1

/-- May these blocks be written to a zone (R552, and the zoned namespace command set's statuses)? -/
def Mdl.zoneWriteErr (s : Mdl) (x : Ns) (lba n : Nat) (append : Bool) : Option Status :=
  let p := x.place lba
  let m := s.unit p.1
  let at_ := if append then m.fill else p.2
  if m.full then some .zoneFull
  else if unitSectors < at_ + n then some .zoneBoundaryError
  else if at_ ≠ m.fill then some .zoneInvalidWrite
  else none

/-- One sector as a host reads it: a lost unit of a PAIRED module is read from the partner, whose content this state does not hold (R656,
assumption log entry 16). -/
def Mdl.hostSector (s : Mdl) (u x : Nat) : Option Sector × Mdl :=
  match s.readSector u x with
  | some d => (some d, s)
  | none =>
    if s.twinState = 4 ∧ (s.unit u).lost then
      let f := s.fresh 32768
      (some (BitVec.ofNat 32768 f.1), f.2)
    else (none, s)

/-- Blocks of a namespace as a host reads them; none when one is unrecovered (R516). -/
def Mdl.readBlocks (s : Mdl) (x : Ns) (lba n : Nat) : Option (List Sector) × Mdl :=
  (List.range n).foldl (fun (r : Option (List Sector) × Mdl) i =>
    match r.1 with
    | none => r
    | some l =>
      let p := x.place (lba + i)
      let q := r.2.hostSector p.1 p.2
      (q.1.map fun d => l ++ [d], q.2)) (some [], s)

/-- The bytes of a source range of a copy (R593), or the status that ends the command. -/
def Mdl.sourceBytes (s : Mdl) (r : SrcRange) : Except Status (List Byte) × Mdl :=
  match s.nsAt r.nsid with
  | none => (.error .invalidNamespace, s)
  | some x =>
    if x.kind = .memory then
      match s.hostRead x.acct (x.base + r.start) r.len with
      | .ok (l, s) => (.ok l, s)
      | .error f => (.error f.status, s.recordPage f x.acct (x.base + r.start))
    else match s.readBlocks x r.start r.len with
      | (some l, s) => (.ok (l.flatMap sectorBytes), s)
      | (none, s) => (.error .unrecoveredReadError, s)

/-- The bytes of all source ranges. -/
def Mdl.sources (s : Mdl) (rs : List SrcRange) : Except Status (List Byte) × Mdl :=
  rs.foldl (fun (a : Except Status (List Byte) × Mdl) r =>
    match a.1 with
    | .error e => (.error e, a.2)
    | .ok l =>
      let q := a.2.sourceBytes r
      (match q.1 with | .ok m => .ok (l ++ m) | .error e => .error e, q.2)) (.ok [], s)

/-- Perform the changes of a command: it completes when its mirrors are acknowledged, and with a low hold-up bank when its data is on
flash (R21, R518, R647). None when it must wait for room (R519, R521, R524). -/
def Mdl.performChanges (s : Mdl) (f : Fetched) (ops : List NvOp) (result : Nat) : Option Mdl :=
  let owner := match f.cmd.op with
    | .forwarded .. => none
    | _ => some (f.cmd.cid, f.cmd.ctl)
  let runs := if s.flag Reg.PWR_HOLDUP_LOW then ops.filterMap fun o => match o with
      | .write u x ds => some (u, x, ds.length)
      | _ => none
    else []
  if !s.bufferRoom (ops.foldl (fun n o => n + opSectors o) 0) then none
  else (s.changes owner none ops).map fun r =>
    ((r.1.mapFetched f.cmd.cid f.cmd.ctl fun f => { f with started := true, left := r.2, flash := runs, result := result }).settleCmd
      f.cmd.cid f.cmd.ctl).detachStep

/-- An execution's job, from its header (R589, Table 12-8). -/
def Mdl.execJob (s : Mdl) (f : Fetched) (program set : Nat) (p : List Byte) : Job :=
  let g := execField p
  let im := ((s.prog program).image).getD ⟨[], []⟩
  let flags := g 0x05 1
  let est := if g 0x14 4 = 0 then leNat ((im.bytes.drop 0x0C).take 4) else g 0x14 4
  { Job.new (s.setAcct ((Table.get none s.host.sets set).getD [])) (bits (g 4 1) 0 4) est im.work with
    plan := program, context := if bit flags 0 then some (g 0x08 8, g 0x10 4) else none
    outCh := if bit flags 1 then some (g 0x06 1) else none, inCh := if bit flags 2 then some (g 0x07 1) else none
    cid := some (f.cmd.cid, f.cmd.ctl), discard := f.discard, params := p.drop 64 }

/-- A command leaves the fetched list and goes on as a job, which keeps its range locks. -/
def Mdl.leaveFetched (s : Mdl) (cid ctl : Nat) : Mdl :=
  let s := s.dropLines (· == .host)
  { s with host := { s.host with fetched := s.host.fetched.filter fun g => !(g.cmd.cid == cid && g.cmd.ctl == ctl) } }

/-- Steps 5 to 7 of Table 12-9. -/
def Mdl.startExec (s : Mdl) (f : Fetched) (program set : Nat) (p : List Byte) : Mdl :=
  let cid := f.cmd.cid
  let ctl := f.cmd.ctl
  let x := s.execJob f program set p
  if s.degraded then s.endCmd cid ctl .computeDegraded
  else if s.admissionClosed then s.endCmd cid ctl .commandInterrupted
  else if program = 0x100 then
    let s := (s.leaveFetched cid ctl).searchBatch cid ctl x.cls x.acct x.params
    if s.jobList.any fun j => j.2.cid == some (cid, ctl) then s else s.unlock cid ctl
  else
    let refuse := fun (s : Mdl) =>
      let s := ((s.countRefused x.cls).leaveFetched cid ctl).unlock cid ctl
      if f.discard then s else s.emit (.completion cid ctl .commandInterrupted 1 0 0)
    if s.overloaded x.cls x.estimate then refuse s
    else match (s.leaveFetched cid ctl).admitJob x with
      | some (_, s) => s
      | none => refuse s

/-- Perform a command whose turn it is; none when it must wait for room (R521, R524). -/
def Mdl.perform (s : Mdl) (f : Fetched) : Option Mdl :=
  let cid := f.cmd.cid
  let ctl := f.cmd.ctl
  let run := fun (s : Mdl) (ops : List NvOp) (result : Nat) => s.performChanges f ops result
  match f.cmd.op with
  | .read n l k =>
    match s.nsAt n with
    | none => some (s.endCmd cid ctl .invalidNamespace)
    | some x => match s.readBlocks x l k with
      | (some ds, s) => some ((if f.discard then s else s.emit (.sectors cid ctl ds)).endCmd cid ctl .success)
      | (none, s) => some (s.endCmd cid ctl .unrecoveredReadError)
  | .write n l ds =>
    match s.nsAt n with
    | none => some (s.endCmd cid ctl .invalidNamespace)
    | some x => match (if x.kind = .zoned then s.zoneWriteErr x l ds.length false else none) with
      | some e => some (s.endCmd cid ctl e)
      | none => run s (x.writeOps l ds) 0
  | .zeroes n l k =>
    match s.nsAt n with
    | none => some (s.endCmd cid ctl .invalidNamespace)
    | some x => match (if x.kind = .zoned then s.zoneWriteErr x l k false else none) with
      | some e => some (s.endCmd cid ctl e)
      | none => run s (x.writeOps l (List.replicate k 0)) 0
  | .deallocate n rs =>
    match s.nsAt n with
    | none => some (s.endCmd cid ctl .invalidNamespace)
    | some x => run s (rs.flatMap fun r => (x.allRuns r.1 r.2).map fun p => .dealloc p.1 p.2.1 p.2.2) 0
  | .secure n rs =>
    match s.nsAt n with
    | none => some (s.endCmd cid ctl .invalidNamespace)
    | some x => run s (rs.flatMap fun r => (x.allRuns r.1 r.2).map fun p => .secure p.1 p.2.1 p.2.2) 0
  | .copy n d rs =>
    match s.nsAt n with
    | none => some (s.endCmd cid ctl .invalidNamespace)
    | some x => match s.sources rs with
      | (.error e, s) => some (s.endCmd cid ctl e)
      | (.ok l, s) =>
        let ds := sectorsOf (l.length / 4096) l
        match (if x.kind = .zoned then s.zoneWriteErr x d ds.length false else none) with
        | some e => some (s.endCmd cid ctl e)
        | none => run s (x.writeOps d ds) 0
  | .zoneAppend n z ds =>
    match s.nsAt n with
    | none => some (s.endCmd cid ctl .invalidNamespace)
    | some x => match s.zoneWriteErr x z ds.length true with
      | some e => some (s.endCmd cid ctl e)
      | none =>
        let at_ := z + (s.unit (x.place z).1).fill
        run s (x.writeOps at_ ds) at_
  | .zoneOpen n z =>
    match s.nsAt n with
    | none => some (s.endCmd cid ctl .invalidNamespace)
    | some x => if (s.unit (x.place z).1).full then some (s.endCmd cid ctl .zoneInvalidTransition) else run s [.zoneOpen (x.place z).1] 0
  | .zoneFinish n z =>
    match s.nsAt n with
    | none => some (s.endCmd cid ctl .invalidNamespace)
    | some x => if (s.unit (x.place z).1).full then some (s.endCmd cid ctl .success) else run s [.zoneFinish (x.place z).1] 0
  | .zoneReset n z =>
    match s.nsAt n with
    | none => some (s.endCmd cid ctl .invalidNamespace)
    | some x => run s [.zoneReset (x.place z).1] 0
  | .memRead n b k =>
    match s.nsAt n with
    | none => some (s.endCmd cid ctl .invalidNamespace)
    | some x => match s.hostRead x.acct (x.base + b) k with
      | .ok (l, s) => some ((if f.discard then s else s.emit (.bytes cid ctl l)).endCmd cid ctl .success)
      | .error e => some ((s.recordPage e x.acct (x.base + b)).endCmd cid ctl e.status)
  | .memWrite n b l =>
    match s.nsAt n with
    | none => some (s.endCmd cid ctl .invalidNamespace)
    | some x => match s.hostWrite x.acct (x.base + b) l with
      | (none, s) => some (s.endCmd cid ctl .success)
      | (some e, s) => some ((s.recordPage e x.acct (x.base + b)).endCmd cid ctl e.status)
  | .memCopy n d rs =>
    match s.nsAt n with
    | none => some (s.endCmd cid ctl .invalidNamespace)
    | some x => match s.sources rs with
      | (.error e, s) => some (s.endCmd cid ctl e)
      | (.ok l, s) => match s.hostWrite x.acct (x.base + d) l with
        | (none, s) => some (s.endCmd cid ctl .success)
        | (some e, s) => some ((s.recordPage e x.acct (x.base + d)).endCmd cid ctl e.status)
  | .execute g set p => some (s.startExec f g set p)
  | .create zoned blocks cls =>
    match s.freeNsid with
    | none => some (s.endCmd cid ctl .namespaceIdentifierUnavailable)
    | some n => run s [.nsCreate n zoned (ceilDiv blocks (if zoned then 131072 else unitSectors)) cls] n
  | .delete n => run s [.nsDelete n] 0
  | .format n ses => run s [.format n ses] 0
  | .sanitize block => run s [.sanitize block] 0
  | .forwarded o m =>
    (if s.bufferRoom (opSectors o) then s.change o none (some m) else none).map fun r =>
      if r.2 = 0 then (r.1.mapFetched cid ctl fun f => { f with started := true }).settleCmd cid ctl
      else (r.1.leaveFetched cid ctl)

/-- Does the device memory that a command reads and writes let it start now (R328)? -/
def Mdl.memoryReady (s : Mdl) (o : HostOp) : Bool × Mdl :=
  let at_ := fun (s : Mdl) (n b k : Nat) (write : Bool) => match s.nsAt n with
    | some x => if x.kind = .memory then s.hostReady x.acct (x.base + b) k write else (true, s)
    | none => (true, s)
  match o with
  | .memRead n b k => at_ s n b k false
  | .memWrite n b l => at_ s n b l.length true
  | .memCopy n d rs =>
    let src := rs.foldl (fun (q : Bool × Mdl) r => if q.1 then at_ q.2 r.nsid r.start r.len false else q) (true, s)
    if src.1 then at_ src.2 n d (rs.foldl (fun k r => k + 4096 * src.2.blocksOf r) 0) true else src
  | .copy _ _ rs => rs.foldl (fun (q : Bool × Mdl) r => if q.1 then at_ q.2 r.nsid r.start r.len false else q) (true, s)
  | _ => (true, s)

/-- Has a Memory Copy its flash sources? They travel on the Coudé path as one request of the MOVE class (R363, R593). -/
def Mdl.flashReady (s : Mdl) (f : Fetched) : Bool × Mdl :=
  let fromFlash := match f.cmd.op with
    | .memCopy _ _ rs => rs.any fun r => (s.nsAt r.nsid).any fun x => x.kind != .memory
    | _ => false
  if !fromFlash || f.flashRead then (true, s)
  else if s.tir.coude.any fun q => q.copy == some f.seq then (false, s)
  else (false, { s with tir := { s.tir with coude := s.tir.coude ++ [CoudeReq.mk 0 0 .command (some f.seq)] } })

/-- Perform a fetched command if its turn has come, and neither a page of its device memory nor its flash source is waited for. -/
def Mdl.tryStart (s : Mdl) (cid ctl : Nat) : Mdl :=
  match s.fetchedAt cid ctl with
  | none => s
  | some f =>
    if s.mayStart f then
      let r := s.memoryReady f.cmd.op
      let c := if r.1 then r.2.flashReady f else r
      if c.1 then ((c.2.perform f).getD c.2).dropLines (· == .host) else c.2
    else s

/-- Do two commands come from the same submission queue? -/
def sameQueue (a b : HostCmd) : Bool := a.ctl == b.ctl && a.cid / 65536 == b.cid / 65536

/-- Does a command stand behind one of its queue that waits for the range-lock table (R581)? -/
def Mdl.queueBlocked (s : Mdl) (c : HostCmd) : Bool := s.host.fetched.any fun f => !f.locked && sameQueue f.cmd c

/-- Put a command into the fetched list. A command of a queue whose head waits for the range-lock table waits behind it (R581). -/
def Mdl.fetch (s : Mdl) (c : HostCmd) : Mdl :=
  let blocked := s.queueBlocked c
  let f : Fetched := { seq := s.host.fetchSeq, cmd := c, queued := blocked, locked := false, started := false, left := 0, flash := [], flashRead := false, discard := false, result := 0 }
  let s : Mdl := { s with host := { s.host with fetched := s.host.fetched ++ [f], fetchSeq := s.host.fetchSeq + 1 } }
  (if blocked then s else s.takeLocks f).tryStart c.cid c.ctl

/-- A controller fetches a command (R578 to R581): it ends at its first failing check, or takes its entries and runs in its turn. One whose
queue fetches nothing now is checked when it is fetched. -/
def Mdl.submit (s : Mdl) (c : HostCmd) : Mdl :=
  if !s.ctlOk c.ctl || (s.fetchedAt c.cid c.ctl).isSome then s
  else if s.queueBlocked c then s.fetch c
  else match s.hostCheck c.op with
    | some e => s.complete c.cid c.ctl e
    | none => s.fetch c

/-- A command that stands in its queue is fetched once every command before it there has its entries (R581): its place in the order of the
fetch is taken then. -/
def Mdl.fetchQueued (s : Mdl) (f : Fetched) : Mdl :=
  let before := s.host.fetched.takeWhile fun g => !(g.cmd.cid == f.cmd.cid && g.cmd.ctl == f.cmd.ctl)
  if !f.queued || before.any (fun g => !g.locked && sameQueue g.cmd f.cmd) then s
  else match s.hostCheck f.cmd.op with
  | some e => s.endCmd f.cmd.cid f.cmd.ctl e
  | none =>
    let n := s.host.fetchSeq
    { s with host := { s.host with fetchSeq := n + 1 } }.mapFetched f.cmd.cid f.cmd.ctl fun g => { g with queued := false, seq := n }

/-- Commands that wait proceed, in the order of their fetch (R580, R581). -/
def Mdl.proceed (s : Mdl) : Mdl :=
  (s.host.fetched.map fun f => (f.cmd.cid, f.cmd.ctl)).foldl (fun (s : Mdl) p =>
    match s.fetchedAt p.1 p.2 with
    | none => s
    | some f =>
      if f.started then s.settleCmd p.1 p.2
      else
        let s := s.fetchQueued f
        match s.fetchedAt p.1 p.2 with
        | some f => if f.queued then s else (s.takeLocks f).tryStart p.1 p.2
        | none => s) s

/-- Room has become free in the write buffer, the log index or the stripes, or a stripe is erased: secure discards and changes that wait go
on (R519, R521, R524, R551). -/
def Mdl.roomFreed (s : Mdl) : Mdl :=
  let s := s.discardsGoOn
  ((s.applyEarly s.twn.early.length).slowAnswers).proceed

/-- RANGE_LOCK_RELEASE (R579 to R581): the entries of a command that is no longer in progress go, and waiting commands proceed. -/
def Mdl.lockRelease (s : Mdl) (cid ctl : Nat) : Mdl :=
  let running := (s.fetchedAt cid ctl).isSome || s.jobList.any fun j => j.2.cid == some (cid, ctl)
  (if running then s else s.unlock cid ctl).proceed

/-- Has a fetched command not started (R583): it stands in its queue, waits for its entries or for its turn (R580, R581), or for room for its data
(R519)? One that waits for a page of device memory or for its flash source has started. -/
def Mdl.catchable (s : Mdl) (f : Fetched) : Bool := !f.started && (!s.mayStart f || ((s.memoryReady f.cmd.op).1 && (s.flashReady f).1))

/-- Has no macro-operation of an execution started (R583)? A search batch has none before its Finder runs. -/
def Mdl.noneBegun (s : Mdl) (j : Nat) (x : Job) : Bool :=
  match x.catalogue with
  | some n => ((s.cat n).batch j).all fun t => t.found.isNone
  | none => x.work.all fun w => match w.state with
    | .waiting => true
    | .running k =>
      let y := s.cluster (k / 26) (k % 26)
      y.cur.isNone && y.early.isEmpty && y.queue.length == w.macros.length
    | _ => false

/-- ABORT (R583, R584): `outstanding` Aborts of the controller are under way. -/
def Mdl.abortCmd (s : Mdl) (cid ctl target outstanding : Nat) : Mdl :=
  if !s.ctlOk ctl then s
  else if 16 ≤ outstanding then s.complete cid ctl .abortLimitExceeded
  else
    let waits := match s.fetchedAt target ctl with
      | some f => s.catchable f
      | none => false
    if waits then (s.endCmd target ctl .commandAbortRequested).complete cid ctl .success 0
    else match s.jobList.find? fun j => j.2.cid == some (target, ctl) with
      | some (j, x) =>
        if s.noneBegun j x then (s.abortJob j .commandAbortRequested).complete cid ctl .success 0
        else s.complete cid ctl .success 1
      | none => s.complete cid ctl .success 1

/-- A TWIN_WRITE or TWIN_OP arrives (R647): mirrored changes apply in order; a change forwarded to this module as its unit's home takes its
range lock first. -/
def Mdl.changeIn (s : Mdl) (m : LMsg) : Mdl :=
  if twinOrder m ≠ 0 then s.mirrorIn m
  else match twinMsgOp m with
    | none => s.respond m 7 0 []
    | some o =>
      if s.mirroring && s.homeHere (unitOfOp o) then s.fetch ⟨m.tag, 65536, .forwarded o m⟩ else s.respond m 7 0 []

/-- The TWACK of a forwarded or own mirror (R647): a change performed for the partner is answered to it. -/
def Mdl.twackIn (s : Mdl) (id : Nat) (ok : Bool) (ns : Nat) : Mdl :=
  match s.twn.mirrors.find? fun m => m.id == id with
  | none => s
  | some m =>
    let s := s.mirrorAck id ok ns
    match m.fwd with
    | some f => if ok then s.performed f else s.respond f 7 0 []
    | none => s

end Sys2Proof.Machine
end

