-- ==== Sys2Proof/Machine/HostAdmin.lean ====
section
/-! DEFINITION. Host administration: identify and log pages, programs and range sets, the host window, management, attestation, CXL,
debug unlock, controllers and ports (R560 to R609, R699 to R703). -/
namespace Sys2Proof.Machine

/-! ### Gates (R23, R570, R662) -/

/-- The personality in force (R560). -/
def Mdl.personality (s : Mdl) : Nat := s.cht.opt.personality

/-- The tier engine serves: a chart or the built-in chart is in force and the far page map is restored (R662; DEDUCED, assumption log
entry 26). -/
def Mdl.tierServing (s : Mdl) : Bool := (s.cht.chart.isSome || s.flag Reg.CHT_STATUS_BUILTIN) && s.svc.mapRestored

/-- NVMe controllers can report ready (R23, Table 14-2). -/
def Mdl.canReady (s : Mdl) : Bool :=
  s.svc.mapRestored && s.svc.charged && (s.cht.chart.isSome || s.flag Reg.CHT_STATUS_BUILTIN) && !s.host.fatal

/-- A controller enabled waits for its gate; a shut-down one starts afresh (R570). -/
def Mdl.controllerEnable (s : Mdl) (n : Nat) : Mdl :=
  if s.host.fatal then s
  else
    let ready := s.stage == 2 || s.stage == 6
    let s := s.setCtl n { s.ctl n with enabled := true, shut := false, ready := ready }
    if ready then { s with svc := { s.svc with reported := true } } else s

/-- Configuration requests complete with Request Retry Status until the function's configuration space is loaded (R563); none arrives
over a port that has not trained (R561). -/
def Mdl.configRequest (s : Mdl) (fn : Nat) : Mdl :=
  if s.host.portRate = 0 then s
  else if s.host.configLoaded.contains fn then s.emit (.read 0x1FD7 2) else s.emit .retry

/-- PERST# is released and loading ends: every function's configuration space answers (R563). -/
def Mdl.perstDeassert (s : Mdl) : Mdl :=
  let vfs := fun (p : Nat) => (List.range 64).map fun i => (p + 1) * 0x100 + i + 1
  let fns := if s.personality = 1 then [1, 2] ++ vfs 0 ++ vfs 1 else if s.personality = 0 then 1 :: vfs 0 else [1]
  { s with host := { s.host with configLoaded := fns } }

/-- Functions of a port: PF and VFs (Table 12-6, CNTLID). -/
def portOf (ctl : Nat) : Nat := if ctl = 1 ∨ ctl / 256 = 1 then 0 else 1

/-- Reset the NVMe controllers that a set of functions carries (R564): completions of what they submitted are discarded, executions run on. -/
def Mdl.resetControllers (s : Mdl) (p : Nat → Bool) : Mdl :=
  let ctls := s.host.ctls.map fun c => if p c.1 then (c.1, { c.2 with enabled := false, ready := false, shut := false }) else c
  let s : Mdl := { s with host := { s.host with
    ctls := ctls.filter fun c => c.2 != .init
    fetched := (s.host.fetched.filter fun f => f.started || !p f.cmd.ctl).map fun f => if p f.cmd.ctl then { f with discard := true } else f } }
  let gone := s.host.locks.filter fun l => p l.ctl && (s.fetchedAt l.cid l.ctl).isNone && !s.jobList.any fun j => j.2.cid == some (l.cid, l.ctl)
  let s := gone.foldl (fun (s : Mdl) l => s.unlock l.cid l.ctl) s
  s.jobList.foldl (fun (s : Mdl) j => match j.2.cid with
    | some c => if p c.2 then s.setJob j.1 (some { j.2 with discard := true }) else s
    | none => s) s

/-- PERST# (R27): the whole host port, with the host window accesses it holds; configuration space loads anew after its release. -/
def Mdl.perstAssert (s : Mdl) : Mdl :=
  let s := s.resetControllers fun _ => true
  { s with host := { s.host with configLoaded := [], window := [], spdm := .idle, session := none, handshake := none } }

/-- Hot reset of a port (R27, R564). -/
def Mdl.portReset (s : Mdl) (port : Nat) : Mdl := s.resetControllers fun c => decide (s.personality ≠ 1) || portOf c == port

/-- FLR of a function (R564). -/
def Mdl.functionReset (s : Mdl) (c : Nat) : Mdl := s.resetControllers (· == c)

/-- A shutdown notification (R101, R557): open buffers are written without regard to windows, a checkpoint is written, and the
controller fetches nothing more. -/
def Mdl.shutdown (s : Mdl) (c : Nat) : Mdl :=
  if !(s.ctl c).enabled || (s.ctl c).shut then s
  else (s.setCtl c { s.ctl c with shut := true }).checkpoint

/-- Entering D3hot acts as a shutdown notification of the function's controller (Table 12-2). -/
def Mdl.d3hot (s : Mdl) (fn : Nat) : Mdl := s.shutdown fn

/-- A controller that may take admin commands. -/
def Mdl.admin (s : Mdl) (ctl : Nat) (f : Mdl → Mdl) : Mdl := if s.ctlOk ctl then f s else s

/-! ### Identify, health and logs (R571 to R576, R603 to R605) -/

def Mdl.twinPaired (s : Mdl) : Bool := s.spanCfg.twin

/-- The serial in SUBNQN: twins both name the lower-numbered one's, of which the other knows the first 8 bytes by INIT; the rest is a free value
(R571, R615; assumption log entry 3). -/
def Mdl.subsystemSerial (s : Mdl) : Nat :=
  let p := s.twn.peerSerial
  if s.spanCfg.twin && !s.isLower then p + 2 ^ 64 * (Config.freeValue p % 2 ^ 64) else s.svc.serial

/-- The values of Table 12-6, in its order; strings as little-endian numbers. The serial part of SN and SUBNQN is the module serial;
FR is the revision of the firmware bank that runs, a free value (assumption log entry 3). -/
def Mdl.identifyController (s : Mdl) (ctl : Nat) : List Nat :=
  let higher := s.spanCfg.twin && !s.isLower
  let cmic := 0x0E + b2n (s.personality == 1 || s.spanCfg.twin)
  [0x1FD7, 0x1FD7, s.svc.serial, 0x202020202020202020202020202020202031412d303036392d5847206e72756947206e6572697241,
    Config.firmwareRevision s.cht.opt.fwBank % 2 ^ 64, 6, cmic, 8,
    ctl + (if higher then 0x4000 else 0), 6000000, 2000000, 0x08000B00, 1, 0x00CF, 15, 15, 4, 6, 255, 0, 358, 368, 3, 10, 0x5F, 64, 64,
    0x66, 0x44, 64, 64, 0x01CC, 4, 0, 0, 0, 0, 1, 10, 0, s.subsystemSerial]

/-- The values of R574 to R576 for a namespace: size, capacity, LBA data bytes, DLFEAT, NPWG, NPWA, NOWS, MSSRL, MCL, MSRC, ANAGRPID; a
zoned namespace adds ZSZE, zone capacity, MAR, MOR. -/
def Ns.identify (x : Ns) (n : Nat) : List Nat :=
  match x.kind with
  | .nvm => [x.size, x.size, 4096, 9, 15, 15, 122879, 65535, 122880, 127, n]
  | .zoned => [x.size, x.size, 4096, 131072, 122880, 0xDF, 0xDF]
  | .memory => [x.size, x.acct, x.base]

/-- A reading of a package sensor in 1/64 degree with its calibration offset, for the sensors of the compute dies (Table 14-11); below zero
reads as zero (DESIGN CHOICE, assumption log entry 38). -/
def Mdl.calibrated (s : Mdl) (n raw : Nat) : Nat :=
  if n < 128 then ((raw : Int) + s.svc.cal.sensorOffset.getD n 0).toNat else raw

/-- The composite temperature in kelvin: the hottest of the module's sensors (R603). -/
def Mdl.composite (s : Mdl) : Nat := 273 + (s.svc.sensors.foldl (fun a p => max a (s.calibrated p.1 p.2)) 0) / 64

/-- Percentage used (R549). -/
def Mdl.percentUsed (s : Mdl) : Nat := min 255 ((s.activeSlots.foldl (fun a sl => max a (s.meanErases sl)) 0) * 100 / 3000)

/-- The critical warning bits (R603). -/
def Mdl.criticalWarning (s : Mdl) : Nat :=
  b2n (s.flag Reg.FTL_STATUS_WARN10) + 2 * b2n (decide (358 ≤ s.composite))
    + 4 * b2n ((List.range 4).any s.svc.retiredDie || !s.ftl.lostSlots.isEmpty) + 8 * b2n s.readOnly + 16 * b2n (s.flag Reg.PWR_HOLDUP_LOW)

/-- The number a list of fields makes of their register. -/
def Mdl.wordOf (s : Mdl) (l : List Fld) : Nat := l.foldl (fun a f => a + s.reg f * 2 ^ f.lo) 0

/-- Log 0xC0 (Table 12-10). -/
def Mdl.log0 (s : Mdl) : List Byte :=
  let es := s.svc.hierLog.flatMap fun e =>
    leBytes 8 (hierWord e.unit e.kind e.action) ++ leBytes 6 e.epoch ++ leBytes 2 0 ++ leBytes 8 e.seq ++ leBytes 8 0
  (leBytes 8 s.svc.hierTotal ++ leBytes 2 s.svc.hierLog.length ++ leBytes 6 0 ++ es ++ List.replicate 4096 0).take 4112

/-- Log 0xC1 (Table 12-11). -/
def Mdl.log1 (s : Mdl) : List Byte :=
  let es := s.svc.trnLog.flatMap fun e =>
    leBytes 1 e.event ++ leBytes 1 e.cls ++ leBytes 6 e.epoch ++ leBytes 4 e.status ++ leBytes 4 e.phase ++ leBytes 4 e.period ++ leBytes 12 0
  (leBytes 8 s.svc.trnTotal ++ leBytes 2 s.svc.trnLog.length ++ leBytes 6 0 ++ es ++ List.replicate 2048 0).take 2064

/-- The error counters of a slot since cold reset: what MED_SLOT_ECC holds and what its reads have taken out (Table 12-12). -/
def Mdl.eccSinceReset (s : Mdl) (sl : Nat) : Nat :=
  let old := fun (f : Fld) => Table.get 0 s.med.eccRead f.key
  let add := fun (f : Fld) => min (s.reg f + old f) (2 ^ f.width - 1) * 2 ^ f.lo
  add (Reg.MED_SLOT_ECC_CORRECTED sl) + add (Reg.MED_SLOT_ECC_RETRIED sl) + add (Reg.MED_SLOT_ECC_SOFT sl) + add (Reg.MED_SLOT_ECC_REBUILT sl)
    + add (Reg.MED_SLOT_ECC_UNRECOVERED sl) + add (Reg.MED_SLOT_ECC_REFRESHED sl)
    + max (s.reg (Reg.MED_SLOT_ECC_MAX_BITS sl)) (old (Reg.MED_SLOT_ECC_MAX_BITS sl)) * 2 ^ 112

/-- Log 0xC2 (Table 12-12). -/
def Mdl.log2 (s : Mdl) : List Byte :=
  let slot := fun (sl : Nat) =>
    let w := s.showWear sl
    leBytes 16 (s.reg (Reg.MED_SLOT_STATUS_ROLE sl))
      ++ leBytes 16 (w.wordOf [Reg.FTL_SLOT_WEAR_MEAN_ERASES sl, Reg.FTL_SLOT_WEAR_MAX_ERASES sl, Reg.FTL_SLOT_WEAR_MIN_ERASES sl,
        Reg.FTL_SLOT_WEAR_FREE sl, Reg.FTL_SLOT_WEAR_RETIRED sl, Reg.FTL_SLOT_WEAR_SPARE_BLOCKS sl])
      ++ leBytes 16 (s.eccSinceReset sl) ++ leBytes 16 0
  leBytes 1 (s.reg Reg.FTL_STATUS_SPARE_PCT) ++ leBytes 1 (s.reg Reg.FTL_STATUS_MEDIA)
    ++ leBytes 1 (b2n (s.flag Reg.FTL_STATUS_WARN10) + 2 * b2n (s.flag Reg.FTL_STATUS_WARN5) + 4 * b2n (s.flag Reg.FTL_STATUS_WARN2))
    ++ leBytes 13 0 ++ (List.range 9).flatMap slot

/-- The data of a log page: the vendor pages; SMART / Health (0x02: critical warning, composite temperature, spare, threshold, percentage
used, as R603 and R549 give them); ANA (0x0C: each NVM or zoned namespace with 1 Optimized or 3 Inaccessible); Sanitize Status (0x81: the
estimates of R599). Pages this manual leaves to the NVMe specifications are free bytes. -/
def Mdl.logPage (s : Mdl) (page : Nat) : List Byte × Mdl :=
  match page with
  | 0xC0 => (s.log0, s)
  | 0xC1 => (s.log1, s)
  | 0xC2 => (s.log2, s)
  | 0x02 => (leBytes 1 s.criticalWarning ++ leBytes 2 s.composite ++ leBytes 1 (s.reg Reg.FTL_STATUS_SPARE_PCT) ++ leBytes 1 10
      ++ leBytes 1 s.percentUsed, s)
  | 0x0C => ((s.nsList.filter fun p => p.2.kind != .memory).flatMap fun p => leBytes 4 p.1 ++ leBytes 1 (if s.anaOk then 1 else 3), s)
  | 0x81 => (leBytes 4 2 ++ leBytes 4 90, s)
  | _ => s.freshBytes 64

/-- GET_LOG_PAGE (R604, R605): without Retain, the page's event is enabled again. -/
def Mdl.readLog (s : Mdl) (cid ctl page : Nat) (retain : Bool) : Mdl :=
  let r := s.logPage page
  let s := r.2
  let s := if retain then s else { s with svc := { s.svc with posted := s.svc.posted.filter fun i => i + 0xC0 != page } }
  (s.emit (.bytes cid ctl r.1)).complete cid ctl .success

def Mdl.getLogPage (s : Mdl) (cid ctl page : Nat) (retain : Bool) : Mdl := s.admin ctl fun s => s.readLog cid ctl page retain

/-- The answers of Identify: code 0x06, CNS, the values. -/
def Mdl.tellController (s : Mdl) (cid ctl : Nat) : Mdl :=
  (s.emit (.answer 0x06 (1 :: s.identifyController ctl))).complete cid ctl .success
def Mdl.tellNamespace (s : Mdl) (cid ctl n : Nat) : Mdl :=
  match s.nsAt n with
  | some x => (s.emit (.answer 0x06 (0 :: x.identify n))).complete cid ctl .success
  | none => if n = 64 then (s.emit (.answer 0x06 [0])).complete cid ctl .success else s.complete cid ctl .invalidNamespace

def Mdl.identifyCtl (s : Mdl) (cid ctl : Nat) : Mdl := s.admin ctl fun s => s.tellController cid ctl
def Mdl.identifyNs (s : Mdl) (cid ctl n : Nat) : Mdl := s.admin ctl fun s => s.tellNamespace cid ctl n

/-- Flush completes at once (R571). -/
def Mdl.flush (s : Mdl) (cid ctl : Nat) : Mdl := s.admin ctl fun s => s.complete cid ctl .success

/-! ### Namespace and resource management (R574, R577, R588, R592) -/

/-- NAMESPACE_CREATE of a memory namespace (R592), local to this module. -/
def Mdl.createMemory (s : Mdl) (cid ctl acct base size : Nat) : Mdl :=
  s.admin ctl fun s =>
    match firstStatus [(acct != 0xFFFF && decide (acct < 65536), .invalidField),
        (base % pageBytes == 0 && size % pageBytes == 0 && decide (0 < size) && decide (base + size ≤ 2 ^ 47), .invalidField)] with
    | some e => s.complete cid ctl e
    | none => match s.freeNsid with
      | none => s.complete cid ctl .namespaceIdentifierUnavailable
      | some n =>
        (s.setNs n (some { kind := .memory, first := 0, units := 0, size := size, cls := 0, acct := acct, base := base, key := 0 })).complete
          cid ctl .success n

/-- NAMESPACE_DELETE (R588): a memory namespace goes here, an NVM or zoned one on both twins. -/
def Mdl.deleteNs (s : Mdl) (cid ctl n : Nat) : Mdl :=
  s.admin ctl fun s =>
    match s.nsAt n with
    | none => s.complete cid ctl (if n = 64 then .invalidField else .invalidNamespace)
    | some x => if x.kind = .memory then (s.dropNs n).complete cid ctl .success else s.submit ⟨cid, ctl, .delete n⟩

/-- VIRTUALIZATION_MANAGEMENT (R577): assign `n` queue (or interrupt) resources to a VF's controller, from its PF's pools of 4,096; at most 512
queue pairs and 513 vectors each. -/
def Mdl.assignResources (s : Mdl) (cid ctl vf : Nat) (interrupts : Bool) (n : Nat) : Mdl :=
  s.admin ctl fun s =>
    let used := s.host.ctls.foldl (fun a p => if p.1 = vf ∨ p.1 / 256 ≠ vf / 256 then a else a + if interrupts then p.2.vi else p.2.vq) 0
    if ¬ (vf / 256 = 1 ∨ (vf / 256 = 2 ∧ s.personality = 1)) ∨ s.personality = 2 ∨ vf % 256 = 0 ∨ 64 < vf % 256 then s.complete cid ctl .invalidController
    else if 4096 < used + n ∨ (if interrupts then 513 else 512) < n then s.complete cid ctl .invalidResources
    else
      let x := s.ctl vf
      (s.setCtl vf (if interrupts then { x with vi := n } else { x with vq := n })).complete cid ctl .success n

/-! ### Programs and range sets (R585 to R588) -/

def Mdl.setProg (s : Mdl) (i : Nat) (p : Prog) : Mdl := { s with host := { s.host with programs := Table.set .none s.host.programs i p } }

/-- May a program slot not be loaded or deactivated (R587)? It is active with executions, or an enabled serving group names it. -/
def Mdl.progInUse (s : Mdl) (i : Nat) : Bool :=
  let waits := s.host.fetched.any fun f => match f.cmd.op with
    | .execute g _ _ => g == i
    | _ => false
  ((s.prog i).active && (waits || s.jobList.any fun j => j.2.plan == i && j.2.catalogue.isNone)) ||
    (List.range 8).any fun g => s.flag (Reg.SQT_GRP_CFG_ENABLE g) && s.reg (Reg.SQT_GRP_CFG_PROGRAM g) == i

/-- LOAD_PROGRAM (R585 to R587). An image beyond the 256 MiB of system frames is refused with Invalid Field in Command (DESIGN CHOICE,
assumption log entry 27). -/
def Mdl.loadProgram (s : Mdl) (cid ctl i : Nat) (im : PlanImage) : Mdl :=
  s.admin ctl fun s =>
    let others := s.host.programs.foldl (fun a p => if p.1 = i then a else match p.2.image with | some m => a + m.bytes.length | none => a) 0
    if 256 ≤ i then s.complete cid ctl .invalidField
    else if (s.prog i).active || s.progInUse i then s.complete cid ctl .commandSequenceError
    else if 2 ^ 28 < others + im.bytes.length then s.complete cid ctl .invalidField
    else (s.setProg i ⟨some im, false⟩).complete cid ctl .success

/-- The plan header checks of R586. -/
def Mdl.planOk (s : Mdl) (im : PlanImage) : Bool :=
  let f := fun (o n : Nat) => leNat ((im.bytes.drop o).take n)
  let len := f 0x08 4
  f 0 4 == 0x4C505847 && f 4 2 == 1 && len == im.bytes.length && len % 16 == 0 && decide (64 ≤ len) && decide (len ≤ 2 ^ 26)
    && f 0x3C 4 == crc32 (im.bytes.drop 0x40) && f 0x10 16 / 2 ^ 100 == 0 && (planClusters im).all fun c => (s.physicalOf c).isSome

/-- PROGRAM_ACTIVATION (R586, R587). -/
def Mdl.activateProgram (s : Mdl) (cid ctl i : Nat) (on : Bool) : Mdl :=
  s.admin ctl fun s =>
    let p := s.prog i
    if 256 ≤ i then s.complete cid ctl .invalidField
    else match p.image with
      | none => s.complete cid ctl .invalidField
      | some im =>
        if on then if s.planOk im then (s.setProg i { p with active := true }).complete cid ctl .success else s.complete cid ctl .planInvalid
        else if s.progInUse i then s.complete cid ctl .commandSequenceError
        else (s.setProg i { p with active := false }).complete cid ctl .success

/-- CREATE_MEMORY_RANGE_SET (R588): the set takes the lowest free number (DESIGN CHOICE, assumption log entry 17). -/
def Mdl.createSet (s : Mdl) (cid ctl : Nat) (l : List MemRange) : Mdl :=
  s.admin ctl fun s =>
    let ok := fun (r : MemRange) => match s.nsAt r.nsid with
      | some x => x.kind == .memory && decide (r.start + r.len ≤ x.size) && x.acct == s.setAcct l
      | none => false
    let free := (List.range 256).find? fun i => (Table.get none s.host.sets i).isNone
    match free with
    | none => s.complete cid ctl .invalidField
    | some i =>
      if l.isEmpty || decide (16 < l.length) || !l.all ok || s.setAcct l == 0xFFFF then s.complete cid ctl .invalidField
      else ({ s with host := { s.host with sets := Table.set none s.host.sets i (some l) } }).complete cid ctl .success i

/-! ### The host window (R566 to R569, R608, Table 12-4) -/

/-- The host window account (R566). -/
def windowAcct : Nat := 0xFFFE

/-- Completer Abort, or poisoned data under CXL with an event record (R567, R608). -/
def Mdl.windowAbort (s : Mdl) : Mdl :=
  if s.personality = 2 then { s with host := { s.host with cxlEvents := s.host.cxlEvents ++ [s.epoch] } }.emit .poison else s.emit .abort

/-- One access through the host window: whether it is done, or must wait (R567, R568). -/
def Mdl.windowTry (s : Mdl) (w : WindowWait) : Bool × Mdl :=
  let r := s.hostReady windowAcct w.addr w.len w.data.isSome
  let s := r.2
  if !r.1 then (false, s)
  else match w.data with
    | none => match s.hostRead windowAcct w.addr w.len with
      | .ok (l, s) => (true, (s.dropLines (· == .host)).emit (.window l))
      | .error .lost => (true, s.windowAbort)
      | .error _ => (false, s)
    | some l => match s.hostWrite windowAcct w.addr l with
      | (none, s) => (true, s)
      | (some .lost, s) => (true, s)
      | (some _, _) => (false, s)

/-- Must an access that arrives wait behind an earlier one (R569)? Writes reach memory in order; a read returns every earlier write to its
bytes. -/
def WindowWait.behind (b a : WindowWait) : Bool :=
  a.data.isSome && (b.data.isSome || (decide (a.addr < b.addr + b.len) && decide (b.addr < a.addr + a.len)))

/-- An access arrives: it is answered, waits behind an earlier one, or waits itself (R569). -/
def Mdl.windowAccess (s : Mdl) (w : WindowWait) : Mdl :=
  if !s.tierServing || decide (2 ^ 38 < w.addr + w.len) then
    match w.data with
    | none => if s.personality = 2 then s.emit .poison else s.emit (.window (List.replicate w.len 0xFF#8))
    | some _ => s
  else
    let r := if s.host.window.any w.behind then (false, s) else s.windowTry w
    if r.1 then r.2 else { r.2 with host := { r.2.host with window := r.2.host.window ++ [w] } }

def Mdl.windowRead (s : Mdl) (addr n : Nat) : Mdl := s.windowAccess ⟨addr, n, none⟩
def Mdl.windowWrite (s : Mdl) (addr : Nat) (l : List Byte) : Mdl := s.windowAccess ⟨addr, l.length, some l⟩

/-- The accesses that wait are tried again, in the order of their arrival. -/
def Mdl.windowRetry (s : Mdl) : Mdl :=
  s.host.window.foldl (fun (s : Mdl) w => s.windowAccess w) { s with host := { s.host with window := [] } }

/-- The fault a waiting access meets. -/
def Mdl.windowFault (s : Mdl) (w : WindowWait) : PageFault :=
  match w.data with
  | none => match s.hostRead windowAcct w.addr w.len with
    | .error f => f
    | .ok _ => .quota
  | some l => match s.hostWrite windowAcct w.addr l with
    | (some f, _) => f
    | (none, _) => .quota

/-- HOST_WINDOW_TIMEOUT (R568): the oldest waiting access ends, recorded in TIR_FAULT_ADDR; the others are tried again. -/
def Mdl.windowTimeout (s : Mdl) : Mdl :=
  match s.host.window with
  | [] => s
  | w :: t =>
    let s := s.recordPage (s.windowFault w) windowAcct w.addr
    let s : Mdl := { s with host := { s.host with window := [] } }
    let s := if w.data.isNone then s.windowAbort else s
    t.foldl (fun (s : Mdl) x => s.windowAccess x) s

/-! ### Debug unlock and ownership release (R699 to R703) -/

/-- SECURITY_NONCE (R699): a fresh nonce, a free value, 32 bytes. -/
def Mdl.securityNonce (s : Mdl) (cid ctl : Nat) : Mdl :=
  s.admin ctl fun s =>
    let n := s.fresh 256
    let s : Mdl := { n.2 with svc := { n.2.svc with nonce := some n.1 } }
    (s.emit (.bytes cid ctl (leBytes 32 n.1))).complete cid ctl .success

/-- A signature verifies under a key over the bytes given (R115). -/
def Mdl.verifies (_s : Mdl) (key : Nat) (msg : List Byte) (rs : Nat) : Bool := signatureOk key (sha384 msg) rs

/-- The claimed owner's public key: the option record holds its hash alone, so the key is the one of a chart bank's signature block that has that
hash (R116; DEDUCED, assumption log entry 28). -/
def Mdl.ownerKeys (s : Mdl) : List Nat :=
  (([0, 1].map fun b => imgBytes (bankByte (s.cht.bank b)) 0x108 96).filter fun pub => sha384 pub == s.cht.opt.ownerKeyHash).map leNat

/-- An unlock block: MAGIC, serial (16 bytes), nonce (32 bytes), r and s (R700); fields follow each other without gaps (DEDUCED, assumption
log entry 28). -/
def Mdl.unlockOk (s : Mdl) (b : List Byte) : Bool :=
  let f := fun (o n : Nat) => leNat ((b.drop o).take n)
  decide (s.cht.opt.debugPolicy = 1) && f 0 4 == 0x55445847 && f 4 16 == s.svc.serial && s.svc.nonce == some (f 20 32) && decide (b.length = 148)
    && (if s.cht.opt.ownerState = 1 then s.ownerKeys else [s.svc.vendorKey]).any fun key => s.verifies key (b.take 52) (f 52 96)

/-- DEBUG_UNLOCK (R701). -/
def Mdl.debugUnlock (s : Mdl) (cid ctl : Nat) (b : List Byte) : Mdl :=
  s.admin ctl fun s =>
    if s.unlockOk b then ((s.setReg Reg.SVC_STATUS_DEBUG 1).logBook 0x10 1).complete cid ctl .success
    else (s.logBook 0x10 2).complete cid ctl .securityStateRefused

/-- DEBUG_UNLOCK_RELEASE (R701). -/
def Mdl.debugRelease (s : Mdl) (cid ctl : Nat) : Mdl :=
  s.admin ctl fun s => (if s.flag Reg.SVC_STATUS_DEBUG then (s.setReg Reg.SVC_STATUS_DEBUG 0).logBook 0x10 3 else s).complete cid ctl .success

/-- A release block: MAGIC, serial, option SEQUENCE (8 bytes), r and s (R702). -/
def Mdl.releaseOk (s : Mdl) (b : List Byte) : Bool :=
  let f := fun (o n : Nat) => leNat ((b.drop o).take n)
  f 0 4 == 0x4C525847 && f 4 16 == s.svc.serial && f 20 8 == s.cht.newestOpt.sequence && decide (b.length = 124)
    && s.verifies s.svc.vendorKey (b.take 28) (f 28 96) && (s.twinState == 0 || s.twinState == 6)

/-- The rest of an ownership release, once its sanitize has ended (R703): an option record without owner, a SECURITY record. -/
def Mdl.released (s : Mdl) (cid ctl : Nat) : Mdl :=
  let o := s.cht.newestOpt
  let s := s.appendOption { o with sequence := o.sequence + 1, ownerState := 0, ownerKeyId := 0, ownerKeyHash := 0, debugPolicy := 0, raw := [] }
  (s.logBook 0x10 6).complete cid ctl .success

/-- A sanitize goes on once compute is quiet (R598): when it ends, the ownership release or the commands that wait for it go on. -/
def Mdl.sanitizeGoesOn (s : Mdl) : Mdl :=
  match s.host.sanitize with
  | none => s
  | some z =>
    if !s.allQuiet then s
    else
      let s := s.sanitizeNow z.block
      (match z.release with
      | some c => s.released c.1 c.2
      | none => s).roomFreed

/-- OWNERSHIP_RELEASE (R702, R703): a Crypto Erase sanitize begins; the rest of the release follows it. -/
def Mdl.ownerRelease (s : Mdl) (cid ctl : Nat) (b : List Byte) : Mdl :=
  s.admin ctl fun s =>
    if !s.releaseOk b then (s.logBook 0x10 2).complete cid ctl .securityStateRefused
    else if s.sanitizing then s.complete cid ctl .sanitizeInProgress
    else
      let s := (s.change (.sanitize false) none none).elim s (·.1)
      match s.host.sanitize with
      | none => s.released cid ctl
      | some z => { s with host := { s.host with sanitize := some { z with release := some (cid, ctl) } } }

/-! ### SPDM (R607) -/

/-- An SPDM answer: the response code of DMTF SPDM (PRESUMED, assumption log entry 29) and its fields. -/
def Mdl.spdm (s : Mdl) (code : Nat) (l : List Nat) : Mdl := s.emit (.answer code l)
/-- ERROR with UnexpectedRequest. -/
def Mdl.spdmError (s : Mdl) (e : Nat) : Mdl := s.spdm 0x7F [e]

def SpdmState.rank : SpdmState → Nat
  | .idle => 0 | .version => 1 | .capabilities => 2 | .negotiated => 3

/-- A request that needs the connection to have come this far. -/
def Mdl.spdmAt (s : Mdl) (rank : Nat) (f : Mdl → Mdl) : Mdl := if s.host.spdm.rank < rank then s.spdmError 4 else f s

def Mdl.setSpdm (s : Mdl) (x : SpdmState) : Mdl := { s with host := { s.host with spdm := x } }

/-- GET_VERSION starts the connection afresh: version 1.3. -/
def Mdl.getVersion (s : Mdl) : Mdl :=
  let s : Mdl := { s with host := { s.host with spdm := .version, session := none, handshake := none } }
  s.spdm 0x04 [0x13]
def Mdl.getCapabilities (s : Mdl) : Mdl := s.spdmAt 1 fun s => (s.setSpdm .capabilities).spdm 0x61 []
/-- Asymmetric algorithm ECDSA P-384, hash SHA-384, key exchange secp384r1, AEAD AES-256-GCM, as 384, 384, 384, 256. -/
def Mdl.negotiate (s : Mdl) : Mdl := s.spdmAt 2 fun s => (s.setSpdm .negotiated).spdm 0x63 [384, 384, 384, 256]
/-- Digest of the certificate chain in slot 0, whose bytes are free values (assumption log entry 3). -/
def Mdl.getDigests (s : Mdl) : Mdl := s.spdmAt 3 fun s => s.spdm 0x01 [0, sha384 (Config.certificate s.svc.serial)]
def Mdl.getCertificate (s : Mdl) (slot : Nat) : Mdl :=
  s.spdmAt 3 fun s => if slot = 0 then s.spdm 0x02 [0, leNat (Config.certificate s.svc.serial)] else s.spdmError 1
/-- A challenge is answered with a nonce and a signature, free values. -/
def Mdl.challenge (s : Mdl) (nonce : Nat) : Mdl :=
  s.spdmAt 3 fun s => let a := s.fresh 256; let g := a.2.fresh 768; g.2.spdm 0x03 [nonce, a.1, g.1]

/-- The bytes of the retirement list, one SVC_HIER_FAULT word per unit (DESIGN CHOICE, assumption log entry 29). -/
def Mdl.retirementBytes (s : Mdl) : List Byte := s.svc.retired.flatMap fun u => leBytes 8 (hierWord u 0 0)

/-- The measurement of Table 12-13a with this index; the digests of the ROM and of the firmware that runs are free values
(assumption log entry 3). -/
def Mdl.measurement (s : Mdl) (i : Nat) : Option (List Nat × Mdl) :=
  match i with
  | 1 => some ([Config.codeDigest 2 % 2 ^ 384], s)
  | 2 => some ([Config.codeDigest s.cht.opt.fwBank % 2 ^ 384], s)
  | 3 => some ([match s.cht.chart with | some c => c.headerHash | none => 0], s)
  | 4 => some ([sha384 (if s.cht.opt.raw.isEmpty then s.cht.opt.bytes else s.cht.opt.raw)], s)
  | 5 => some ([sha384 s.retirementBytes], s)
  | 6 => some ([s.svc.logTotal, match s.svc.logBook with | r :: _ => sha384 r.bytes | [] => 0], s)
  | 7 => some ((List.range 9).map fun sl => match Table.get none s.svc.cartIds sl with | some c => c.serial | none => 0, s)
  | _ => none

/-- GET_MEASUREMENTS: ResponseNotReady until a chart is in force (Table 14-2). -/
def Mdl.getMeasurements (s : Mdl) (i : Nat) : Mdl :=
  if s.cht.chart.isNone ∧ ¬ s.flag Reg.CHT_STATUS_BUILTIN then s.spdmError 0x42
  else s.spdmAt 3 fun s => match s.measurement i with
    | some (l, s) => s.spdm 0x60 (i :: l)
    | none => s.spdmError 1
def Mdl.keyExchange (s : Mdl) (id : Nat) : Mdl :=
  s.spdmAt 3 fun s =>
    let r := s.fresh 768
    ({ r.2 with host := { r.2.host with handshake := some id } }).spdm 0x64 [id, r.1]
def Mdl.finishSession (s : Mdl) (id : Nat) : Mdl :=
  if s.host.handshake = some id then ({ s with host := { s.host with handshake := none, session := some id } }).spdm 0x65 [id] else s.spdmError 4
def Mdl.endSession (s : Mdl) (id : Nat) : Mdl :=
  if s.host.session = some id then ({ s with host := { s.host with session := none } }).spdm 0x6C [id] else s.spdmError 4

/-! ### Management (R606) -/

/-- Is a management answer due: the service processor runs (Table 14-1)? -/
def Mdl.mgmt (s : Mdl) (f : Mdl → Mdl) : Mdl := if s.svc.p54 then f s else s

/-- Read NVMe-MI Data Structure: type 0 gives version 2.0 and the ports; the other types, left to NVMe-MI, are free values. -/
def Mdl.miData (s : Mdl) (type : Nat) : Mdl :=
  s.mgmt fun s =>
    if type = 0 then s.emit (.answer 0x00 [type, 2, 0, if s.personality = 1 then 2 else 1])
    else let d := s.fresh 64; d.2.emit (.answer 0x00 [type, d.1])

/-- Subsystem Health Status Poll: stage, critical warning, composite temperature, percentage used. -/
def Mdl.miHealth (s : Mdl) : Mdl :=
  s.mgmt fun s => s.emit (.answer 0x01 [s.stage, s.criticalWarning, s.composite, s.percentUsed])
/-- Controller Health Status Poll: ready, fatal, shut down, critical warning, temperature, spare. -/
def Mdl.miController (s : Mdl) (ctl : Nat) : Mdl :=
  s.mgmt fun s => s.emit (.answer 0x02 [ctl, b2n (s.ctl ctl).ready, b2n s.host.fatal, b2n (s.ctl ctl).shut, s.criticalWarning, s.composite,
    s.reg Reg.FTL_STATUS_SPARE_PCT])
def Mdl.miGet (s : Mdl) (id : Nat) : Mdl := s.mgmt fun s => s.emit (.answer 0x04 [id, Table.get 0 s.host.mi id])
def Mdl.miSet (s : Mdl) (id v : Nat) : Mdl :=
  s.mgmt fun s => ({ s with host := { s.host with mi := Table.set 0 s.host.mi id v } }).emit (.answer 0x03 [id])

/-- Total `i` of Table 14-8 in its place, as (offset, bytes). -/
def totalPlaces : List (Nat × Nat) :=
  [(8, 8), (16, 8), (24, 4), (28, 4), (32, 8), (40, 4), (44, 4), (48, 4), (52, 4), (56, 4), (60, 4), (64, 4), (68, 8), (76, 4), (80, 4), (84, 4), (88, 4)]

/-- Byte `n` of a little-endian number (R5). -/
def byteOf (n v : Nat) : Byte := BitVec.ofNat 8 (v / 256 ^ n)

/-- The module identity memory (Table 14-5) but for its CRCs. What no rule lays out, with the sequence number of a copy of the totals,
is a free byte; a digest lies with its first byte first (DESIGN CHOICE, assumption log entry 51). -/
def Mdl.identityBody (s : Mdl) (a : Nat) : Byte :=
  if a < 4 then byteOf a 0x44495847
  else if 0x10 ≤ a ∧ a < 0x20 then byteOf (a - 0x10) s.svc.serial
  else if 0x20 ≤ a ∧ a < 0x2A then byteOf (a - 0x20) 0x31412d303036392d5847
  else if 0x2A ≤ a ∧ a < 0x30 then 0x20#8
  else if 0x30 ≤ a ∧ a < 0x36 then BitVec.ofNat 8 (s.svc.dieSteps.getD (a - 0x30) 0)
  else if 0x38 ≤ a ∧ a < 0x3C then byteOf (a - 0x38) s.svc.madeOn
  else if 0x100 ≤ a ∧ a < 0x108 then byteOf (a - 0x100) s.svc.logTotal
  else if 0x108 ≤ a ∧ a < 0x110 then byteOf (a - 0x108) (s.svc.logTotal % logBookSize)
  else if 0x110 ≤ a ∧ a < 0x118 then byteOf (a - 0x110) s.svc.logDropped
  else if 0x120 ≤ a ∧ a < 0x150 then
    match s.svc.logBook with | r :: _ => (sha384Bytes r.bytes).getD (a - 0x120) 0 | [] => 0
  else if 0x200 ≤ a ∧ a < 0x400 then
    ((List.range 17).findSome? fun i =>
      let p := totalPlaces.getD i (0, 0)
      let o := (a - 0x200) % 256
      if p.1 ≤ o ∧ o < p.1 + p.2 then some (byteOf (o - p.1) (Table.get 0 s.svc.totals i)) else none).getD (Config.identityFill 0 a)
  else if 0x1000 ≤ a ∧ a < 0x1000 + 32 * logBookSize then
    let slot := (a - 0x1000) / 32
    let back := (s.svc.logTotal + logBookSize - 1 - slot) % logBookSize
    match s.svc.logBook[back]? with | some r => r.bytes.getD (a % 32) 0 | none => 0
  else Config.identityFill 0 a

/-- A byte of the module identity memory (a digest in it, NEWEST_HASH, stands first digest byte first: the model's choice beside R5, log
57): the CRC that ends each of its first four areas covers the 252 bytes before it. -/
def Mdl.identityByte (s : Mdl) (a : Nat) : Byte :=
  let base := a / 256 * 256
  if a < 0x400 ∧ 0xFC ≤ a % 256 then byteOf (a % 256 - 0xFC) (crc32 ((List.range 252).map fun i => s.identityBody (base + i)))
  else s.identityBody a

/-- A byte of the identity memory of the cartridge in a slot (Tables 14-6, 14-7); the first 256 bytes, whose layout no rule gives, and
the reserved ones are free. -/
def CartId.byte (c : CartId) (slot a : Nat) : Byte :=
  if 0x100 ≤ a ∧ a < 0x4000 then
    let die := (a - 0x100) / 126
    let o := (a - 0x100) % 126
    let l := (c.badBlocks.filter fun p => p.1 == die).map (·.2)
    byteOf (o % 2) (if o < 2 then l.length else l.getD (o / 2 - 1) 0)
  else if 0x4000 ≤ a ∧ a < 0xC000 then BitVec.ofNat 8 ((c.offsets.lookup (a - 0x4000)).getD 0)
  else if 0xF000 ≤ a then byteOf (a % 64) ((c.counters.lookup ((a - 0xF000) / 64)).getD 0)
  else Config.identityFill (1 + slot) a

/-- A byte of the bay identity memory (R677): serial, BAY, TWIN_BAY, MODULE_HINT, one after the other (DEDUCED, assumption log
entry 51). -/
def Mdl.bayByte (s : Mdl) (a : Nat) : Byte :=
  match s.svc.bay with
  | some b => if a < 20 then byteOf a (b.serial + b.bay * 2 ^ 128 + b.twinBay * 2 ^ 136 + b.hint * 2 ^ 144) else Config.identityFill 10 a
  | none => Config.identityFill 10 a

/-- The management-bus switch joins the management bus to the identity bus, every memory write-protected (R672); otherwise the
bus belongs to the service processor (R671). -/
def Mdl.busJoined (s : Mdl) : Bool := !s.svc.p54

/-- A read of an identity memory: by the service processor for NVMe-MI VPD Read, or straight from the bus while the switch joins it
(R28, R671, R672). An absent cartridge answers nothing. -/
def Mdl.vpdRead (s : Mdl) (mem : IdMem) (off n : Nat) : Mdl :=
  let read := fun (f : Nat → Byte) => s.emit (.answer 0x05 ((List.range n).map fun i => (f (off + i)).toNat))
  match mem with
  | .module => read s.identityByte
  | .cartridge sl => match Table.get none s.svc.cartIds sl with
    | some c => read (c.byte sl)
    | none => s
  | .bay => read s.bayByte

/-- A tunnelled admin command (R606): Admin Command Media Not Ready until a controller is ready. Controller 0xFFFF stands for the
management endpoint. -/
def Mdl.tunnelled (s : Mdl) (t : Tunnel) : Mdl :=
  s.mgmt fun s =>
    if ¬ (s.stage = 2 ∨ s.stage = 6) then s.complete 0 0xFFFF .mediaNotReady
    else
      let was := s.ctl 0xFFFF
      let s := s.setCtl 0xFFFF { was with enabled := true, ready := true }
      let s := match t with
        | .identifyController => s.tellController 0 0xFFFF
        | .identifyNamespace n => s.tellNamespace 0 0xFFFF n
        | .getLogPage p r => s.readLog 0 0xFFFF p r
        | .getFeatures _ => (let f := s.fresh 32; f.2.complete 0 0xFFFF .success f.1)
        | .securityReceive sp => if sp = 1 then s.securityNonce 0 0xFFFF else s.complete 0 0xFFFF .invalidField
        | .securitySend sp b =>
          if sp = 1 then s.debugUnlock 0 0xFFFF b
          else if sp = 2 then s.ownerRelease 0 0xFFFF b
          else if sp = 3 then s.debugRelease 0 0xFFFF
          else s.complete 0 0xFFFF .invalidField
      s.setCtl 0xFFFF was

/-! ### CXL (R608, R609) -/

/-- A mailbox command answers in personality 2 only. -/
def Mdl.mailbox (s : Mdl) (f : Mdl → Mdl) : Mdl := if s.personality = 2 then f s else s

/-- Identify Memory Device: total, volatile and persistent capacity in bytes. -/
def Mdl.cxlIdentify (s : Mdl) : Mdl := s.mailbox fun s => s.emit (.answer 0x4000 [2 ^ 38, 2 ^ 38, 0])
def Mdl.cxlHealth (s : Mdl) : Mdl := s.mailbox fun s => s.emit (.answer 0x4200 [s.criticalWarning, s.composite, s.percentUsed])
/-- One log: the Command Effects Log, as its CXL identifier 0xDA9C0B5 (its leading digits; PRESUMED, assumption log entry 29). -/
def Mdl.cxlLogs (s : Mdl) : Mdl := s.mailbox fun s => s.emit (.answer 0x0400 [1, 0xDA9C0B5])
/-- The Command Effects Log: the mailbox opcodes of R609. -/
def Mdl.cxlGetLog (s : Mdl) : Mdl := s.mailbox fun s => s.emit (.answer 0x0401 [0x4000, 0x4200, 0x0400, 0x0401, 0x0100, 0x0101])
def Mdl.cxlEvents (s : Mdl) : Mdl := s.mailbox fun s => s.emit (.answer 0x0100 s.host.cxlEvents)
/-- Clear the oldest `n` event records. -/
def Mdl.cxlClear (s : Mdl) (n : Nat) : Mdl :=
  s.mailbox fun s => ({ s with host := { s.host with cxlEvents := s.host.cxlEvents.drop n } }).emit (.answer 0x0101 [])
/-- Global Persistent Flush: acknowledged with nothing to flush. -/
def Mdl.persistentFlush (s : Mdl) : Mdl := s.mailbox fun s => s.emit (.answer 0x0000 [])

end Sys2Proof.Machine
end

