-- ==== Sys2Proof/Machine/Span.lean ====
section
/-! DEFINITION. The span: link states, credits and probes, serving and answering Limuc requests, responses, the directory and the span master (R612
to R645). -/
namespace Sys2Proof.Machine

/-! ### Links (R613 to R617, Table 13-2) -/

/-- Unretired lanes of a link. -/
def Mdl.goodLanes (s : Mdl) (n : Nat) : Nat := ((List.range 9).filter fun p => !bit (s.reg (Reg.SPN_LINK_RETIRED n)) p).length

/-- The width code lanes allow (R613): 2 full, 1 half, 0 down. -/
def widthOf (lanes : Nat) : Nat := if 8 ≤ lanes then 2 else if 4 ≤ lanes then 1 else 0

/-- Is a link enabled: its LINK_ENABLE bit, and the domain of its hub die (Tables 1-1 and 1-13)? -/
def Mdl.linkEnabled (s : Mdl) (n : Nat) : Bool := bit s.spanCfg.linkEnable n && s.domainOn (if n < 4 then 24 else 26)

/-- A lane is retired (R614): recorded as a span-level fault, counted. -/
def Mdl.laneRetired (s : Mdl) (n lane : Nat) : Mdl :=
  let old := s.reg (Reg.SPN_LINK_RETIRED n)
  if bit old lane ∨ 9 ≤ lane then s
  else
    let s := (s.setReg (Reg.SPN_LINK_RETIRED n) (old + 2 ^ lane)).countSat (Reg.SPN_LINK_LANE_FAULTS n)
    let s := s.total .limucLanes
    s.hierRecord ⟨.span, 0, 0, 0, 0⟩ 0x0F (if widthOf (s.goodLanes n) = 2 then 1 else 3)

/-- LINK_DETECT: training from DETECT tests all nine lanes again; `bad` is the mask of those it finds faulty (R614, R615).
INIT goes out. -/
def Mdl.linkDetect (s : Mdl) (n bad : Nat) : Mdl :=
  if s.reg (Reg.SPN_LINK_STATE n) ≠ 1 ∨ ¬ s.linkEnabled n then s
  else
    let s := s.setRegs [(Reg.SPN_LINK_STATE n, 2), (Reg.SPN_LINK_RETIRED n, 0), (Reg.SPN_LINK_WIDTH n, 0)]
    let s := ((List.range 9).filter (bit bad)).foldl (fun (s : Mdl) p => s.laneRetired n p) s
    s.emit (.init n ⟨s.myModule, n, s.svc.serial % 2 ^ 64, s.reg Reg.SPN_STATUS_ROLE_NOW, s.spanCfg.twin⟩)

/-- Receive buffers of a link in flits, which are its first credits (Table 13-4). -/
def firstCredits (n : Nat) : List Nat := [1024, 1024, if n = 6 ∨ n = 7 then 1536 else 1024, 128]

/-- LINK_TRAINED: lanes locked and INIT exchanged; `delay` is the first measured delay in 0.25 ns. A twin link whose peer is not
the partner stays in TRAIN (R616). -/
def Mdl.linkTrained (s : Mdl) (n : Nat) (i : InitMsg) (delay : Nat) : Mdl :=
  if s.reg (Reg.SPN_LINK_STATE n) ≠ 2 ∨ s.goodLanes n < 4 then s
  else
    let s := s.setRegs [(Reg.SPN_LINK_PEER_MODULE n, i.module), (Reg.SPN_LINK_PEER_LINK n, i.link)]
    let twin := s.spanCfg.twin && decide (6 ≤ n)
    let fits := i.module == s.spanCfg.partner && i.twin
    if twin && !fits then s.setReg Reg.TWN_STATUS_WRONG_PEER 1
    else
      let s := s.setLink n { LinkSt.init with credits := firstCredits n, delays := [delay], twinOk := twin }
      let s : Mdl := if twin then { s with twn := { s.twn with peerSerial := i.serial % 2 ^ 64 } } else s
      let s := s.setRegs [(Reg.SPN_LINK_STATE n, 3), (Reg.SPN_LINK_WIDTH n, widthOf (s.goodLanes n)), (Reg.SPN_LINK_DELAY n, delay)]
      let s := s.showTwinLinks.tryBlocked
      if twin then s.helloOn n else s

def Mdl.linkTrainTimeout (s : Mdl) (n : Nat) : Mdl :=
  if s.reg (Reg.SPN_LINK_STATE n) = 2 then s.setReg (Reg.SPN_LINK_STATE n) 1 else s

/-- What follows when a link stops being ACTIVE for good: with both twin links down, the twin rows of Table 13-11. -/
def Mdl.linkLost (s : Mdl) (n : Nat) : Mdl :=
  let s := s.showTwinLinks
  if 6 ≤ n ∧ s.twinLink.isNone then s.twinFailed else s

/-- LIMUC_LANE_RETIRE (R614): the link remaps its lanes in RECOVER. -/
def Mdl.limucLaneRetire (s : Mdl) (n lane : Nat) : Mdl :=
  let st := s.reg (Reg.SPN_LINK_STATE n)
  if st = 0 ∨ st = 1 then s
  else
    let s := s.laneRetired n lane
    if st = 3 then (s.setReg (Reg.SPN_LINK_STATE n) 4).showTwinLinks else s

/-- LINK_REPLAY_LIMIT: a flit replayed 8 times without acknowledgement retrains all lanes. -/
def Mdl.replayLimit (s : Mdl) (n : Nat) : Mdl :=
  if s.reg (Reg.SPN_LINK_STATE n) = 3 ∧ 8 ≤ (s.link n).replays then (s.setReg (Reg.SPN_LINK_STATE n) 4).showTwinLinks else s

/-- Replay every unacknowledged flit, oldest first; then what is held goes on as room allows. -/
def Mdl.replayAll (s : Mdl) (n : Nat) : Mdl :=
  ((s.link n).unacked.foldl (fun (s : Mdl) f => (s.countSat (Reg.SPN_LINK_REPLAYS n)).emit (.flit n 2 f.1)) s).releaseHeld n

/-- LINK_RECOVERED. -/
def Mdl.linkRecovered (s : Mdl) (n : Nat) : Mdl :=
  if s.reg (Reg.SPN_LINK_STATE n) = 4 ∧ 4 ≤ s.goodLanes n then
    let s := s.setRegs [(Reg.SPN_LINK_STATE n, 3), (Reg.SPN_LINK_WIDTH n, widthOf (s.goodLanes n))]
    let s := s.setLink n { s.link n with replays := 0 }
    ((s.replayAll n).showTwinLinks).tryBlocked
  else s

/-- LINK_RECOVER_TIMEOUT: unacknowledged flits are discarded, and the link is down. -/
def Mdl.recoverTimeout (s : Mdl) (n : Nat) : Mdl :=
  if s.reg (Reg.SPN_LINK_STATE n) = 4 then
    ((s.setLink n .init).setRegs [(Reg.SPN_LINK_STATE n, 1), (Reg.SPN_LINK_WIDTH n, 0)]).linkLost n
  else s

/-- LINK_DISABLE: LINK_ENABLE cleared, or the domain off. -/
def Mdl.linkDisable (s : Mdl) (n : Nat) : Mdl :=
  if s.linkEnabled n then s else ((s.setLink n .init).setRegs [(Reg.SPN_LINK_STATE n, 0), (Reg.SPN_LINK_WIDTH n, 0)]).linkLost n

/-! ### Flits: acknowledgement, credits, probes (R617 to R620, R631) -/

/-- Drop the flits an ACK names: everything up to the one whose SEQ it is. -/
def Mdl.acked (s : Mdl) (n ack : Nat) : Mdl :=
  let l := s.link n
  match l.unacked.findIdx? fun f => f.1 == ack with
  | some i => s.setLink n { l with unacked := l.unacked.drop (i + 1), replays := 0 }
  | none => s

/-- NAK_RECEIVE: the sender replays from ACK + 1 (R618). -/
def Mdl.nakReceive (s : Mdl) (n ack : Nat) : Mdl :=
  if !s.linkActive n then s
  else
    let s := s.acked n ack
    let s := s.setLink n { s.link n with replays := (s.link n).replays + 1 }
    s.replayAll n

/-- The mean of a link's last eight probes (R617). -/
def Mdl.linkDelay (s : Mdl) (n : Nat) : Nat :=
  let d := (s.link n).delays
  d.foldl (· + ·) 0 / max 1 d.length

/-- A link-local message. -/
def localMsg (type tag : Nat) (data : List Byte) : LMsg :=
  { type := type, tc := 0, hops := 0, dst := 0, src := 0, tag := tag, addr := 0, status := 0, data := data, stream := [] }

/-- PROBE_SEND at time `t`. -/
def Mdl.probeSend (s : Mdl) (n t : Nat) : Mdl := if s.linkActive n then s.sendOn n (localMsg 0x0B 0 (leBytes 8 t ++ leBytes 8 0)) else s

/-- A PROBE at time `t`: TAG 0 asks and is answered with this end's hold time; TAG 1 answers, and half the round trip less the hold is the
delay (which TAG tells them apart is DESIGN CHOICE, assumption log entry 31). -/
def Mdl.probe (s : Mdl) (n : Nat) (m : LMsg) (t : Nat) : Mdl :=
  if !s.linkActive n then s
  else
    let sent := leNat (m.data.take 8)
    if m.tag = 0 then
      let h := s.fresh 16
      h.2.sendOn n (localMsg 0x0B 1 (leBytes 8 sent ++ leBytes 8 h.1))
    else
      let d := (t - sent - leNat ((m.data.drop 8).take 8)) / 2
      let l := s.link n
      (s.setLink n { l with delays := (d :: l.delays).take 8 }).setReg (Reg.SPN_LINK_DELAY n) d

/-- CREDIT (R620): freed credits come back, per virtual channel. -/
def Mdl.creditIn (s : Mdl) (n : Nat) (m : LMsg) : Mdl :=
  if !s.linkActive n then s
  else
    let w := leNat (m.data.take 8)
    let l := s.link n
    let s := s.setLink n { l with credits := (List.range 4).map fun v => l.credits.getD v 0 + bits w (16 * v) 16 }
    (s.releaseHeld n).tryBlocked

/-- LINK_ACK_CREDIT_TIMER (R618, R620): the pending ACK goes out, and freed credits go back. -/
def Mdl.ackTimer (s : Mdl) (n : Nat) : Mdl :=
  if !s.linkActive n then s
  else
    let l := s.link n
    let s := s.setLink n { l with ackDue := 0, freed := [0, 0, 0, 0] }
    let s := if l.ackDue ≠ 0 then s.emit (.flit n 0 ((l.recvSeq + 1023) % 1024)) else s
    if l.freed.any (· ≠ 0) then
      s.sendOn n (localMsg 0x09 0 (leBytes 8 ((List.range 4).foldl (fun a v => a + l.freed.getD v 0 % 65536 * 2 ^ (16 * v)) 0)))
    else s

/-- FLIT_HOLD_DISCARD (R631): the oldest message that a port forwards and has held for 10 ms without a credit goes. -/
def Mdl.holdDiscard (s : Mdl) (n : Nat) : Mdl :=
  let l := s.link n
  match l.held.find? fun h => h.msg.src != s.myModule && l.credits.getD h.vc 0 == 0 with
  | none => s
  | some h => (s.setLink n { l with held := l.held.filter (·.no != h.no) }).countSat (Reg.SPN_LINK_DISCARDED n)

/-! ### Serving requests (R623 to R626, R334, R346) -/

/-- The span account (R326, R331). -/
def spanAcct : Nat := 0xFFFF

def Mdl.isMaster (s : Mdl) : Bool := s.reg Reg.SPN_STATUS_ROLE_NOW == 2

/-- Does this module serve requests: its tier engine does, and the span master has admitted it, or it is the master (R624)? -/
def Mdl.serves (s : Mdl) : Bool := s.tierServing && (s.isMaster || s.spn.admitted)

/-- NOT_READY with this module's own estimate, a free value (R624). -/
def Mdl.notReady (s : Mdl) (m : LMsg) : Mdl := let r := s.fresh 16; r.2.respond m 1 r.1 []

/-- The address in the span account's range that an offset names, when it lies in the sender's window (R331, R334, R626). -/
def windowAddr (src addr n : Nat) : Option Nat :=
  if 2 ^ 48 ≤ addr ∧ addr + n ≤ 2 ^ 48 + 2 ^ 47 then
    let a := addr - 2 ^ 48
    if a / pageBytes / 16384 = src ∧ (a + n - 1) / pageBytes / 16384 = src then some a else none
  else none

def faultCode (f : PageFault) : Nat := match f with | .notMapped => 2 | .quota => 3 | .lost => 4 | .unreachable => 5

/-- A request waits for a page that moves or for a frame (R328, R347). -/
def Mdl.keepRequest (s : Mdl) (m : LMsg) : Mdl := { s with spn := { s.spn with kept := s.spn.kept ++ [m] } }

/-- Who serves the requests of other modules: the tier engine. -/
def spanReader : Accessor := .of .page

/-- An access of a request has its effect, waits for a far or moving page, or fails (R347). -/
def Mdl.serveAccess {α : Type} (s : Mdl) (m : LMsg) (acct : Nat) (done : α → Mdl) : Except AccessEnd α → Mdl
  | .ok x => done x
  | .error (.wait f) => match s.beginWait spanReader acct f with
    | some s => s.keepRequest m
    | none => s.respond m (faultCode .quota) 0 []
  | .error (.fault f _) => s.respond m (faultCode f) 0 []

/-- Does a request come behind one of its source that waits for a page? The destination performs requests from one source in the order of their
arrival (R635). -/
def Mdl.behindKept (s : Mdl) (m : LMsg) : Bool := s.spn.kept.any (·.src == m.src)

/-- Serve a request on the sender's window: `align` and `n` are its alignment and bytes, `act` its access. -/
def Mdl.serveAt (s : Mdl) (m : LMsg) (align n : Nat) (act : Mdl → Nat → Except AccessEnd (List Byte × Mdl)) : Mdl :=
  if !s.serves then s.notReady m
  else if s.behindKept m then s.keepRequest m
  else if m.addr % align ≠ 0 then s.respond m 7 0 []
  else match windowAddr m.src m.addr n with
    | none => s.respond m 2 0 []
    | some a => s.serveAccess m spanAcct (fun (r : List Byte × Mdl) => r.2.respond m 0 0 r.1) (act s a)

/-- READ64. -/
def Mdl.read64 (s : Mdl) (m : LMsg) : Mdl := s.serveAt m 64 64 fun s a => s.loadBytes spanReader spanAcct a 64

/-- WRITE64: the bytes its mask names. -/
def Mdl.write64 (s : Mdl) (m : LMsg) : Mdl :=
  s.serveAt m 64 64 fun s a =>
    let mask := leNat (m.data.take 8)
    let new := m.data.drop 8
    let old := s.memRead spanAcct a 64
    let l := (List.range 64).map fun i => if bit mask i then new.getD i 0 else old.getD i 0
    (s.storeBytes spanReader spanAcct a l).map fun s => ([], s)

/-- CADD: a compensated add at the holder (R320, R348). -/
def Mdl.cadd (s : Mdl) (m : LMsg) : Mdl :=
  s.serveAt m 8 8 fun s a => (s.pairAdd spanReader spanAcct a (leNat (m.data.take 4))).map fun s => ([], s)

/-- BULK: LENGTH bytes of the stream. -/
def Mdl.bulk (s : Mdl) (m : LMsg) : Mdl :=
  let len := bits (leNat (m.data.take 16)) 0 17
  if len = 0 ∨ 65536 < len ∨ m.stream.length < len then s.respond m 7 0 []
  else s.serveAt m 64 len fun s a => (s.storeBytes spanReader spanAcct a (m.stream.take len)).map fun s => ([], s)

/-- ACT (R367): a piece of an activation slot, or CLOSED when the IN end is not enabled. While the channel's group is mixed the piece is held
by answering so, and its sender sends it again at a later boundary (R168; assumption log entry 54). -/
def Mdl.actIn (s : Mdl) (m : LMsg) : Mdl :=
  let w := leNat (m.data.take 16)
  let n := bits w 0 6
  let slot := bits w 8 6
  let off := bits w 16 32
  let len := bits w 64 17
  if !s.serves then s.notReady m
  else if s.behindKept m then s.keepRequest m
  else if s.mixed (0x0A80 + n) then (s.beginHold (0x0A80 + n) (.arrival n slot)).respond m 6 0 []
  else if !(s.achOpen n && s.reg (Reg.TIR_ACH_CFG_DIR n) == 1 && s.reg (Reg.TIR_ACH_CFG_PEER_MODULE n) == m.src) then s.respond m 6 0 []
  else if len = 0 ∨ 65536 < len ∨ m.stream.length < len ∨ s.achSlotBytes n < off + len ∨ (s.ach n).slots.length ≤ slot then s.respond m 7 0 []
  else
    let a := s.reg (Reg.TIR_ACH_CFG_ACCOUNT n)
    let at_ := s.achSlotAddr n slot + off
    s.serveAccess m a (fun (s : Mdl) =>
      let r := s.pieceArrived n slot off
      (if r.2 then r.1.actArrived n slot else r.1).respond m 0 0 []) (s.storeBytes spanReader a at_ (m.stream.take len))

/-! ### The end of a request (R623, R637) -/

def dirField (m : LMsg) (o n : Nat) : Nat := leNat ((m.data.drop o).take n)

/-- A request of a job has completed (R637). -/
def Mdl.countCompleted (s : Mdl) (j : Nat) : Mdl :=
  match s.job j with
  | some x => s.setJob j (some { x with completed := x.completed + 1 })
  | none => s

/-- The page fault a response STATUS names (Table 13-7). -/
def responseFault (st : Nat) : PageFault := match st with | 3 => .quota | 4 => .lost | 5 => .unreachable | _ => .notMapped

/-- A write or an add of a macro-operation to a remote page has failed: the macro-operation ends, and its job takes the status (R233, R328). -/
def Mdl.failAccess (s : Mdl) (who : Reader) (j : Nat) (f : PageFault) : Mdl := match who with
  | .walk d c seq =>
    if (s.cluster d c).running.any (fun m => m.entry.seq == seq) then s.endRuns d c f.status 0 f.kind fun m => m.entry.seq == seq
    else s.failJob j f.status 0 f.kind
  | _ => s.failJob j f.status 0 f.kind

/-- The 64 bytes of a remote line have come, or the fault that the holder gives them (R347). -/
def Mdl.lineCame (s : Mdl) (who : Reader) (acct addr st : Nat) (m : Option LMsg) : Mdl :=
  let data := match m with
    | some m => m.data.take 64
    | none => []
  let s := if st = 0 then s.memWrite acct addr data else s
  if who = .page then s.pulled acct (addr / pageBytes) st
  else { s with spn := { s.spn with lines := s.spn.lines ++ [⟨who, memKey acct addr, if st = 0 then 0 else (responseFault st).kind⟩] } }

/-- A master answers again (R645): a module that it has not admitted goes on joining. -/
def Mdl.masterBack (s : Mdl) : Mdl :=
  if s.reg Reg.SPN_STATUS_STATE = 5 then s.setReg Reg.SPN_STATUS_STATE (if s.spn.admitted then 2 else 1) else s

/-- At admission a module unmaps every page of its span range (R643). -/
def Mdl.clearSpan (s : Mdl) : Mdl :=
  ((s.tir.map.filter fun k => k.1 / 2 ^ 26 == spanAcct).map (·.1)).foldl (fun (s : Mdl) k => s.unmapPage spanAcct (k % 2 ^ 26)) s

/-- What the end of a request with a STATUS means to what it served; `m` is the response, if one came; `ns` a mirror's round trip. -/
def Mdl.answered (s : Mdl) (r : SpanReq) (st : Nat) (m : Option LMsg) (ns : Nat) : Mdl :=
  match r.purpose with
  | .access j acct addr who =>
    let s := s.countCompleted j
    let f := responseFault st
    if st = 0 then s else (s.recordFault f acct addr).failAccess who j f
  | .line j acct addr who => (s.countCompleted j).lineCame who acct addr st m
  | .act n i => s.pieceAnswered n i st
  | .page acct p map =>
    if map then
      let k := leNat ((r.msg.data.drop 8).take 2)
      s.tierMapped acct p (s.myModule * 16384 + k) r.msg.dst (if st ≠ 0 then 4 else match m with | some m => dirField m 1 1 | none => 4)
    else s
  | .join =>
    match m with
    | some m =>
      if s.spn.admitted ∨ s.isMaster ∨ (s.reg Reg.SPN_STATUS_STATE ≠ 1 ∧ s.reg Reg.SPN_STATUS_STATE ≠ 5) then s
      else match dirField m 1 1 with
        | 0 =>
          let s := s.clearSpan.setReg Reg.SPN_STATUS_STATE 2
          { s with spn := { s.spn with admitted := true } }.tryBlocked
        | 1 => s.setReg Reg.SPN_STATUS_STATE 3
        | 2 => s.setReg Reg.SPN_STATUS_STATE 4
        | _ => s
    | none => s
  | .alive =>
    match m with
    | some m =>
      if s.isMaster then s
      else if dirField m 1 1 = 0 then s.masterBack
      else { s with spn := { s.spn with admitted := false } }.setReg Reg.SPN_STATUS_STATE 1
    | none => s
  | .sync => s
  | .partner =>
    match m with
    | some m => if dirField m 1 1 = 0 ∧ dirField m 10 1 = 2 ∧ s.twinState = 2 then s.enterSolo false else s
    | none => s
  | .mirror id => s.twackIn id (st == 0) ns
  | .ckpt => s
  | .resync u last => s.resyncAck u last (st == 0)
  | .bitmap => s
  | .ctrl op => match m with
    | some m => s.ctrlAnswered op m
    | none => s

/-- A request ends with a STATUS: its class's count falls, and what it served goes on. -/
def Mdl.endRequest (s : Mdl) (r : SpanReq) (st : Nat) (m : Option LMsg) (ns : Nat) : Mdl := (s.reqEnd r).answered r st m ns

/-! ### The directory (R638 to R645, Table 13-9) -/

/-- A DIRR: outcome in byte 1, a state in byte 10. -/
def Mdl.dirr (s : Mdl) (m : LMsg) (outcome state : Nat) : Mdl :=
  s.respond m 0 0 (leBytes 1 (dirField m 0 1) ++ leBytes 1 outcome ++ List.replicate 8 0 ++ leBytes 1 state ++ List.replicate 21 0)

def Mdl.dirEntry (s : Mdl) (m : Nat) : DirEntry := Table.get .absent s.spn.directory m

/-- Change a directory entry and show MEMBERS. -/
def Mdl.setDirEntry (s : Mdl) (m : Nat) (e : DirEntry) : Mdl :=
  let s : Mdl := { s with spn := { s.spn with directory := Table.set .absent s.spn.directory m e } }
  s.setReg Reg.SPN_STATUS_MEMBERS (s.spn.directory.filter fun p => p.2.state == 1).length

/-- The standby that keeps a copy, when the chart names one other than this module. -/
def Mdl.standby (s : Mdl) : Option Nat := if s.spanCfg.standby = s.myModule ∨ s.spanCfg.role = 0 then none else some s.spanCfg.standby

/-- The master changes an entry: DIR_SYNC to the standby and PEER_STATE to all. -/
def Mdl.publish (s : Mdl) (m state serial : Nat) : Mdl :=
  let s := s.setDirEntry m ⟨state, serial, s.epoch⟩
  let s := match s.standby with
    | some b => (s.sendDir b 0x05 m state s.epoch .sync).getD (s.unrouted b)
    | none => s
  s.broadcast 0x03 m state s.epoch

/-- A module is lost (R349, R642): channels break, requests to it end UNREACHABLE, those still held back without being sent; the loss is
recorded. -/
def Mdl.lossHere (s : Mdl) (m : Nat) : Mdl :=
  if m = s.myModule then s
  else
    let hit := fun (r : SpanReq) => r.msg.dst == m && decide (r.msg.type < 0x10)
    let s := (s.breakPeerChannels m).hierRecord ⟨.span, 0, 0, 0, 0⟩ 0x10 3
    let unsent := s.spn.blocked.filter hit
    let s : Mdl := { s with spn := { s.spn with blocked := s.spn.blocked.filter fun r => !hit r } }
    let s := unsent.foldl (fun (s : Mdl) r => s.answered r 5 none 0) s
    (s.spn.reqs.filter hit).foldl (fun (s : Mdl) r => s.endRequest r 5 none 0) s

/-- JOIN at the master (R641). An entry taken over from the old master holds no serial, which DIR_SYNC does not carry: any one fits it (DEDUCED,
assumption log entry 32). -/
def Mdl.join (s : Mdl) (m : LMsg) : Mdl :=
  if !s.isMaster then s.dirr m 4 0
  else
    let e := s.dirEntry m.src
    let serial := dirField m 8 8
    if e.state = 1 ∧ e.serial ≠ 0 ∧ e.serial ≠ serial then s.dirr m 1 0
    else if e.state ≠ 1 ∧ s.spanCfg.spanSize ≤ s.reg Reg.SPN_STATUS_MEMBERS then s.dirr m 2 0
    else (s.publish m.src 1 serial).dirr m 0 0

/-- ALIVE: a member's heartbeat, or the master's at the standby; a module the master does not count as a member is told to JOIN, by outcome
4 (R640, R643; the outcome DEDUCED, assumption log entry 32). -/
def Mdl.alive (s : Mdl) (m : LMsg) : Mdl :=
  if s.isMaster then s.dirr m (if (s.dirEntry m.src).state = 1 then 0 else 4) 0
  else if m.src = s.reg Reg.SPN_STATUS_MASTER then s.masterBack.dirr m 0 0
  else s.dirr m 4 0

/-- DIR_SYNC: the standby applies a change from its master (R639, R640). -/
def Mdl.dirSync (s : Mdl) (m : LMsg) : Mdl :=
  if m.src ≠ s.reg Reg.SPN_STATUS_MASTER then s.dirr m 4 0
  else
    let k := dirField m 8 2
    (s.setDirEntry k ⟨dirField m 10 1, (s.dirEntry k).serial, dirField m 12 6⟩).dirr m 0 0

/-- MAP_REQ at the holder (R346): a page of the sender's window is mapped under the span account's quotas, or unmapped. -/
def Mdl.mapReq (s : Mdl) (m : LMsg) : Mdl :=
  if !s.serves then s.notReady m
  else if s.behindKept m then s.keepRequest m
  else
    let k := dirField m 8 2
    if 16384 ≤ k then s.respond m 7 0 []
    else
      let p := m.src * 16384 + k
      if dirField m 10 1 = 1 then
        if (s.page spanAcct p).state ≠ .unmapped then s.dirr m 0 0
        else match s.mapHbm spanAcct p none with
          | .done s => s.dirr m 0 0
          | .wait s => s.keepRequest m
          | _ => s.dirr m 3 0
      else (s.unmapPage spanAcct p).dirr m 0 0

/-- PARTNER_QUERY at the master. -/
def Mdl.partnerQuery (s : Mdl) (m : LMsg) : Mdl :=
  if s.isMaster then s.dirr m 0 (s.dirEntry (dirField m 8 2)).state else s.dirr m 4 0

/-- A directory message to this module (R624, R640). -/
def Mdl.dirIn (s : Mdl) (m : LMsg) : Mdl :=
  if !s.serves then s.notReady m
  else match dirField m 0 1 with
  | 0x01 => s.join m
  | 0x02 => s.alive m
  | 0x05 => s.dirSync m
  | 0x10 => s.mapReq m
  | 0x11 => s.partnerQuery m
  | _ => s.respond m 7 0 []

/-- Requests that wait for pages are served again, in the order of their arrival (R347). -/
def Mdl.serveKept (s : Mdl) : Mdl :=
  s.spn.kept.foldl (fun (s : Mdl) m => match m.type with
    | 0x01 => s.read64 m
    | 0x02 => s.write64 m
    | 0x03 => s.cadd m
    | 0x04 => s.bulk m
    | 0x05 => s.actIn m
    | _ => s.mapReq m) { s with spn := { s.spn with kept := [] } }

/-- Is a broadcast number newer than the last one seen, modulo 256 (R640; the comparison DEDUCED, assumption log entry 32)? -/
def newer (seq seen : Nat) : Bool := let d := (seq + 256 - seen % 256) % 256; decide (1 ≤ d) && decide (d < 128)

/-- PEER_STATE (R642, R643): a member or a loss; the loss of this module's own membership makes it join again. -/
def Mdl.peerState (s : Mdl) (m : LMsg) : Mdl :=
  let k := dirField m 8 2
  let st := dirField m 10 1
  let old := (s.dirEntry k).state
  let s := s.setDirEntry k ⟨st, (s.dirEntry k).serial, dirField m 12 6⟩
  if st = 2 ∧ old ≠ 2 then s.lossHere k else s

/-- MASTER_CHANGE (R639, R644): a higher TERM names the new master; a former master becomes standby. -/
def Mdl.masterChange (s : Mdl) (m : LMsg) : Mdl :=
  let s := s.setRegs [(Reg.SPN_STATUS_TERM, dirField m 8 2), (Reg.SPN_STATUS_MASTER, dirField m 10 2)]
  let s := if s.isMaster ∧ dirField m 10 2 ≠ s.myModule then s.setReg Reg.SPN_STATUS_ROLE_NOW 3 else s
  let s := s.masterBack
  { s with spn := { s.spn with seenTerm := dirField m 8 2 } }

/-- A directory broadcast arrives on link `n` (R629, R639, R640): accepted and forwarded unchanged, or dropped. -/
def Mdl.broadcastIn (s : Mdl) (n : Nat) (m : LMsg) : Mdl :=
  let op := dirField m 0 1
  let seq := dirField m 31 1
  let accept := s.reg Reg.SPN_STATUS_ROLE_NOW != 0 && if op = 4 then decide (s.reg Reg.SPN_STATUS_TERM < dirField m 8 2)
    else op == 3 && m.src == s.reg Reg.SPN_STATUS_MASTER && m.src != s.myModule && newer seq s.spn.seenSeq
  if !accept then s
  else
    let s := if op = 4 then s.masterChange m else s.peerState m
    let s : Mdl := { s with spn := { s.spn with seenSeq := seq } }
    (s.fwdLinks (some n)).foldl (fun (s : Mdl) k => s.sendOn k m) s

/-- HEARTBEAT_SEND (R640): JOIN until answered, then ALIVE; the master's ALIVE goes to the standby; a HELD module asks for its
partner, and greets it (Table 13-11; that a HELD module learns of a SOLO partner by HELLO is DEDUCED, assumption log entry 25). -/
def Mdl.heartbeat (s : Mdl) : Mdl :=
  let st := s.reg Reg.SPN_STATUS_STATE
  let master := s.reg Reg.SPN_STATUS_MASTER
  let alive := fun (dst : Nat) =>
    (s.request dst 0 0x07 0 (leBytes 8 2 ++ leBytes 6 s.epoch ++ List.replicate 18 0) [] .alive).getD (s.unrouted dst)
  let s := if s.reg Reg.SPN_STATUS_ROLE_NOW = 0 then s
    else if s.isMaster then
      match s.standby with
      | some b => alive b
      | none => s
    else if st = 1 ∨ (st = 5 ∧ ¬ s.spn.admitted) then
      (s.request master 0 0x07 0 (leBytes 8 1 ++ leBytes 8 (s.svc.serial % 2 ^ 64) ++ List.replicate 16 0) [] .join).getD (s.unrouted master)
    else if st = 2 ∨ st = 5 then alive master
    else s
  if s.twinState = 2 then s.queryPartner.sendHello else s

/-- MEMBER_HEARTBEAT_MISS (R642): the master marks a member lost. -/
def Mdl.memberMiss (s : Mdl) (m : Nat) : Mdl :=
  let e := s.dirEntry m
  if s.isMaster ∧ e.state = 1 ∧ m ≠ s.myModule then (s.publish m 2 e.serial).lossHere m else s

/-- The standby takes over (R644). -/
def Mdl.takeOver (s : Mdl) : Mdl :=
  if s.reg Reg.SPN_STATUS_ROLE_NOW ≠ 3 then s
  else
    let term := s.reg Reg.SPN_STATUS_TERM + 1
    let s := s.setRegs [(Reg.SPN_STATUS_TERM, term), (Reg.SPN_STATUS_MASTER, s.myModule), (Reg.SPN_STATUS_ROLE_NOW, 2), (Reg.SPN_STATUS_STATE, 2)]
    let s : Mdl := { s with spn := { s.spn with seenTerm := term, admitted := true } }
    let s := s.setDirEntry s.myModule ⟨1, s.svc.serial % 2 ^ 64, s.epoch⟩
    s.broadcast 0x04 term s.myModule 0

/-- MASTER_HEARTBEAT_MISS (R644, R645): the standby takes over; a member that neither answers is without a master. -/
def Mdl.masterMiss (s : Mdl) : Mdl :=
  if s.reg Reg.SPN_STATUS_ROLE_NOW = 3 then s.takeOver
  else if s.reg Reg.SPN_STATUS_ROLE_NOW = 1 ∧ (s.reg Reg.SPN_STATUS_STATE = 1 ∨ s.reg Reg.SPN_STATUS_STATE = 2) then s.setReg Reg.SPN_STATUS_STATE 5
  else s

/-! ### Responses (R623 to R625) -/

/-- A response arrives (R623): a late one is discarded, NOT_READY waits for its retry, anything else ends the request. -/
def Mdl.responseIn (s : Mdl) (m : LMsg) (ns : Nat) : Mdl :=
  match s.spn.reqs.find? fun r => r.tag == m.tag && r.msg.dst == m.src && responseOf r.msg.type == m.type with
  | none => s
  | some r =>
    if m.status = 1 then
      { s with spn := { s.spn with reqs := s.spn.reqs.map fun q => if q.tag = r.tag then { q with retry := some (bits m.addr 0 16) } else q } }
    else s.endRequest r m.status (some m) ns

/-- NOT_READY_RETRY (R624): the request goes out again. -/
def Mdl.notReadyRetry (s : Mdl) (tag : Nat) : Mdl :=
  match s.spn.reqs.find? fun r => r.tag == tag && r.retry.isSome with
  | none => s
  | some r =>
    let s : Mdl := { s with spn := { s.spn with reqs := s.spn.reqs.map fun q => if q.tag = tag then { q with retry := none } else q } }
    let s := s.countSat (Reg.SPN_CLASS_NOT_READY (r.msg.tc % 8))
    if 0x10 ≤ r.msg.type then
      match s.twinLink with
      | some n => s.sendOn n r.msg
      | none => s
    else match s.routeTo r.msg.dst with
      | some n => s.sendOn n r.msg
      | none => (s.unrouted r.msg.dst).endRequest r 5 none 0

/-- SPAN_REQUEST_TIMEOUT (R624, R625): no response within SPN_TIMEOUT. -/
def Mdl.requestTimeout (s : Mdl) (tag : Nat) : Mdl :=
  match s.spn.reqs.find? fun r => r.tag == tag && decide (r.msg.type < 0x10) with
  | none => s
  | some r => (s.countSat (Reg.SPN_CLASS_TIMEOUTS (r.msg.tc % 8))).endRequest r 5 none 0

/-! ### Delivery (R622, R626 to R629) -/

/-- Data bytes of a request (Table 13-6). -/
def requestBytes (type : Nat) : Nat :=
  match type with
  | 0x02 => 72 | 0x03 => 8 | 0x04 => 16 | 0x05 => 16 | 0x07 => 32 | 0x10 => 16 | 0x11 => 64 | 0x12 => 16 | 0x13 => 16 | 0x14 => 8 | 0x15 => 32
  | _ => 0

/-- A message for this module, or a link-local one, or a directory broadcast; TRANSIT aside. A request whose data is not as long as Table 13-6
gives it is malformed, and refused (Table 13-7). -/
def Mdl.handle (s : Mdl) (n : Nat) (m : LMsg) (t ns : Nat) : Mdl :=
  if isRequest m.type ∧ m.data.length ≠ requestBytes m.type then s.respond m 7 0 []
  else match m.type with
  | 0x01 => s.read64 m
  | 0x02 => s.write64 m
  | 0x03 => s.cadd m
  | 0x04 => s.bulk m
  | 0x05 => s.actIn m
  | 0x07 => s.dirIn m
  | 0x08 => s.broadcastIn n m
  | 0x09 => s.creditIn n m
  | 0x0A => let w := leNat (m.data.take 8); s.actCredit (bits w 0 6) (bits w 8 6)
  | 0x0B => s.probe n m t
  | 0x10 | 0x11 => s.changeIn m
  | 0x12 => s.checkpointIn m
  | 0x13 => s.copyIn m
  | 0x14 => s.bitmapIn m
  | 0x15 => s.ctrlIn m
  | 0x81 | 0x82 | 0x84 | 0x85 | 0x87 | 0x90 | 0x95 => s.responseIn m ns
  | _ => s.countSat (Reg.SPN_LINK_DISCARDED n)

/-- A routed message for another module (R627, R628). -/
def Mdl.forward (s : Mdl) (n : Nat) (m : LMsg) : Mdl :=
  if 15 ≤ m.hops then
    if isRequest m.type then s.respond m 5 0 [] else s.countSat (Reg.SPN_LINK_DISCARDED n)
  else match s.routeTo m.dst with
    | some k => s.sendOn k { m with hops := m.hops + 1 }
    | none => let s := s.unrouted m.dst; if isRequest m.type then s.respond m 5 0 [] else s

/-- May a twin message be taken from this link (Table 13-6)? -/
def Mdl.twinFrom (s : Mdl) (n : Nat) (m : LMsg) : Bool :=
  decide (6 ≤ n) && (s.link n).twinOk && m.src == s.reg Reg.TWN_STATUS_PARTNER

/-- Is a message routed by its DST (R629)? -/
def routed (type : Nat) : Bool := !(type == 0x06 || type == 0x08 || type == 0x09 || type == 0x0B)

/-- A message arrives on link `n` at time `t`: served here, forwarded, or discarded; `ns` is the round trip of the mirror that a TWACK
answers (Table 13-27). -/
def Mdl.deliver (s : Mdl) (n : Nat) (m : LMsg) (t ns : Nat) : Mdl :=
  if !s.linkActive n then s
  else if vcOf m.type = 4 then s.countSat (Reg.SPN_LINK_DISCARDED n)
  else if (decide (0x10 ≤ m.type) && decide (m.type ≤ 0x15)) || m.type == 0x90 || m.type == 0x95 then
    if s.twinFrom n m then s.handle n m t ns else s.countSat (Reg.SPN_LINK_DISCARDED n)
  else if routed m.type && m.dst != s.myModule then s.forward n m
  else s.handle n m t ns

end Sys2Proof.Machine
end

