-- ==== Sys2Proof/Machine/Service.lean ====
section
/-! DEFINITION. Start-up, resets, the attention button and indicators, refurbishment, calibration, temperature, load switches
(R17 to R23, R54, R101, R558, R660 to R706). -/
namespace Sys2Proof.Machine

/-! ### The start-up timeline (R23, R660 to R664, R667) -/

/-- The module runs: its timeline has begun, and neither power nor thermal step 5 has stopped it (R19, R660, R692). -/
def Mdl.powered (s : Mdl) : Bool := s.svc.started && !s.svc.thermalOff

/-- What a running module does; one without power does nothing (DESIGN CHOICE, assumption log entry 33). -/
def Mdl.whenOn (s : Mdl) (f : Mdl → Mdl) : Mdl := if s.powered then f s else s

/-- SVC_UPTIME shows the milliseconds since P54 came within range as of a command that carries the time. -/
def Mdl.atMs (s : Mdl) (ms : Nat) : Mdl := (s.sourceTime (4000000 * ms)).setReg Reg.SVC_UPTIME_MS (max ms (s.reg Reg.SVC_UPTIME_MS))

/-- Record a milestone: the time since P54, at most what the field holds. -/
def Mdl.milestone (s : Mdl) (f : Fld) : Mdl := s.setReg f (min 65535 (s.reg Reg.SVC_UPTIME_MS))

/-- The keys of the registers a warm reset returns to their reset values (Table 14-3): SEQ_, EYE_, SQT_, SCH_, CAT_, TIR_CMD to
TIR_CMD_STATUS and TIR_ACH_, but for the RWS fields, all of them in SCH_CTRL, SCH_CLASS and SCH_SHARE. -/
def warmReset (key : Nat) : Bool :=
  let a := key / 1024
  let group := decide (0x100000 ≤ a) || decide (0x40000 ≤ a ∧ a < 0x90000) || decide (0xd0000 ≤ a ∧ a < 0xd0020)
    || decide (0xd2000 ≤ a ∧ a < 0xd3000)
  let keeps := decide (a = 0x70000) || decide (0x70100 ≤ a ∧ a < 0x70140) || decide (0x71000 ≤ a ∧ a < 0x72000)
  group && !keeps

/-- Registers of the compute dies show the units again after a reset of their values. -/
def Mdl.showCompute (s : Mdl) : Mdl :=
  let s := s.logDies.foldl (fun (s : Mdl) d => (List.range 26).foldl (fun (s : Mdl) c => (List.range 9).foldl (fun (s : Mdl) k =>
    if (s.svc.retiredLanes d c k).isEmpty then s else s.showLanes d c k) s) s) s
  let s := s.showAllPersonalities
  let s := (List.range 4).foldl (fun (s : Mdl) d => s.showCores d) s
  s.showAllSeq

/-- A command whose effect stays in the module when its host is reset: storage commands already fetched (R666). -/
def storageOp (o : HostOp) : Bool := match o with
  | .execute _ _ _ => false
  | _ => true

/-- WARM_RESET once the module is ready: the whole reset is one step (R665, R666; assumption log entry 16). Operations of serving groups and
channels that legacy groups hold end with them; those of model slots stay held (R7, R168). -/
def Mdl.warmNow (s : Mdl) : Mdl :=
  let jobs := s.jobList.filterMap fun j => j.2.cid
  let s := jobs.foldl (fun (s : Mdl) c => s.unlock c.1 c.2) s
  let s : Mdl := { s with host := { s.host with
    ctls := s.host.ctls.filterMap fun c =>
      let x : Ctl := { c.2 with enabled := false, ready := false, shut := false }
      if x = .init then none else some (c.1, x)
    fetched := (s.host.fetched.filter fun f => storageOp f.cmd.op).map fun f => { f with discard := true }
    window := [], spdm := .idle, session := none, handshake := none } }
  let s : Mdl := { s with
    regs := s.regs.filter fun p => !warmReset p.1
    cores := (s.cores.map fun p => (p.1, { CoreSt.init with waiting := p.2.waiting, segment := p.2.segment })).filter fun p => p.2 != .init
    clusters := (s.clusters.map fun p => (p.1, { ClusterSt.init with held := p.2.held, hwFault := p.2.hwFault })).filter fun p => p.2 != .init
    sch := .init
    cats := []
    tir := { s.tir with cmd := none, channels := [] }
    cht := { s.cht with
      staged := s.cht.staged.filter fun x => !warmReset x.fld.key, holds := s.cht.holds.filter fun h => decide (0xA00 ≤ h.group ∧ h.group < 0xA80) }
    svc := { s.svc with warmDeferred := false, reported := false, nonce := none, sram := s.free + 1 }
    free := s.free + 1 }
  let s := s.setRegs [(Reg.SVC_STATUS_DEBUG, 0),
    (Reg.SVC_STATUS_STAGE, if s.stage = 5 then 5 else if s.flag Reg.SVC_REFURB_ACTIVE then 6 else 2)]
  (s.showCompute).showHold.proceed

/-- The module reports ready once its gate opens (R23, R570, Table 14-2); a warm reset that waited for that takes place (R667). -/
def Mdl.tryReady (s : Mdl) : Mdl :=
  if ¬ s.svc.started ∨ 1 < s.stage ∨ ¬ s.canReady then s
  else
    let s := (s.setReg Reg.SVC_STATUS_STAGE 2).milestone Reg.SVC_MILESTONE_READY_MS
    let s : Mdl := { s with
      host := { s.host with ctls := s.host.ctls.map fun c => if c.2.enabled then (c.1, { c.2 with ready := true }) else c }
      svc := { s.svc with reported := s.host.ctls.any fun c => c.2.enabled } }
    if s.svc.warmDeferred then s.warmNow else s

/-- WARM_RESET (R665 to R667): before the module is first ready it is deferred. -/
def Mdl.warmReset (s : Mdl) : Mdl :=
  if s.stage < 2 then { s with svc := { s.svc with warmDeferred := true } } else s.warmNow

/-- Every die ends what it does as the power-loss sequence has it: an erase is abandoned, a program finishes (Table 10-3). -/
def Mdl.settleDies (s : Mdl) : Mdl :=
  s.med.dies.foldl (fun (s : Mdl) p => match p.2 with
    | .programming _ _ => s.programEnd (p.1 / 128) (p.1 % 128) true
    | _ => s.setDie (p.1 / 128) (p.1 % 128) .idle) s

/-- The roles of the slots as a later start finds them. -/
def Mdl.saveRoles (s : Mdl) : Mdl :=
  { s with svc := { s.svc with roles := (List.range 9).map fun i => s.reg (Reg.MED_SLOT_STATUS_ROLE i) } }

/-- The hold-up energy as measured, in 10 mJ units: below 16 J the module writes through (R21). -/
def Mdl.holdup (s : Mdl) (energy : Nat) : Mdl :=
  let was := s.flag Reg.PWR_HOLDUP_LOW
  let low := decide (energy < 1600)
  let s := s.setRegs [(Reg.PWR_HOLDUP_ENERGY, energy), (Reg.PWR_HOLDUP_LOW, b2n low)]
  if was = low then s else s.logBook 0x03 (energy % 2 ^ 16 + b2n low * 2 ^ 16)

/-- A cold reset takes away everything but the configuration store, the identity memories, flash contents and the journal
(Table 14-3, R329, R572, R585, R604, R712). -/
def Mdl.coldClear (s : Mdl) : Mdl :=
  let s := match s.cht.op with
    | some (.erase b _) => s.breakBank b
    | some (.program b _ _) => s.breakBank b
    | _ => s
  let s := s.settleDies
  let v := s.svc
  { s with
    regs := s.regs.filter fun p => p.1 == Reg.CHT_BANK_STATE_STATE_A.key || p.1 == Reg.CHT_BANK_STATE_STATE_B.key
    svc := { SvcSt.init with
      p54 := v.p54, started := true, charged := v.charged, lossPending := v.lossPending, lossUsed := v.lossUsed, thermalRec := v.thermalRec
      retired := v.retired, logBook := v.logBook, logTotal := v.logTotal, logDropped := v.logDropped, totals := v.totals, serial := v.serial
      stepCompute := v.stepCompute, stepHub := v.stepHub, lastBay := v.lastBay, cartIds := v.cartIds, roles := v.roles
      cal := v.calPending.getD v.cal, sensors := v.sensors, poh := v.poh, energy24h := v.energy24h, vendorKey := v.vendorKey
      dieSteps := v.dieSteps, madeOn := v.madeOn, broughtIn := v.broughtIn, bay := v.bay
      sram := s.free + 1 }
    free := s.free + 1
    trn := .init
    eph := .init
    cht := { ChartSt.init with bankA := s.cht.bankA, bankB := s.cht.bankB, ring0 := s.cht.ring0, ring1 := s.cht.ring1 }
    cores := [], clusters := [], tir := .init, mem := [], sch := .init, cats := []
    med := { FlashSt.init with blocks := s.med.blocks, programSeq := s.med.programSeq, hbmRetired := s.med.hbmRetired }
    host := { HostSt.init with ns := s.host.ns.filter fun n => match n.2 with | some x => x.kind != .memory | none => false }
    spn := .init
    twn := { TwinSt.init with journaled := s.twn.journaled, journaledGen := s.twn.journaledGen, dirty := s.twn.dirty } }

/-- The bay identity is read (R677, R678): a bay other than the last start's sets MOVED. -/
def Mdl.readBay (s : Mdl) (b : BayId) : Mdl :=
  let moved := match s.svc.lastBay with
    | some o => b.valid && (decide (o.serial ≠ b.serial) || decide (o.bay ≠ b.bay))
    | none => false
  let s := s.setRegs [(Reg.IDN_BAY_BAY, b.bay), (Reg.IDN_BAY_TWIN_BAY, b.twinBay), (Reg.IDN_BAY_MODULE_HINT, b.hint), (Reg.IDN_BAY_VALID, b2n b.valid),
    (Reg.IDN_BAY_MOVED, b2n moved)]
  let s := if moved then s.logBook 0x04 (b.serial / 2 ^ 64 % 2 ^ 64 + b.bay * 2 ^ 64) else s
  { s with svc := { s.svc with bay := some b, lastBay := if b.valid then some b else s.svc.lastBay } }

/-- The rate to which the host port trains, by Table 12-1, PCIE_MAX_RATE and CLOCKING (R561): SRIS ignores the reference clock, common clocking
needs it. A PCIE_MAX_RATE above 3 acts as 3 (DESIGN CHOICE, assumption log entry 58). -/
def Mdl.trainedRate (s : Mdl) (refclk : Bool) : Nat :=
  let opt := s.cht.opt
  let highest := if opt.personality = 2 then 64 else 128
  if opt.clocking = 1 || refclk then min highest (128 / 2 ^ min 3 opt.pcieMaxRate) else 0

/-- The port trains with the option record of the reset just past (R560, R561). -/
def Mdl.trainPort (s : Mdl) (refclk : Bool) : Mdl := { s with host := { s.host with refclk := refclk, portRate := s.trainedRate refclk } }

/-- The start that follows a cold reset, as far as no later command of the timeline does it (R54, R138, R151, R496, R507, R660, R678): `cause` as
in a POWER_ON record, `t` the time at which epoch 0 begins. Domains 24 to 29 and the network domains of the dies present are on for training until a chart says otherwise (DEDUCED, assumption
log entry 34). -/
def Mdl.coldStart (s : Mdl) (cause t : Nat) (bay : BayId) (present : Nat) (refclk : Bool) : Mdl :=
  let s := s.coldClear
  let s : Mdl := { s with trn := { s.trn with start := t } }
  let domains := maskOf ([24, 25, 26, 27, 28, 29] ++ ((List.range 4).filter (bit present)).map fun d => 6 * d + 5)
  let s := s.setRegs [(Reg.PWR_DOMAIN_STATUS_ON, domains), (Reg.SVC_DIE_MAP_DIE_PRESENT, present), (Reg.IDN_STEPPING_COMPUTE, s.svc.stepCompute),
    (Reg.IDN_STEPPING_HUB, s.svc.stepHub), (Reg.CAL_ORIGIN_ORIGIN, s.svc.cal.origin),
    (Reg.CAL_STATUS_OVERWRITES, Table.get 0 s.svc.totals Total.calibrations.index), (Reg.TWN_PAIR_GEN_GEN, s.twn.journaledGen)]
  let s := (List.range 9).foldl (fun (s : Mdl) i =>
    let here := (Table.get none s.svc.cartIds i).isSome
    let role := s.svc.roles.getD i 0
    s.setRegs [(Reg.MED_SLOT_STATUS_PRESENT i, b2n here), (Reg.MED_SLOT_STATUS_ROLE i, role),
      (Reg.MED_SLOT_STATUS_POWERED i, b2n (here && (role == 1 || role == 2)))]) s
  let s := (s.loadOption).trainPort refclk
  let s := if s.svc.lossPending then (s.logBook 0x02 (s.svc.lossUsed % 2 ^ 32)).total .powerLosses else s
  let s := match s.svc.thermalRec with
    | some x => s.logBook 0x11 x
    | none => s
  let s : Mdl := { s with svc := { s.svc with thermalRec := none } }
  let s := (s.logBook 0x01 ((if cause = 0 ∧ s.svc.lossPending then 2 else cause) + b2n (s.flag Reg.SVC_STATUS_OPT_FACTORY) * 4)).total .coldResets
  let s := s.readBay bay
  let key := s.fresh 256
  let s : Mdl := { key.2 with tir := { key.2.tir with spillKey := key.1 } }
  let s := s.sourceTime t
  (s.packageRepair).startupLoad

/-- MODULE_INSERT: the module meets a powered bay (R22, R26, R54): the always-on domains start, the hold-up bank charges. -/
def Mdl.moduleInsert (s : Mdl) : Mdl :=
  if s.svc.p54 then s
  else { s with svc := { s.svc with p54 := true, charged := false, bay := none } }.setReg Reg.PWR_DOMAIN_STATUS_ON (2 ^ 28 + 2 ^ 29)

/-- POWER_UP: P54 has come within range after being absent for `absentMs` (R660, R692); `energy` is R21's measurement,
`refclk` whether the host gives a reference clock. -/
def Mdl.powerUp (s : Mdl) (absentMs energy : Nat) (bay : BayId) (present : Nat) (refclk : Bool) : Mdl :=
  if s.svc.started then s
  else if s.svc.thermalOff ∧ absentMs < 1000 then { s with svc := { s.svc with p54 := true } }.setReg Reg.PWR_DOMAIN_STATUS_ON (2 ^ 28 + 2 ^ 29)
  else
    let s : Mdl := { s with svc := { s.svc with thermalOff := false, charged := s.svc.charged && s.svc.p54, p54 := true } }
    (s.coldStart 0 0 bay present refclk).holdup energy

/-- COLD_RESET: SVC_RESET with KIND 2 (R665): every field takes its reset value (R7), the uptime and the hold-up measurement among them. -/
def Mdl.coldReset (s : Mdl) (t : Nat) (bay : BayId) (present : Nat) : Mdl := s.saveRoles.coldStart 1 t bay present s.host.refclk

/-- HOLDUP_CHARGED (R22, R23). -/
def Mdl.holdupCharged (s : Mdl) (ms : Nat) : Mdl :=
  if !s.svc.p54 then s else ({ s with svc := { s.svc with charged := true } }.atMs ms).tryReady

/-- HOLDUP_MEASURE: every 24 hours of power-on time, with the ENERGY record (R21, R680); `wh` is the input energy of the 24 hours. -/
def Mdl.holdupMeasure (s : Mdl) (energy wh : Nat) : Mdl :=
  let s := (s.total .pohHours 24).total .energyWh wh
  let life := Table.get 0 s.svc.totals Total.energyWh.index
  let s : Mdl := { s with svc := { s.svc with poh := s.svc.poh + 24, energy24h := wh } }
  (s.holdup energy).logBook 0x0D (wh % 2 ^ 32 + life / 1000 % 2 ^ 32 * 2 ^ 32)

/-- Was the module shut down cleanly: some controller was shut down, and every enabled one is? -/
def Mdl.cleanShutdown (s : Mdl) : Bool :=
  (s.host.ctls.any fun c => c.2.shut) && s.host.ctls.all fun c => !c.2.enabled || c.2.shut

/-- The power-loss sequence (R20, R101, R476, R558, R663): before map restore has ended nothing has to be written. -/
def Mdl.powerLoss (s : Mdl) (used : Nat) : Mdl :=
  let s := if s.svc.mapRestored then
      let s := s.settleDies
      { s with ftl := { s.ftl with dumped := true } }
    else s
  let lost := s.svc.lossPending || (s.svc.mapRestored && !s.cleanShutdown)
  let s : Mdl := { s.saveRoles with svc := { s.saveRoles.svc with lossPending := lost, lossUsed := used, started := false } }
  s.setReg Reg.SVC_STATUS_STAGE 4

/-- INPUT_OUT_OF_RANGE (R19): the input is disconnected; domain 29 runs on from AUX_3V3 (R54). -/
def Mdl.inputOut (s : Mdl) (used : Nat) : Mdl :=
  if !s.svc.p54 then s
  else
    let s := if s.powered then s.powerLoss used else s
    { s with svc := { s.svc with p54 := false, charged := false, started := false } }.setReg Reg.PWR_DOMAIN_STATUS_ON (2 ^ 29)

/-- MAP_RESTORE at the timeline's place (R559, R661, R663). -/
def Mdl.restoreMap (s : Mdl) (ms : Nat) : Mdl :=
  if s.svc.mapRestored then s
  else
    let s := (s.atMs ms).mapRestore s.svc.lossPending
    let s : Mdl := { s with svc := { s.svc with mapRestored := true, lossPending := false } }
    ((s.milestone Reg.SVC_MILESTONE_RESTORE_MS).showDirty).tryReady

/-- POWER_ON_SELF_TEST ends (R219, R660, R664): faulty units are retired before they carry work, and the twin links' gate opens (R662). -/
def Mdl.powerOnTest (s : Mdl) (ms : Nat) (bad : List PostFault) : Mdl :=
  if s.svc.selfTested then s
  else
    let s := bad.foldl (fun (s : Mdl) f => match f with
      | .lane d c k l => (s.laneFault d c k l 1 false).mapLanes d c k
      | .hbm d => s.dieFault d 9 []
      | .limuc n l => s.laneRetired n l) (s.atMs ms)
    let s : Mdl := { s with svc := { s.svc with selfTested := true } }
    (s.milestone Reg.SVC_MILESTONE_SELFTEST_MS).openTwinGate

/-! ### The attention button and indicators (R668 to R670) -/

/-- ATTN_PRESS_RELEASE after a press of `ms` milliseconds (R668). -/
def Mdl.attnRelease (s : Mdl) (ms : Nat) : Mdl :=
  if ms < 2000 then s.setReg Reg.SVC_CTRL_LOCATE (1 - s.reg Reg.SVC_CTRL_LOCATE) else s

/-- ATTN_HOLD_5S (R669). -/
def Mdl.attnHold (s : Mdl) : Mdl :=
  let s := s.setReg Reg.SVC_STATUS_WITHDRAW 1
  if s.twinState = 4 then s.twinDetach
  else if s.twinState = 0 ∨ s.twinState = 6 then ({ s with svc := { s.svc with safeToRemove := true } }).emit .safeToRemove
  else s

/-- What an indicator shows. -/
inductive Led where
  | off | on | oneHz | twoHz | twoHzAlternating | fourHz
  deriving DecidableEq, Repr

/-- LOCATE_LED of the LOCATE and Normal rows. -/
def Mdl.locateLed (s : Mdl) : Led := if s.flag Reg.SVC_CTRL_LOCATE then .on else .off

/-- The bay LED drives, FAULT_LED and LOCATE_LED (Table 14-4). -/
def Mdl.leds (s : Mdl) : Led × Led :=
  if s.stage = 5 then (.on, .off)
  else if s.svc.safeToRemove then (.off, .fourHz)
  else if s.stage < 2 then (.twoHzAlternating, .twoHz)
  else if (List.range 4).any s.svc.retiredDie || !s.ftl.lostSlots.isEmpty || s.readOnly || s.flag Reg.PWR_HOLDUP_LOW
      || decide (3 ≤ s.reg Reg.PWR_THERMAL_STEP) then (.oneHz, s.locateLed)
  else (.off, s.locateLed)

/-- The amber lamp of a slot (R670). -/
def Mdl.lamp (s : Mdl) (slot : Nat) : Bool := s.flag (Reg.MED_SLOT_STATUS_PRESENT slot) && !s.flag (Reg.MED_SLOT_STATUS_POWERED slot)

/-! ### Refurbishment (R704 to R706) -/

def Mdl.refurbErr (s : Mdl) (e : Nat) : Mdl := s.setReg Reg.SVC_REFURB_ERR e

/-- REFURB_BEGIN (R704); the module is in it already: out of order. -/
def Mdl.refurbBegin (s : Mdl) : Mdl :=
  if s.flag Reg.SVC_REFURB_ACTIVE then s.refurbErr 3
  else if s.cht.opt.ownerState ≠ 0 ∨ ¬ (s.twinState = 0 ∨ s.twinState = 6) ∨ ¬ s.jobList.isEmpty ∨ (s.cats.any fun c => c.2.state != .detached) then s.refurbErr 1
  else
    let s : Mdl := { s with svc := { s.svc with retestStill := none } }
    (s.logBook 0x12 1).setRegs [(Reg.SVC_REFURB_ACTIVE, 1), (Reg.SVC_REFURB_ERR, 0), (Reg.SVC_REFURB_CLEARED, 0), (Reg.SVC_STATUS_STAGE, 6)]

/-- RETEST begins (R705); it powers the retired dies itself (R43). -/
def Mdl.retest (s : Mdl) : Mdl :=
  if !s.flag Reg.SVC_REFURB_ACTIVE then s.refurbErr 2
  else if s.flag Reg.SVC_REFURB_BUSY then s.refurbErr 3
  else
    let s := ((List.range 4).filter s.svc.retiredDie).foldl (fun s d => (List.range 6).foldl (fun s i => s.setDomain (6 * d + i) true) s) s
    s.setRegs [(Reg.SVC_REFURB_BUSY, 1), (Reg.SVC_REFURB_ERR, 0)]

/-- RETEST ends (R705): `bad` are the retired units with a mismatch; all others leave the list, with the bring-ins they called for. -/
def Mdl.retestDone (s : Mdl) (bad : List UnitAddr) : Mdl :=
  if !s.flag Reg.SVC_REFURB_BUSY then s
  else
    let still := s.svc.retired.filter fun u => bad.contains u
    let cleared := s.svc.retired.length - still.length
    let s := (s.logBook 0x12 (2 + cleared % 2 ^ 16 * 2 ^ 2 + still.length % 2 ^ 16 * 2 ^ 18))
    let gone := fun (u : UnitAddr) => !still.any fun r => r.level == u.level && r.die == u.die && (r.level == .cluster || (r.cluster == u.cluster
      && (r.level == .core || r.core == u.core)))
    let s : Mdl := { s with svc := { s.svc with
      retired := still, retestStill := some still.length, broughtIn := s.svc.broughtIn.filter fun u => !gone u } }
    let s := ((List.range 4).filter s.svc.retiredDie).foldl (fun s d => (List.range 6).foldl (fun s i => s.setDomain (6 * d + i) false) s) s
    s.setRegs [(Reg.SVC_REFURB_BUSY, 0), (Reg.SVC_REFURB_CLEARED, cleared)]

/-- REFURB_END (R706): after a RETEST that has ended (DEDUCED, assumption log entry 35). -/
def Mdl.refurbEnd (s : Mdl) : Mdl :=
  if !s.flag Reg.SVC_REFURB_ACTIVE then s.refurbErr 2
  else match s.svc.retestStill with
    | none => s.refurbErr 3
    | some still =>
      if s.flag Reg.SVC_REFURB_BUSY then s.refurbErr 3
      else ((s.logBook 0x12 (3 + s.reg Reg.SVC_REFURB_CLEARED * 2 ^ 2 + still % 2 ^ 16 * 2 ^ 18)).total .refurbishments).refurbErr 0

/-! ### Calibration (R681 to R685) -/

def le16 (v : Int) : List Byte := leBytes 2 (v % 65536).toNat

/-- The first `n` entries of a list, padded with a default. -/
def padTo {α : Type} (d : α) (n : Nat) (l : List α) : List α := (List.range n).map fun i => l.getD i d

/-- The 4 KiB of a calibration set (Table 14-11). -/
def CalSet.bytes (c : CalSet) : List Byte :=
  let head := leBytes 4 0x41435847 ++ leBytes 4 c.origin ++ leBytes 16 c.serial ++ leBytes 8 0
    ++ (padTo 0 128 c.sensorOffset).flatMap le16 ++ (padTo 0 32 c.pmGain).flatMap (leBytes 2) ++ le16 c.transitDelay ++ leBytes 158 0
    ++ (padTo 0 72 c.limucPreset).flatMap (leBytes 1) ++ (padTo 0 16 c.pciePreset).flatMap (leBytes 1) ++ leBytes 3240 0
  let body := head ++ leBytes 96 c.factorySig ++ leBytes 156 0
  body ++ leBytes 4 (crc32 body)

/-- Read a calibration set from its bytes. -/
def CalSet.read (l : List Byte) : CalSet :=
  let f := fun (o n : Nat) => leNat ((l.drop o).take n)
  let sg := fun (o : Nat) => let v := f o 2; if v < 32768 then (v : Int) else (v : Int) - 65536
  { origin := f 4 4, serial := f 8 16, sensorOffset := (List.range 128).map fun i => sg (0x20 + 2 * i)
    pmGain := (List.range 32).map fun i => f (0x120 + 2 * i) 2, transitDelay := sg 0x160
    limucPreset := (List.range 72).map fun i => f (0x200 + i) 1, pciePreset := (List.range 16).map fun i => f (0x248 + i) 1
    factorySig := f 0xF00 96 }

/-- Why a calibration set is refused (R683, CAL_STATUS.ERR); 0 for none. In range: ORIGIN 0 or 1 and every reserved byte zero (DEDUCED,
assumption log entry 36). -/
def Mdl.calErr (s : Mdl) (l : List Byte) : Nat :=
  let f := fun (o n : Nat) => leNat ((l.drop o).take n)
  if l.length ≠ 4096 ∨ f 0 4 ≠ 0x41435847 ∨ f 0xFFC 4 ≠ crc32 (l.take 0xFFC) then 1
  else if f 8 16 ≠ s.svc.serial then 2
  else if 1 < f 4 4 ∨ f 0x18 8 ≠ 0 ∨ f 0x162 158 ≠ 0 ∨ f 0x258 3240 ≠ 0 ∨ f 0xF60 156 ≠ 0 then 3
  else if f 4 4 = 0 ∧ ¬ s.verifies s.svc.vendorKey (l.take 0xF00) (f 0xF00 96) then 4
  else 0

def Mdl.calEnd (s : Mdl) (e : Nat) : Mdl := s.setRegs [(Reg.CAL_STATUS_DONE, 1), (Reg.CAL_STATUS_ERR, e)]

/-- The set as stored. -/
def SvcSt.calStored (v : SvcSt) : CalSet := v.calPending.getD v.cal

/-- EXPORT (R682). -/
def Mdl.calExport (s : Mdl) (dmaOk : Bool) : Mdl :=
  if !dmaOk then s.calEnd 6 else (s.emit (.dma (s.reg Reg.CAL_DMA_ADDR_ADDR) s.svc.calStored.bytes)).calEnd 0

/-- CALIBRATION_WRITE (R683 to R685): sensor offsets and gains wait for the next boundary. -/
def Mdl.calWrite (s : Mdl) (l : List Byte) (dmaOk flashOk : Bool) : Mdl :=
  if s.flag Reg.SVC_LOCK_LOCK then s.calEnd 5
  else if !dmaOk then s.calEnd 6
  else
    let e := s.calErr l
    if e ≠ 0 then s.calEnd e
    else if !flashOk then s.calEnd 7
    else
      let was := s.svc.cal
      let c0 := CalSet.read l
      let c : CalSet := if c0.origin = 1 then { c0 with factorySig := 0 } else c0
      let s := (s.logBook 0x0E (c.origin + was.origin * 2 + crc32 ((c.bytes).take 0xFFC) * 2 ^ 32)).total .calibrations
      let s : Mdl := { s with svc := { s.svc with
        cal := { c with sensorOffset := was.sensorOffset, pmGain := was.pmGain }, calPending := some c } }
      (s.setRegs [(Reg.CAL_ORIGIN_ORIGIN, c.origin), (Reg.CAL_STATUS_OVERWRITES, Table.get 0 s.svc.totals Total.calibrations.index)]).calEnd 0

/-- The parts of an accepted set that wait for a boundary take effect (R685). -/
def Mdl.calBoundary (s : Mdl) : Mdl := match s.svc.calPending with
  | some c => { s with svc := { s.svc with cal := c, calPending := none } }
  | none => s

/-! ### Temperature and power (R689 to R693) -/

/-- 1/64 degrees of a whole number of degrees. -/
def deg (n : Nat) : Nat := 64 * n

/-- The conditions of a step in Table 14-12, as (sensor, inlet, flow, power cap), with the entry values eased by `t` degrees, `f` mL/min and `p` per
cent of the cap. -/
def Climate.holds (m : Climate) (cap step t f p : Nat) : Bool × Bool × Bool × Bool :=
  let hot := fun (n : Nat) => decide (deg (n - t) + (if t = 0 then 0 else 1) ≤ m.hottest)
  let inl := fun (n : Nat) => decide (deg (n - t) < m.inlet)
  let flo := fun (n : Nat) => decide (m.flow < n + f)
  match step with
  | 1 => (hot 85, inl 40, flo 2000, decide (cap * (100 - p) < 100 * m.watts))
  | 2 => (hot 90, inl 43, false, false)
  | 3 => (hot 95, inl 46, flo 1400, false)
  | 4 => (hot 100, false, flo 1000, false)
  | 5 => (hot 105, false, false, false)
  | _ => (false, false, false, false)

def Climate.any (q : Bool × Bool × Bool × Bool) : Bool := q.1 || q.2.1 || q.2.2.1 || q.2.2.2

/-- The step that measurements enter (Table 14-12). -/
def Climate.step (m : Climate) (cap : Nat) : Nat := ((List.range 6).filter fun n => Climate.any (m.holds cap n 0 0 0)).getLastD 0

/-- CAUSE bits 0 to 3 of the conditions that hold at step 1 and above; bit 4 stays as cartridge holds set it. -/
def Climate.cause (m : Climate) (cap : Nat) : Nat :=
  let q := (List.range 6).map fun n => m.holds cap n 0 0 0
  b2n (q.any (·.1)) + 2 * b2n (q.any (·.2.1)) + 4 * b2n (q.any (·.2.2.1)) + 8 * b2n (q.any (·.2.2.2))

/-- Show what was measured. -/
def Mdl.showClimate (s : Mdl) (m : Climate) : Mdl :=
  let s : Mdl := { s with svc := { s.svc with sensors := Table.set 0 (Table.set 0 s.svc.sensors m.sensor m.hottest) 149 m.inlet } }
  let m : Climate := { m with hottest := s.calibrated m.sensor m.hottest }
  let cause := m.cause (s.reg Reg.PWR_CAP_CAP_W) + 16 * b2n (!s.svc.cartHold.isEmpty)
  s.setRegs [(Reg.PWR_THERMAL_CAUSE, cause), (Reg.PWR_THERMAL_HOTTEST, m.hottest), (Reg.PWR_THERMAL_INLET, m.inlet), (Reg.PWR_THERMAL_FLOW, m.flow),
    (Reg.PWR_INPUT_VOLTS, m.volts), (Reg.PWR_INPUT_WATTS, m.watts), (Reg.PWR_INPUT_PEAK, max m.watts (s.reg Reg.PWR_INPUT_PEAK))]

/-- DATA of a THERMAL record. -/
def thermalData (step : Nat) (m : Climate) : Nat := step + m.sensor % 256 * 2 ^ 3 + m.hottest % 2 ^ 16 * 2 ^ 11

/-- THERMAL_STEP_RISE (R689, R690, R692): at step 5 the power-loss sequence runs and the rails go off. `used` is its hold-up energy. -/
def Mdl.thermalRise (s : Mdl) (m : Climate) (used : Nat) : Mdl :=
  let s := s.showClimate m
  let m : Climate := { m with hottest := s.calibrated m.sensor m.hottest }
  let n := m.step (s.reg Reg.PWR_CAP_CAP_W)
  if n ≤ s.reg Reg.PWR_THERMAL_STEP then s
  else if n = 5 then
    let s := (s.setReg Reg.PWR_THERMAL_STEP 5).powerLoss used
    { s with svc := { s.svc with thermalOff := true, thermalRec := some (thermalData 5 m) } }.setReg Reg.PWR_DOMAIN_STATUS_ON (2 ^ 28 + 2 ^ 29)
  else (s.logBook 0x11 (thermalData n m)).setReg Reg.PWR_THERMAL_STEP n

/-- THERMAL_STEP_FALL (R690): one step down, when every condition of the current step has been eased for 1 s. -/
def Mdl.thermalFall (s : Mdl) (m : Climate) : Mdl :=
  let n := s.reg Reg.PWR_THERMAL_STEP
  let s := s.showClimate m
  let m : Climate := { m with hottest := s.calibrated m.sensor m.hottest }
  if n = 0 ∨ Climate.any (m.holds (s.reg Reg.PWR_CAP_CAP_W) n 5 200 5) then s
  else (s.logBook 0x11 (thermalData (n - 1) m)).setReg Reg.PWR_THERMAL_STEP (n - 1)

/-- CAUSE bit 4 follows the cartridges held. -/
def Mdl.showHeld (s : Mdl) : Mdl :=
  s.setReg Reg.PWR_THERMAL_CAUSE (s.reg Reg.PWR_THERMAL_CAUSE % 16 + 16 * b2n (!s.svc.cartHold.isEmpty))

/-- CARTRIDGE_THERMAL_HOLD and _RELEASE at a sensor value in 1/64 degree (R693). -/
def Mdl.cartHot (s : Mdl) (slot temp : Nat) : Mdl :=
  let s : Mdl := { s with svc := { s.svc with sensors := Table.set 0 s.svc.sensors (140 + slot) temp } }
  if temp < deg 70 ∨ s.svc.cartHold.contains slot then s
  else { s with svc := { s.svc with cartHold := s.svc.cartHold ++ [slot] } }.showHeld

def Mdl.cartCool (s : Mdl) (slot temp : Nat) : Mdl :=
  let s : Mdl := { s with svc := { s.svc with sensors := Table.set 0 s.svc.sensors (140 + slot) temp } }
  if deg 65 < temp then s else { s with svc := { s.svc with cartHold := s.svc.cartHold.filter (· != slot) } }.showHeld

/-! ### Load switches (R17, R694) -/

/-- SLOT_POWER: PWR_SLOT_CTRL (R694). -/
def Mdl.slotPower (s : Mdl) (slot : Nat) (on : Bool) : Mdl :=
  let err := fun (s : Mdl) (e : Nat) => s.setReg Reg.PWR_DOMAIN_STATUS_SLOT_ERR e
  if 9 ≤ slot ∨ ¬ s.flag (Reg.MED_SLOT_STATUS_PRESENT slot) then err s 2
  else
    let role := s.reg (Reg.MED_SLOT_STATUS_ROLE slot)
    if on then err (s.setReg (Reg.MED_SLOT_STATUS_POWERED slot) 1) 0
    else if role = 1 then err s 1
    else
      let s := if role = 2 then (s.cartRecord slot 4 0).setReg (Reg.MED_SLOT_STATUS_ROLE slot) 0 else s
      err (s.setReg (Reg.MED_SLOT_STATUS_POWERED slot) 0) 0

/-- SVC_LOCK_SET. -/
def Mdl.lockSet (s : Mdl) : Mdl := s.setReg Reg.SVC_LOCK_LOCK 1

/-- CARTRIDGE_INSERT and CARTRIDGE_PULL with what a lost cartridge means for the twin (R656). -/
def Mdl.pull (s : Mdl) (slot : Nat) : Mdl :=
  let lost := s.reg (Reg.MED_SLOT_STATUS_ROLE slot) = 1 && s.flag (Reg.MED_SLOT_STATUS_PRESENT slot)
  let s := s.cartridgePull slot
  if lost then s.sendLost else s

end Sys2Proof.Machine
end

