-- ==== Sys2Proof/Machine/Boundary.lean ====
section
/-! DEFINITION. What happens at a boundary and at the phases of windows, TRANSIT edges and messages, and flits as they arrive (R64 to
R105, R148, R155, R377, R380, R407, R437, R618 to R639, R649, R685). -/
namespace Sys2Proof.Machine

/-! ### Transit messages on the fabric (R71, R72, Table 2-2) -/

/-- The 32 bytes of a transit message. -/
def TransitMsg.bytes (m : TransitMsg) : List Byte :=
  leBytes 6 m.epoch ++ leBytes 2 (m.srcModule % 4096) ++ leBytes 1 m.hops ++ leBytes 1 m.state ++ leBytes 2 0 ++ leBytes 4 m.pathDelay
    ++ leBytes 4 m.period ++ leBytes 4 m.nextPeriod ++ leBytes 6 m.nextEpoch ++ leBytes 2 0

/-- Read a transit message. -/
def TransitMsg.read (l : List Byte) : TransitMsg :=
  let f := fun (o n : Nat) => leNat ((l.drop o).take n)
  { epoch := f 0 6, srcModule := f 6 2 % 4096, hops := f 8 1, state := f 9 1, pathDelay := f 12 4, period := f 16 4, nextPeriod := f 20 4
    nextEpoch := f 24 6 }

/-- Send a transit message on every ACTIVE link whose TRANSIT_FWD bit is set but one (R71, R629). -/
def Mdl.sendTransit (s : Mdl) (m : TransitMsg) (from_ : Option Nat) : Mdl :=
  let src := m.srcModule
  (List.range 8).foldl (fun (s : Mdl) n =>
    if bit s.spanCfg.transitFwd n && s.linkActive n && from_ != some n then
      s.sendOn n { type := 0x06, tc := 0, hops := 0, dst := src, src := src, tag := 0, addr := 0, status := 0, data := m.bytes, stream := [] }
    else s) s

/-! ### Windows (R94, R96, R103, R104) -/

/-- The target of a class and target whose windows end at a phase, with none going on (R96). -/
def Mdl.endsAt (s : Mdl) (phase cls target : Nat) : Bool :=
  let es := s.windowsOf cls target
  es.any (fun e => Eph.endOf e == phase) && !es.any (Eph.covers s.cycleIndex phase)

/-- Windows whose start phase is reached open (R94); a GC window chooses its victims (R527). -/
def Mdl.openWindows (s : Mdl) (phase : Nat) : Mdl :=
  let s := (s.atPhase phase).serve.showGrant
  let slots := (List.range 9).filter fun i => (s.windowsOf 3 i).any fun e => Eph.startOf e == phase
  slots.foldl (fun (s : Mdl) i => if s.reg (Reg.MED_SLOT_STATUS_ROLE i) = 1 then s.gcWindow i else s) s

/-- WINDOW_OPEN: jobs whose class may now run become ready, and may pre-empt (R409). -/
def Mdl.windowOpens (s : Mdl) (phase : Nat) : Mdl := (s.openWindows phase).checkPreempt

/-- Operations of class 1, 2 or 4 that run for a target that `p` names (R104): programs, erases not suspended, self-test segments. -/
def Mdl.running (s : Mdl) (cls : Nat) (p : Nat → Bool) : Nat :=
  let group := fun (q : Nat × DieOp) => p (flashTarget (q.1 / 128) (dieGroup (q.1 % 128)))
  match cls with
  | 1 => (s.med.dies.filter fun q => (match q.2 with | .programming _ _ => true | _ => false) && group q).length
  | 2 => (s.med.dies.filter fun q => (match q.2 with | .erasing _ => true | _ => false) && group q).length
  | _ => s.clusters.foldl (fun n q => n + (match s.logOfDie (q.1 / 26) with
      | some ld => if p (2 * 4096 + ld) then q.2.selfTest.length else 0
      | none => 0)) 0

/-- A hard alignment at phase `phase` of `before` cuts windows short: what runs in one that does not go on is an overrun (R104), and a class that
may not run any more loses its JOB window (R409). A window of the next epoch is another one (R96). -/
def Mdl.cutWindows (s before : Mdl) (phase : Nat) : Mdl :=
  let b := before.atPhase (min phase 65535)
  let cut := fun cls t => b.windowOpen cls t && (s.epoch != before.epoch || !s.windowOpen cls t)
  let s := [1, 2, 4].foldl (fun (s : Mdl) cls => s.overrun cls (b.running cls (cut cls))) s
  let s := s.overrun 6 (b.cats.foldl (fun n p => if cut 6 p.1 then n + (p.2.running.filter fun r => r.1 == b.epoch && decide (phase < r.2)).length else n) 0)
  s.windowLost fun cls => b.windowOpen 5 cls && !s.mayRun 5 cls

/-- WINDOW_END at a phase (Table 2-17, R104, R409): overruns are counted, and classes that lose their JOB window are pre-empted. Sweeps whose estimate
ends later are overruns, and `sweeps` more whose estimate proved too short; bulk moves that have started finish (Table 2-17). -/
def Mdl.windowEnds (s : Mdl) (phase sweeps : Nat) : Mdl :=
  let s := [1, 2, 4].foldl (fun (s : Mdl) cls => s.overrun cls (s.running cls (s.endsAt phase cls))) s
  let long := s.cats.foldl (fun n p => if s.endsAt phase 6 p.1 then n + (p.2.running.filter fun r => r.1 == s.epoch && decide (phase < r.2)).length else n) 0
  let s := if (List.range 256).any (s.endsAt phase 6) then s.overrun 6 (sweeps + long) else s
  ((s.atPhase (min phase 65535)).showGrant).windowLost (s.endsAt phase 5)

/-! ### The boundary (R66) -/

/-- Does a chart wait for this boundary (R148)? -/
def Mdl.chartDue (s : Mdl) : Bool := s.reg Reg.CHT_STATUS_STAGE == 4

/-- A chart that waits comes into force (R148); the first one ends the start-up's training (Table 14-1), and TWIN set begins the handshake
(Table 13-11). -/
def Mdl.boundaryChart (s : Mdl) : Mdl :=
  let s := s.chartInForce
  let s := if s.reg Reg.SVC_MILESTONE_CHART_MS = 0 ∧ s.stage = 0 then
      let s := s.milestone Reg.SVC_MILESTONE_CHART_MS
      if s.svc.mapRestored then s else s.setReg Reg.SVC_STATUS_STAGE 1
    else s
  let s := if s.spanCfg.twin ∧ s.twinState = 0 then s.enterSeeking else s.linkLost 6
  s.tryReady

/-- The clock drive's, the Ephemeris's and the windows' part of a boundary at time `t`: R66 steps 1 to 4, with the end of a cycle (R105). A chart
that waits comes into force in place of a swap (R148). A swap, a chart or a step of the epoch number that cuts a cycle short closes it for
EPH_STARVE too (DESIGN CHOICE, assumption log entry 52: R105 is silent on a cycle cut short). -/
def Mdl.boundaryClock (s : Mdl) (t : Nat) : Mdl :=
  let was := s.reg Reg.EPH_SWAPS_SWAPS
  let cycle := s.epoch / max 1 (s.reg Reg.EPH_CYCLE_ACTIVE_LEN)
  let s := s.driveBoundary t
  let chart := s.chartDue
  let ended := decide (s.epoch / max 1 (s.reg Reg.EPH_CYCLE_ACTIVE_LEN) ≠ cycle)
  let s := if chart then s.boundaryChart else s.swapBanks
  let s := if chart ∨ ended ∨ s.reg Reg.EPH_SWAPS_SWAPS ≠ was then s.endCycle s.pendingWork else s
  (s.setReg Reg.EPH_CYCLE_CYCLE_INDEX s.cycleIndex).openWindows 0

/-- Serving groups take their committed fields before their builds (R377). -/
def Mdl.boundaryCommits (s : Mdl) : Mdl :=
  (List.range 8).foldl (fun (s : Mdl) i => if s.cht.commits.contains (0x800 + i) then s.coupledApply (0x800 + i) else s) s

/-- Pages touched since the last boundary count once more, and every 64th epoch halves ACCESS (R338). -/
def Mdl.boundaryTiers (s : Mdl) : Mdl :=
  let s := s.newTouches.tierSettle
  if s.epoch % 64 = 0 then s.halveAccess else s

/-- R66 step 5: what every other block does, and after it the builds (R380). Step building resumes at the boundary after the one at which a chart comes into force, `chart`
(R147). -/
def Mdl.boundaryBlocks (s : Mdl) (chart : Bool) : Mdl :=
  let s : Mdl := { s with svc := { s.svc with epochFaults := [] } }
  let s := s.calBoundary.ageHolds.scrubEpoch.boundaryTiers.gainBalances.boundaryCommits
  let s := s.catBoundary.achRetry.sendCheckpoint.showMismatch
  ((if chart then s else s.buildAll).checkPreempt).roomFreed

/-- EPOCH_BOUNDARY at time `t` (R66, R67, R71). The time line begins when P54 comes within range. A class that a new bank gates and does not let run
loses its window (R409). -/
def Mdl.epochBoundary (s : Mdl) (t : Nat) : Mdl :=
  let s := s.sourceTime t
  let chart := s.chartDue
  let was := s
  let s := (s.boundaryClock t).atMs (t / 4000000)
  let s := s.windowLost fun cls => !was.activeEntries.any (Eph.serves 5 cls) && !s.mayRun 5 cls
  let s := if s.reg Reg.SPN_STATUS_ROLE_NOW = 2 then s.sendTransit (s.transitMessage s.myModule) none else s
  s.boundaryBlocks chart

/-- What an edge asks of the boundaries is done; `before` is the module as the edge found it. -/
def Mdl.edgeDone (before : Mdl) (r : Mdl × EdgeAct) (t : Nat) : Mdl := match r.2 with
  | .done => if before.phaseAt t ≠ 0 ∧ r.1.trn.start ≠ before.trn.start then r.1.cutWindows before (before.phaseAt t) else r.1
  | .boundary =>
    let s := r.1.epochBoundary t
    if t < before.trn.start + before.epochLen then s.cutWindows before (before.phaseAt t) else s

/-- TRANSIT_EDGE at time `t` (R70, R80, R685): its input delay is taken out; it feeds the clock drive while the pin is the source in use. -/
def Mdl.transitEdge (s : Mdl) (t : Nat) (rising : Bool) (widthNs : Nat) : Mdl :=
  let f := (s.sourceTime t).filter widthNs
  let s := f.2
  let marks := if s.flag Reg.TRN_CTRL_EDGE then !rising else rising
  if !f.1 || !marks || s.reg Reg.TRN_STATUS_SOURCE_USED ≠ 1 then s
  else
    let t := ((t : Int) - s.svc.cal.transitDelay).toNat
    Mdl.edgeDone s (s.markingEdge t) t

/-- A standby span master takes its epoch numbers from the master's messages, its phase from the pin (R638, R91, R92). -/
def Mdl.standbyNumber (s : Mdl) (t : Nat) (m : TransitMsg) : Mdl :=
  let t := t - m.pathDelay
  let passed := s.marksPassed t (s.errorAt t)
  let expected := s.expectedNumber false passed
  if m.epoch < expected then ((s.setReg Reg.TRN_STATUS_EPOCH_REFUSED 1).count Reg.TRN_COUNT_STRAY).trnRecord 7 0
  else
    let s : Mdl := { s with trn := { s.trn with messages := m.epoch :: s.trn.messages } }
    s.takeNumber expected m.epoch passed

/-- TRANSIT_MESSAGE: it arrives on a link at time `t` from module `src` (R72, R73, R92, R629, R638, R639). A module whose source is not the fabric
takes the first message of a number only to forward it (DEDUCED, assumption log entry 37). -/
def Mdl.transitIn (s : Mdl) (n src : Nat) (m : TransitMsg) (t : Nat) : Mdl :=
  if !s.linkActive n || decide (255 ≤ m.hops) then s
  else
    let before := s
    let inband := s.reg Reg.TRN_STATUS_SOURCE_USED == 2
    if s.spanCfg.role = 0 ∨ src ≠ s.reg Reg.SPN_STATUS_MASTER then s.count Reg.TRN_COUNT_STRAY
    else if s.trn.messages.contains m.epoch then s
    else
      let delay := s.linkDelay n
      let r : Mdl × EdgeAct :=
        if inband then s.inbandEdge t m
        else if s.reg Reg.SPN_STATUS_ROLE_NOW = 3 then (s.standbyNumber t m, .done)
        else ({ s with trn := { s.trn with messages := m.epoch :: s.trn.messages } }, .done)
      let s := r.1
      let s := if s.trn.messages.contains m.epoch then
          let f := s.forwarded m delay
          f.2.sendTransit f.1 (some n)
        else s
      Mdl.edgeDone before (s, r.2) (t - m.pathDelay)

/-! ### Flits (R618 to R622) -/

/-- One message of a flit. -/
def Mdl.takeMsg (s : Mdl) (n : Nat) (m : LMsg) (t ns : Nat) : Mdl :=
  if m.type = 0x06 then s.transitIn n m.src (TransitMsg.read m.data) t else s.deliver n m t ns

/-- FLIT_RECEIVE at time `t` (R618, R620): a flit with a bad CRC or an unexpected SEQ is answered with NAK; else its ACK is taken, its credit is
freed, and its messages are delivered. An ACK goes out at the latest with the 32nd flit. -/
def Mdl.flitReceive (s : Mdl) (n : Nat) (f : Flit) (t ns : Nat) : Mdl :=
  if !s.linkActive n then s
  else
    let l := s.link n
    let nak := fun (s : Mdl) => s.emit (.flit n 1 ((l.recvSeq + 1023) % 1024))
    let s := s.countSat (Reg.SPN_LINK_FEC_CORRECTED n) f.fec
    if !f.crcOk then nak s
    else
      let s := if f.nak then s.nakReceive n f.ack else (s.acked n f.ack).releaseHeld n
      if f.idle then s
      else if f.seq ≠ l.recvSeq then nak s
      else
        let flits := max 1 (f.msgs.foldl (fun a m => a + msgFlits m) 0)
        let free := if f.msgs.all fun m => m.type == 0x09 then 0 else flits
        let l := s.link n
        let next := (l.recvSeq + flits) % 1024
        let due := l.ackDue + flits
        let s := s.setLink n { l with
          recvSeq := next, ackDue := if 32 ≤ due then 0 else due, freed := l.freed.set f.vc.val (l.freed.getD f.vc.val 0 + free) }
        let s := s.count (Reg.SPN_LINK_FLITS_RX n) flits
        let s := if 32 ≤ due then s.emit (.flit n 0 ((next + 1023) % 1024)) else s
        f.msgs.foldl (fun (s : Mdl) m => s.takeMsg n m t ns) s

end Sys2Proof.Machine
end

