-- ==== Sys2Proof/Machine/Bus.lean ====
section
/-! DEFINITION. BAR2 accesses: the access types of the fields, accesses of 32 and 64 bits, the windows of the compute dies, registers that
show structured state, registers whose write is a command (R6 to R11, R61 to R63, R164, R662). -/
namespace Sys2Proof.Machine

/-! ### Registers that show structured state -/

/-- A stripe-table entry as its 512 bits (Table 11-2). -/
def Stripe.word (e : Stripe) : Nat :=
  e.state.code + b2n e.light * 2 ^ 3 + e.role % 8 * 2 ^ 4 + e.slot % 16 * 2 ^ 8 + e.parity % 16 * 2 ^ 12 + e.failed % 2 ^ 16 * 2 ^ 16
    + e.erases % 2 ^ 16 * 2 ^ 32 + e.rows % 2 ^ 16 * 2 ^ 48 + e.owner % 2 ^ 32 * 2 ^ 64 + e.valid % 2 ^ 32 * 2 ^ 96
    + e.sealEpoch % 2 ^ 48 * 2 ^ 128
    + (List.range 16).foldl (fun a g =>
        let b := e.blk.getD g (0, 0)
        a + (b.2 % 2 ^ 14 + b.1 % 8 * 2 ^ 14) * 2 ^ (240 + 17 * g)) 0

/-- Entries of the sequence table in a state that `p` names. -/
def Mdl.seqCount (s : Mdl) (p : SeqState → Bool) : Nat := (s.sch.seqs.filter fun x => p x.2.state).length

/-- SQT_COUNT (Table 8-10). -/
def Mdl.viewSeqCount (s : Mdl) : Nat :=
  let waiting := (List.range 8).foldl (fun a g => a + s.joinsWaiting g) 0
  s.seqCount (· == .running) + s.seqCount (· == .stalled) * 2 ^ 16
    + s.seqCount (fun x => x == .swapping || x == .swapped || x == .returning) * 2 ^ 32 + min waiting 65535 * 2 ^ 48

/-- Is a page of an attached image lost (R438)? -/
def Mdl.pagesLost (s : Mdl) (x : CatSt) : Bool :=
  match x.gen with
  | none => false
  | some g => (imagePages g.addr (s.catEnd (s.catImage x.acct g.addr))).any fun p => (s.page x.acct p).state == .lost

/-- CAT_STATE of the catalogue that CAT_SEL names (Table 9-19). -/
def Mdl.viewCat (s : Mdl) : Nat :=
  let x := s.cat (s.reg Reg.CAT_SEL_CAT)
  let kind := match x.gen with
    | some g => (s.catImage x.acct g.addr).kind % 4
    | none => 0
  x.state.code + kind * 4 + b2n x.staged.isSome * 2 ^ 4 + b2n x.old.isSome * 2 ^ 5 + b2n (s.pagesLost x) * 2 ^ 6 + x.acct % 65536 * 2 ^ 16
    + x.batches.length % 4096 * 2 ^ 32 + min (s.copiesFree x) (2 ^ 20 - 1) * 2 ^ 44

/-- GENERATION of an image, 0 for none. -/
def Mdl.genOf (s : Mdl) (x : CatSt) (base : Option Nat) : Nat := match base with
  | some b => (s.catImage x.acct b).generation
  | none => 0

/-- What a register that shows structured state reads as, the register named by its address (every bit of the register); none for a register
that its fields hold. -/
def Mdl.view (s : Mdl) (b : Nat) : Option Nat :=
  if b < 0x40000 then
    if b = Reg.IDN_SERIAL_SERIAL.addr then some s.svc.serial
    else if b = Reg.IDN_LOG_TOTAL_TOTAL.addr then some s.svc.logTotal
    else if b = Reg.IDN_LOG_DATA_RECORD.addr then some (match s.svc.logBook[s.reg Reg.IDN_LOG_SEL_BACK]? with
      | some r => leNat r.bytes
      | none => 0)
    else if 0x1100 ≤ b ∧ b < 0x1220 then some (match Table.get none s.svc.cartIds ((b - 0x1100) / 32) with
      | some c => c.serial % 2 ^ 128 + c.totalErases * 2 ^ 128
      | none => 0)
    else none
  else if b < 0x60000 then some ((s.seq ((b - 0x40000) / 8)).word (s.setPages (s.seq ((b - 0x40000) / 8)).group))
  else if b < 0x80000 then
    if b = Reg.SQT_COUNT_RUNNING.addr then some s.viewSeqCount
    else if b = Reg.SCH_ACCT_TIME_TIME.addr then some (Table.get 0 s.sch.times (s.reg Reg.SCH_ACCT_SEL_ACCOUNT) % 2 ^ 64)
    else if b = Reg.SCH_ACCT_BAL_BALANCE.addr then some ((s.balance (s.reg Reg.SCH_ACCT_SEL_ACCOUNT) % 2 ^ 64).toNat)
    else none
  else if b < 0x90000 then
    let x := s.cat (s.reg Reg.CAT_SEL_CAT)
    if b = Reg.CAT_STATE_STATE.addr then some s.viewCat
    else if b = Reg.CAT_GEN_GENERATION.addr then some (s.genOf x (x.gen.map (·.addr)))
    else if b = Reg.CAT_STAGED_GEN_GENERATION.addr then some (s.genOf x (x.staged.map (·.1)))
    else if b = Reg.CAT_IN_FORCE_EPOCH_EPOCH.addr then some (match x.gen with
      | some g => g.since
      | none => 0)
    else if b = Reg.CAT_DELETES_ACCEPTED.addr then
      some (x.accepted % 2 ^ 32 + min x.pending.length 65535 * 2 ^ 32 + min x.journal.length 65535 * 2 ^ 48)
    else if b = Reg.CAT_QUERIES_QUERIES.addr then some (x.queries % 2 ^ 48)
    else none
  else if b = Reg.FTL_STRIPE_ENTRY.addr then some (s.stripe (s.reg Reg.FTL_STRIPE_SEL_INDEX)).word
  else if b = Reg.SPN_PEER_STATE.addr then
    let e := s.dirEntry (s.reg Reg.SPN_PEER_SEL_MODULE)
    some (e.state % 4 + e.epoch % 2 ^ 48 * 2 ^ 16)
  else if b = Reg.TWN_DIRTY_WORD_BITS.addr then
    some ((List.range 64).foldl (fun a i => a + b2n (Table.get false s.twn.dirty (64 * s.reg Reg.TWN_DIRTY_SEL_WORD + i)) * 2 ^ i) 0)
  else if b = Reg.TWN_PEER_ENTRY_ENTRY.addr then some (Table.get 0 s.twn.peer (s.reg Reg.TWN_PEER_SEL_ENTRY))
  else if b = Reg.PWR_ENERGY_WH.addr then some (Table.get 0 s.svc.totals Total.energyWh.index)
  else if b = Reg.PWR_TEMP_VALUE.addr then
    let n := s.reg Reg.PWR_TEMP_SEL_SENSOR
    some (s.calibrated n (Table.get 0 s.svc.sensors n) % 65536)
  else if b = Reg.TIR_FREE_FREE.addr then
    some ((List.range 4).foldl (fun a i => match s.logDies[i]? with
      | some p => if s.svc.retiredDie p then a else a + min (s.freeFrames p) 65535 * 2 ^ (16 * i)
      | none => a) 0)
  else if b = Reg.TIR_ACCT_USE_HBM_PAGES.addr then
    let a := s.reg Reg.TIR_ACCT_SEL_ACCOUNT
    some (s.held a 0 % 2 ^ 32 + s.held a 1 * 2 ^ 32)
  else if b = Reg.TIR_ACCT_REM_REMOTE_PAGES.addr then some (s.held (s.reg Reg.TIR_ACCT_SEL_ACCOUNT) 2)
  else none

/-! ### Where an access lands (R61 to R63) -/

/-- The physical die and cluster whose window holds an address of the compute dies. -/
def windowOf (a : Nat) : Nat × Nat := ((a - 0x100000) / 0x40000, (a - 0x100000) % 0x40000 / 0x2000)

/-- Does an access to an address of a die out of service act on nothing (R63)? -/
def Mdl.deadWindow (s : Mdl) (a : Nat) : Bool :=
  decide (0x100000 ≤ a) && !bit (s.reg Reg.SVC_DIE_MAP_DIE_INSERVICE) (windowOf a).1

/-- Is an address in the window of a cluster that is not in service (R62)? -/
def Mdl.spareWindow (s : Mdl) (a : Nat) : Bool :=
  decide (0x100000 ≤ a) && !bit (s.reg (Reg.SVC_CLU_MAP_CLU_INSERVICE (windowOf a).1)) (windowOf a).2

/-- The bits of a field that the 32-bit word at `a` holds: the first one within the field, their number, and their place in the word. -/
def Fld.span (f : Fld) (a : Nat) : Nat × Nat × Nat :=
  let w := 8 * (a - f.addr)
  let lo := max f.lo w
  (lo - f.lo, min (f.lo + f.width) (w + 32) - lo, lo - w)

/-- The fields of a register map word: those with a bit in the 32 bits at `a`. -/
def fieldsAt (a : Nat) : List Fld := match Reg.find a with
  | some (r, b) => (r.at b).filter fun f => decide ((f.span a).2.1 ≠ 0)
  | none => []

/-- A field's value with the bits that a word covers replaced by the word's. -/
def Fld.merge (f : Fld) (a old v : Nat) : Nat :=
  let p := f.span a
  old - bits old p.1 p.2.1 * 2 ^ p.1 + bits v p.2.2 p.2.1 * 2 ^ p.1

/-! ### Writes (R6, Table 0-4) -/

/-- Values that a field's description says are ignored. -/
def Mdl.ignored (s : Mdl) (f : Fld) (v : Nat) : Bool :=
  let is := fun (g : Fld) => decide (f.key = g.key)
  let grp := fun (g : Nat → Fld) => (List.range 8).any fun i => is (g i)
  (decide (v = 0) && (is Reg.CPL_HOLD_LIMIT_LIMIT || is Reg.SQT_CTRL_FAIL_LIMIT || grp Reg.SQT_GRP_LIMITS_PREFILL_CHUNK
      || grp Reg.SQT_GRP_LIMITS_SWAP_AFTER || is Reg.SCH_CTRL_DEFAULT_SHARE || is Reg.MED_HBM_RETIRE_THRESHOLD || is Reg.FTL_MERGE_MERGE_AT
      || is Reg.SPN_TIMING_HB_MISS || is Reg.SPN_TIMEOUT_TIMEOUT || is Reg.TWN_ACK_TIMEOUT_TIMEOUT))
    || (grp Reg.SQT_GRP_LIMITS_MAX_BATCH && !decide (1 ≤ v ∧ v ≤ 1024))
    || (is Reg.TIR_COUDE_SHARE_PERCENT && decide (100 < v)) || (is Reg.MED_REFRESH_STRONG && decide (300 < v))
    || (is Reg.MED_REFRESH_LIGHT && decide (130 < v)) || (is Reg.FTL_MERGE_MERGE_AT && decide (122880 < v))
    || (is Reg.FTL_SPARE_CTRL_BRING_PCT && decide (100 < v)) || (is Reg.SPN_TIMING_HB_INTERVAL && decide (v < 100))
    || (is Reg.PWR_CAP_CAP_W && !decide (600 ≤ v ∧ v ≤ 1250))
    || (is Reg.FTL_FAR_LIMIT_LIMIT && (decide (v < s.roleCount 3) || decide (s.spareWith v < 0)))

/-- A write of a field by the word at `a` holding `v` (R6): sets, clears or ignores it. -/
def Mdl.writeField (s : Mdl) (a v : Nat) (f : Fld) : Mdl :=
  let new := f.merge a (s.reg f) v
  match f.acc with
  | .rw | .rws => if s.ignored f new then s else s.setReg f new
  | .rwl => if s.flag Reg.SVC_LOCK_LOCK || s.ignored f new then s else s.setReg f new
  | .rw1c => s.setReg f (s.reg f - Nat.land (s.reg f) (bits v (f.span a).2.2 (f.span a).2.1 * 2 ^ (f.span a).1))
  | .ro | .rc | .wo => s

/-- A write of every field of a word whose write has no further effect. -/
def Mdl.writePlain (s : Mdl) (a v : Nat) : Mdl := (fieldsAt a).foldl (fun (s : Mdl) f => s.writeField a v f) s

/-- CHT_CMD as a register write; PROGRAM_BANK and SET_OPTION, whose data a DMA brings, are commands of their own; another value is refused. -/
def Mdl.chartCmd (s : Mdl) (v : Nat) : Mdl :=
  match bits v 0 4 with
  | 1 => s.eraseBank (bits v 4 1)
  | 3 => s.verifyBank (bits v 4 1)
  | 4 => s.loadFull (bits v 4 1)
  | 5 => s.loadPartial (bits v 8 2) (bits v 10 5)
  | 7 => s.chartAbort
  | 2 | 6 => s
  | _ => s.chartEnd 0x0C

/-- One 32-bit access to TRN_EPOCH_SET (R10, R90): it writes its half of VALUE and acts with the whole of it, the other half as last written
(DEDUCED, assumption log entry 4). -/
def Mdl.epochSetHalf (s : Mdl) (a v : Nat) : Mdl :=
  let f := Reg.TRN_EPOCH_SET_VALUE
  let s := s.setReg f (f.merge a (s.reg f) v)
  s.epochSet (s.reg f)

/-- A write of a register of the transit, Ephemeris, chart and coupling blocks, or of SVC_, that acts; none when it only sets fields. -/
def Mdl.writeClock (s : Mdl) (a v : Nat) : Option Mdl :=
  if a = Reg.SVC_RESET_KEY.addr then some (if bits v 16 16 = 0xA5C3 ∧ bits v 0 2 = 1 then s.warmReset else s)
  else if a = Reg.SVC_REFURB_OP.addr then some (match bits v 0 2 with
    | 1 => s.refurbBegin
    | 2 => s.retest
    | 3 => s.refurbEnd
    | _ => s)
  else if a = Reg.TRN_CTRL_SOURCE.addr then
    let s := (s.setReg Reg.TRN_CTRL_EDGE (bits v 2 1)).sourceSelect (bits v 0 2)
    some (if bit v 3 then s.reacquire else s)
  else if a = Reg.TRN_DEFAULT_PERIOD_DEFAULT_PERIOD.addr then some (s.periodWrite false v)
  else if a = Reg.TRN_NEXT_PERIOD_NEXT_PERIOD.addr then some (s.periodWrite true v)
  else if a / 8 * 8 = Reg.TRN_EPOCH_SET_VALUE.addr then some (s.epochSetHalf a v)
  else if a / 8 * 8 = Reg.TRN_NEXT_EPOCH_NEXT_EPOCH.addr ∧ s.reg Reg.TRN_STATUS_SOURCE_USED = 2 then some s
  else if a = Reg.EPH_CTRL_ARM.addr then
    let s := if bit v 0 then s.arm else s
    some (if bit v 1 then s.disarm else s)
  else if a / 8 * 8 = Reg.EPH_SWAP_EPOCH_SWAP_EPOCH.addr then
    let f := Reg.EPH_SWAP_EPOCH_SWAP_EPOCH
    some (s.armedFieldWrite f (f.merge a (s.reg f) v))
  else if a = Reg.EPH_CYCLE_SHADOW_LEN.addr then some (s.armedFieldWrite Reg.EPH_CYCLE_SHADOW_LEN (bits v 0 7))
  else if 0x14000 ≤ a ∧ a < 0x16000 then some s
  else if 0x16000 ≤ a ∧ a < 0x18000 then some (s.shadowWrite (a - 0x16000) 4 v)
  else if a = Reg.CHT_CMD_OP.addr then some (s.chartCmd v)
  else if a = Reg.CPL_COMMIT_GROUP.addr then some (s.cplCommit (bits v 0 16))
  else none

/-- A write of a register of the other blocks that acts; none when it only sets fields. -/
def Mdl.writeBlock (s : Mdl) (a v : Nat) : Option Mdl :=
  if a = Reg.SQT_CMD_OP.addr then some (match bits v 0 2 with
    | 1 => s.cancelSeq (bits v 16 14)
    | 2 => s.resumeGroup (bits v 2 3)
    | _ => s)
  else if a = Reg.CAT_CMD_OP.addr then some (s.catCommand (bits v 0 4) (bits v 8 8) (bits v 16 16))
  else if 0x98000 ≤ a ∧ a < 0x98100 ∧ a % 64 = 0 then
    let n := (a - 0x98000) / 64
    some (match bits v 0 2 with
      | 1 => s.scrubStart n (bits v 2 1)
      | 2 => s.scrubStop n
      | _ => s)
  else if a = Reg.FTL_FAR_LIMIT_LIMIT.addr then some (s.writePlain a v).showSpare
  else if a = Reg.FTL_SPARE_CTRL_BRING_IN.addr then
    let s := s.writePlain a v
    some (if bit v 7 then s.startMigration else s)
  else if a = Reg.SPN_CTRL_TAKEOVER.addr then some (if bit v 0 then s.takeOver else s)
  else if a = Reg.TWN_CMD_OP.addr then some (match bits v 0 3 with
    | 1 => s.twinDetach
    | 2 => s.rejoin
    | 3 => s.forceSolo
    | 4 => s.pick
    | _ => s)
  else if a = Reg.PWR_DOMAIN_REQ_DOMAIN.addr then some (s.domainReq (bits v 0 5) (bit v 5))
  else if a = Reg.PWR_SLOT_CTRL_SLOT.addr then some (s.slotPower (bits v 0 4) (bit v 4))
  else if a = Reg.TIR_CMD_OP.addr then some (s.tierCommand (bits v 0 4) (bits v 4 2) (bits v 6 2) (bits v 16 16))
  else if a = Reg.TIR_WATER_LOW.addr then some (if bits v 16 16 ≤ bits v 0 16 then s else s.writePlain a v)
  else if 0xd1000 ≤ a ∧ a < 0xd2000 ∧ a % 32 = 4 then
    let n := (a - 0xd1000) / 32
    let s := if bit v 2 then s.modelLoad n else s
    some (if bit v 3 then s.modelUnload n else s)
  else if 0x100000 ≤ a ∧ a % 0x2000 = 0x1000 then
    let w := windowOf a
    some (if bit v 0 then s.eyeHalt w.1 w.2 else s.eyeResume w.1 w.2)
  else none

/-- The coupled-field group of the register at an address. -/
def coupledAt (a : Nat) : Option Nat := (Reg.find a).bind fun r => groupOfAddr r.2

/-- A 32-bit write of a register that the module takes (R6, R62, R63). -/
def Mdl.write32 (s : Mdl) (a v : Nat) : Mdl :=
  if s.deadWindow a then s
  else if s.spareWindow a then ((fieldsAt a).filter fun f => f.acc == .rw1c).foldl (fun (s : Mdl) f => s.writeField a v f) s
  else if (coupledAt a).isSome then s.coupledFieldWrite a 4 v
  else match s.writeClock a v with
    | some t => t
    | none => match s.writeBlock a v with
      | some t => t
      | none => s.writePlain a v

/-- A write of BAR2 (R6 to R11, R662): 32 bits, or 64 as two 32-bit accesses, lower address first. A 64-bit write of a register
with coupled fields is one access (R167). Before the module is ready only SVC_RESET is taken. -/
def Mdl.busWrite (s : Mdl) (a : Nat) (wide : Bool) (v : Nat) : Mdl :=
  if a % (if wide then 8 else 4) ≠ 0 then s
  else if s.stage < 2 then
    (if a = Reg.SVC_RESET_KEY.addr ∧ !wide then s.write32 a (v % 2 ^ 32) else if a + 4 = Reg.SVC_RESET_KEY.addr ∧ wide then s.write32 (a + 4) (bits v 32 32) else s)
  else if !wide then s.write32 a (v % 2 ^ 32)
  else if s.deadWindow a then s
  else if (coupledAt a).isSome && (Reg.find (a + 4)).any (fun r => r.2 == a) then s.coupledFieldWrite a 8 (v % 2 ^ 64)
  else (s.write32 a (v % 2 ^ 32)).write32 (a + 4) (bits v 32 32)

/-! ### Reads -/

/-- The bits of a word that fields hold; RC fields lose the bits read (Table 0-4). Error counts of a slot read out this way are kept for log
page 0xC2 (Table 12-12). -/
def Mdl.readField (s : Mdl) (a : Nat) (f : Fld) : Nat × Mdl :=
  let p := f.span a
  let x := bits (s.reg f) p.1 p.2.1
  let s := if f.acc != .rc then s
    else
      let s := s.setReg f (s.reg f - x * 2 ^ p.1)
      if 0x90100 ≤ f.addr ∧ f.addr < 0x90190 then
        let old := Table.get 0 s.med.eccRead f.key
        let new := if f.lo = 112 then max old x else old + x
        { s with med := { s.med with eccRead := Table.set 0 s.med.eccRead f.key new } }
      else s
  (if f.acc == .wo then 0 else x * 2 ^ p.2.2, s)

/-- A word of the option record that BAR2 shows. -/
def Mdl.optWord (s : Mdl) (o : Nat) : Nat := leNat ((s.cht.opt.bytes.drop o).take 4)

/-- A word of an Ephemeris bank that BAR2 shows: entry `i` at byte 8 i. -/
def bankWord (t : Table Nat) (o : Nat) : Nat := bits (Table.get 0 t (o / 8)) (8 * (o % 8)) 32

/-- A 32-bit read (R6, R9, R63). SEQ_STATUS shows what holds when it is read (Table 5-11). -/
def Mdl.read32 (s : Mdl) (a : Nat) : Nat × Mdl :=
  if s.deadWindow a then (0, s)
  else if 0x14000 ≤ a ∧ a < 0x16000 then (bankWord s.activeTable (a - 0x14000), s)
  else if 0x16000 ≤ a ∧ a < 0x18000 then (bankWord s.shadowTable (a - 0x16000), s)
  else if 0x21000 ≤ a ∧ a < 0x22000 then (s.optWord (a - 0x21000), s)
  else match Reg.find a with
    | none => (0, s)
    | some (r, b) =>
      if r.name == "EYE_DATA" then
        let w := windowOf a
        s.eyeRead w.1 w.2 ((a % 0x2000 - 0x1100) / 4)
      else match s.view b with
        | some x => (bits x (8 * (a - b)) 32, s)
        | none =>
          let w := windowOf a
          if r.name == "SEQ_STATUS" then (((fieldsAt a).foldl (fun n f => n + ((s.showSeq w.1 w.2).readField a f).1) 0), s)
          else
          let q := (fieldsAt a).foldl (fun (q : Nat × Mdl) f =>
            let z := q.2.readField a f
            (q.1 + z.1, z.2)) (0, s)
          if r.name == "EYE_STATUS" then (q.1 + 4 * b2n (s.flag Reg.SVC_STATUS_DEBUG), q.2) else q

/-- Registers that show counts as they stand when they are read: the backlogs (R420, R421), and what the translation layer's tables hold. -/
def Mdl.refreshAt (s : Mdl) (a : Nat) : Mdl :=
  if 0x70000 ≤ a ∧ a < 0x70200 then (List.range 16).foldl (fun (s : Mdl) c => s.showBacklog c) s
  else if 0xA0000 ≤ a ∧ a < 0xA1000 then s.showFtl
  else s

/-- A read of BAR2: what it returns and its effect. -/
def Mdl.busRead (s : Mdl) (a : Nat) (wide : Bool) : Mdl :=
  let n := if wide then 8 else 4
  let fresh := s.refreshAt a
  if a % n ≠ 0 then s.emit (.read (2 ^ (8 * n) - 1) n)
  else if !wide then
    let q := fresh.read32 a
    q.2.emit (.read q.1 4)
  else
    let q := fresh.read32 a
    let z := q.2.read32 (a + 4)
    z.2.emit (.read (q.1 + z.1 * 2 ^ 32) 8)

/-- An access of another width or alignment (R11). -/
def Mdl.badAccess (s : Mdl) (bytes : Nat) (write : Bool) : Mdl :=
  if write then s else s.emit (.read (2 ^ (8 * bytes) - 1) bytes)

/-! ### Commands that are register writes -/

/-- What a register write does: one that reaches a running module before it is ready is ignored (R662). -/
def Mdl.onBus (s : Mdl) (f : Mdl → Mdl) : Mdl := if s.powered && decide (2 ≤ s.stage) then f s else s

/-- A command's effect on the module, whatever its power; the queue stays. -/
def State.always (s : State) (f : Mdl → Mdl) : State := { s with toMdl := f s.toMdl }

/-- A command's effect on a module that runs; the queue stays. -/
def State.whenOn (s : State) (f : Mdl → Mdl) : State := s.always fun m => m.whenOn f

/-- A register write's effect on a module that runs and is ready; the queue stays. -/
def State.onBus (s : State) (f : Mdl → Mdl) : State := s.always fun m => m.onBus f

/-- SHADOW_BANK_WRITE: a write of the shadow bank, SHADOW_LEN or SWAP_EPOCH. -/
def Mdl.shadowAccess (s : Mdl) (a : Nat) (wide : Bool) (v : Nat) : Mdl :=
  if (0x16000 ≤ a ∧ a < 0x18000) ∨ a / 8 * 8 = Reg.EPH_SWAP_EPOCH_SWAP_EPOCH.addr ∨ a = Reg.EPH_CYCLE_SHADOW_LEN.addr then s.busWrite a wide v else s

/-- COUPLED_FIELD_WRITE: a write that covers fields of a group. -/
def Mdl.coupledAccess (s : Mdl) (a : Nat) (wide : Bool) (v : Nat) : Mdl :=
  if (coupledAt a).isSome then s.busWrite a wide v else s

/-- A write of EYE_CTRL: ignored unless the cluster is in service (R62, R63). -/
def Mdl.eyeAccess (s : Mdl) (d c : Nat) (f : Mdl → Mdl) : Mdl :=
  if s.deadWindow (Reg.EYE_CTRL_HALT d c).addr || s.spareWindow (Reg.EYE_CTRL_HALT d c).addr then s else f s

/-! ### Commands with two forms -/

/-- CORE_CLUSTER_FAULT: of a core, or of a whole cluster (R41). -/
def Mdl.coreOrCluster (s : Mdl) (d c : Nat) (core : Option Nat) (kind : Nat) : Mdl := match core with
  | some k => s.coreFault d c k kind []
  | none => s.clusterFault d c kind []

/-- DEMAND_PROMOTION (R337, R362): an access of a cluster on die `cause`, by a macro-operation of layer `layer`, or another access, meets a
far page, which gets a frame and joins the Coudé path; one that is not far, or that gets no frame, stays as it is. -/
def Mdl.demandCommand (s : Mdl) (a p : Nat) (cause : Option Nat) (layer : Option (Nat × Nat)) : Mdl :=
  (s.awaitPage ⟨cause, none, layer, 0, .page⟩ a p).getD s

/-- What waits for pages or remote bytes goes on: requests of other modules, host window accesses, host commands and step builds (R328, R347). -/
def Mdl.accessesGoOn (s : Mdl) : Mdl := s.serveKept.windowRetry.proceed.buildsGoOn

/-- A response of another module, or a time-out, has come: what waited for it goes on. -/
def Mdl.answersGoOn (s : Mdl) : Mdl := s.tierSettle.accessesGoOn

/-- A message arrives that may end what other things wait for; they go on (R328, R347, R642). -/
def Mdl.answerIn (s : Mdl) (n : Nat) (m : LMsg) : Mdl := if s.linkActive n then (s.deliver n m 0 0).answersGoOn else s

/-- A flit arrives, and what waited for its messages goes on. -/
def Mdl.flitIn (s : Mdl) (n : Nat) (f : Flit) (t ns : Nat) : Mdl := if s.linkActive n then (s.flitReceive n f t ns).answersGoOn else s

/-- MEMBER_HEARTBEAT_MISS (R642): the master marks a member lost, and what waited for it goes on. -/
def Mdl.memberLost (s : Mdl) (m : Nat) : Mdl := if s.isMaster then (s.memberMiss m).answersGoOn else s

/-- COUDE_READ_DONE (R337, R363): the page read at the head of the Coudé path reaches HBM, and what waits for it goes on. -/
def Mdl.coudeDone (s : Mdl) : Mdl := s.coudeReadDone.accessesGoOn

/-- FAR_WRITE_DONE (R340, R525): a page's far write ends, and what waits for its frame goes on. -/
def Mdl.farWriteDone (s : Mdl) (a p : Nat) : Mdl := (s.farWriteEnd a p).accessesGoOn

/-- MERGE (R523): a merge of a unit starts when one is due. -/
def Mdl.mergeCommand (s : Mdl) (u : Nat) : Mdl := if s.mergeDue u then s.startMerge u false else s

/-- NAMESPACE_CREATE (R574, R575, R592). -/
def Mdl.createNs (s : Mdl) (cid ctl : Nat) (x : NsSpec) : Mdl := match x with
  | .nvm blocks cls => s.submit ⟨cid, ctl, .create false blocks cls⟩
  | .zoned blocks cls => s.submit ⟨cid, ctl, .create true blocks cls⟩
  | .memory acct base size => s.createMemory cid ctl acct base size

/-- A message as a row of its TYPE carries it. -/
def typed (type : Nat) (m : LMsg) : LMsg := { m with type := type }

/-- A message of a TYPE whose first data byte is its OP (Tables 13-6, 13-9). -/
def opTyped (type op : Nat) (m : LMsg) : LMsg := { m with type := type, data := BitVec.ofNat 8 op :: m.data.drop 1 }

end Sys2Proof.Machine
end

