-- ==== Sys2Proof/Machine/AccessCommands.lean ====
section
/-! DEFINITION. The host window, security, SPDM, NVMe-MI and the CXL mailbox (R566 to R569, R606 to R609, R699 to R703). -/
namespace Sys2Proof.Machine

/-- HOST_WINDOW_READ (R567): A BAR4 or CXL.mem read is served according to its page state. -/
def execHostWindowRead (addr : Nat) (n : Nat) (s : State) : Host.Outcome State Fault Refusal := .next (s.whenOn fun s => s.windowRead addr n)

/-- HOST_WINDOW_WRITE (R567): A BAR4 or CXL.mem write maps, serves or drops according to its page state. -/
def execHostWindowWrite (addr : Nat) (data : List Byte) (s : State) : Host.Outcome State Fault Refusal :=
  .next (s.whenOn fun s => s.windowWrite addr data)

/-- HOST_WINDOW_TIMEOUT (R568): A host window access not complete in 10 ms ends with Completer Abort or a dropped write. -/
def execHostWindowTimeout (s : State) : Host.Outcome State Fault Refusal := .next (s.whenOn fun s => s.windowTimeout)

/-- SECURITY_NONCE (R699): security Receive SP 0x0001 returns a fresh 32-byte nonce. -/
def execSecurityNonce (cid : Nat) (ctl : Nat) (s : State) : Host.Outcome State Fault Refusal := .next (s.whenOn fun s => s.securityNonce cid ctl)

/-- DEBUG_UNLOCK (R701): security Send SP 0x0001 grants a debug unlock or refuses it. -/
def execDebugUnlock (cid : Nat) (ctl : Nat) (block : List Byte) (s : State) : Host.Outcome State Fault Refusal :=
  .next (s.whenOn fun s => s.debugUnlock cid ctl block)

/-- DEBUG_UNLOCK_RELEASE (R701): security Send SP 0x0003 releases the debug unlock. -/
def execDebugUnlockRelease (cid : Nat) (ctl : Nat) (s : State) : Host.Outcome State Fault Refusal := .next (s.whenOn fun s => s.debugRelease cid ctl)

/-- OWNERSHIP_RELEASE (R703): A vendor-signed release block crypto-erases and returns the module to unclaimed. -/
def execOwnershipRelease (cid : Nat) (ctl : Nat) (block : List Byte) (s : State) : Host.Outcome State Fault Refusal :=
  .next (s.whenOn fun s => s.ownerRelease cid ctl block)

/-- GET_VERSION (R607): SPDM GET_VERSION returns the supported versions. -/
def execGetVersion (s : State) : Host.Outcome State Fault Refusal := .next (s.whenOn fun s => s.getVersion)

/-- GET_CAPABILITIES (R607): SPDM GET_CAPABILITIES returns the responder's capabilities. -/
def execGetCapabilities (s : State) : Host.Outcome State Fault Refusal := .next (s.whenOn fun s => s.getCapabilities)

/-- NEGOTIATE_ALGORITHMS (R607): SPDM NEGOTIATE_ALGORITHMS fixes the algorithms. -/
def execNegotiateAlgorithms (s : State) : Host.Outcome State Fault Refusal := .next (s.whenOn fun s => s.negotiate)

/-- GET_DIGESTS (R607): SPDM GET_DIGESTS returns certificate chain digests. -/
def execGetDigests (s : State) : Host.Outcome State Fault Refusal := .next (s.whenOn fun s => s.getDigests)

/-- GET_CERTIFICATE (R607): SPDM GET_CERTIFICATE returns the slot 0 identity certificate. -/
def execGetCertificate (slot : Nat) (s : State) : Host.Outcome State Fault Refusal := .next (s.whenOn fun s => s.getCertificate slot)

/-- CHALLENGE (R607): SPDM CHALLENGE returns a signed challenge response. -/
def execChallenge (nonce : Nat) (s : State) : Host.Outcome State Fault Refusal := .next (s.whenOn fun s => s.challenge nonce)

/-- GET_MEASUREMENTS (R607): SPDM GET_MEASUREMENTS returns measurement blocks, or ResponseNotReady before the chart is in force. -/
def execGetMeasurements (index : Nat) (s : State) : Host.Outcome State Fault Refusal := .next (s.whenOn fun s => s.getMeasurements index)

/-- KEY_EXCHANGE (R607): SPDM KEY_EXCHANGE starts a secure session. -/
def execKeyExchange (session : Nat) (s : State) : Host.Outcome State Fault Refusal := .next (s.whenOn fun s => s.keyExchange session)

/-- FINISH (R607): SPDM FINISH completes session establishment. -/
def execFinish (session : Nat) (s : State) : Host.Outcome State Fault Refusal := .next (s.whenOn fun s => s.finishSession session)

/-- END_SESSION (R607): SPDM END_SESSION ends a session. -/
def execEndSession (session : Nat) (s : State) : Host.Outcome State Fault Refusal := .next (s.whenOn fun s => s.endSession session)

/-- READ_NVME_MI_DATA_STRUCTURE (R606): NVMe-MI returns a data structure. -/
def execReadNvmeMiDataStructure (type : Nat) (s : State) : Host.Outcome State Fault Refusal := .next (s.always fun s => s.miData type)

/-- SUBSYSTEM_HEALTH_STATUS_POLL (R606): NVMe-MI returns subsystem health. -/
def execSubsystemHealthStatusPoll (s : State) : Host.Outcome State Fault Refusal := .next (s.always fun s => s.miHealth)

/-- CONTROLLER_HEALTH_STATUS_POLL (R606): NVMe-MI returns controller health. -/
def execControllerHealthStatusPoll (ctl : Nat) (s : State) : Host.Outcome State Fault Refusal := .next (s.always fun s => s.miController ctl)

/-- CONFIGURATION_GET (R606): NVMe-MI Configuration Get returns a configuration value. -/
def execConfigurationGet (id : Nat) (s : State) : Host.Outcome State Fault Refusal := .next (s.always fun s => s.miGet id)

/-- CONFIGURATION_SET (R606): NVMe-MI Configuration Set sets a configuration value. -/
def execConfigurationSet (id : Nat) (value : Nat) (s : State) : Host.Outcome State Fault Refusal := .next (s.always fun s => s.miSet id value)

/-- VPD_READ (R606): NVMe-MI VPD Read returns identity data. -/
def execVpdRead (mem : Machine.IdMem) (off : Nat) (n : Nat) (s : State) : Host.Outcome State Fault Refusal :=
  .next (s.always fun s => s.vpdRead mem off n)

/-- TUNNELLED_ADMIN_COMMAND (R606): A tunnelled admin command runs, or fails with Admin Command Media Not Ready before ready. -/
def execTunnelledAdminCommand (command : Tunnel) (s : State) : Host.Outcome State Fault Refusal := .next (s.always fun s => s.tunnelled command)

/-- IDENTIFY_MEMORY_DEVICE (R609): the CXL mailbox returns memory device identity. -/
def execIdentifyMemoryDevice (s : State) : Host.Outcome State Fault Refusal := .next (s.whenOn fun s => s.cxlIdentify)

/-- GET_HEALTH_INFO (R609): the CXL mailbox returns health information. -/
def execGetHealthInfo (s : State) : Host.Outcome State Fault Refusal := .next (s.whenOn fun s => s.cxlHealth)

/-- GET_SUPPORTED_LOGS (R609): the CXL mailbox lists the supported logs. -/
def execGetSupportedLogs (s : State) : Host.Outcome State Fault Refusal := .next (s.whenOn fun s => s.cxlLogs)

/-- GET_LOG (R609): the CXL mailbox returns the Command Effects Log. -/
def execGetLog (s : State) : Host.Outcome State Fault Refusal := .next (s.whenOn fun s => s.cxlGetLog)

/-- GET_EVENT_RECORDS (R609): the CXL mailbox returns event records. -/
def execGetEventRecords (s : State) : Host.Outcome State Fault Refusal := .next (s.whenOn fun s => s.cxlEvents)

/-- CLEAR_EVENT_RECORDS (R609): the CXL mailbox clears event records. -/
def execClearEventRecords (n : Nat) (s : State) : Host.Outcome State Fault Refusal := .next (s.whenOn fun s => s.cxlClear n)

/-- GLOBAL_PERSISTENT_FLUSH (R609): GPF is acknowledged with nothing to flush. -/
def execGlobalPersistentFlush (s : State) : Host.Outcome State Fault Refusal := .next (s.whenOn fun s => s.persistentFlush)

end Sys2Proof.Machine
end

