-- ==== Sys2Proof/Machine/BusCommands.lean ====
section
/-! DEFINITION. BAR2 accesses and the commands that a register write or the host port gives at once (R6 to R11, R27, R561 to R564, R570). -/
namespace Sys2Proof.Machine

/-- REGISTER_WRITE (R6): A BAR2 register write to a register with no row of its own sets, clears or ignores fields according to each field's
access type. -/
def execRegisterWrite (addr : Nat) (wide : Bool) (value : Nat) (s : State) : Host.Outcome State Fault Refusal :=
  .next (s.whenOn fun s => s.busWrite addr wide value)

/-- READ_CLEAR_REGISTER_READ (R6): A read of an RC field returns its value and then clears it to zero. -/
def execReadClearRegisterRead (addr : Nat) (wide : Bool) (s : State) : Host.Outcome State Fault Refusal :=
  .next (s.whenOn fun s => s.busRead addr wide)

/-- BAR2_BAD_ACCESS (R11): A BAR2 access of the wrong width or alignment completes without effect, and a read returns all ones. -/
def execBar2BadAccess (bytes : Nat) (write : Bool) (s : State) : Host.Outcome State Fault Refusal := .next (s.whenOn fun s => s.badAccess bytes write)

/-- PERST_ASSERT (R27): PERST# resets the whole host port. -/
def execPerstAssert (s : State) : Host.Outcome State Fault Refusal := .next (s.whenOn fun s => s.perstAssert)

/-- PERST_DEASSERT (R563): PERST# is released, and configuration space finishes loading within 100 ms, after which configuration requests stop
receiving Request Retry Status. -/
def execPerstDeassert (s : State) : Host.Outcome State Fault Refusal := .next (s.whenOn fun s => s.perstDeassert)

/-- PORT_HOT_RESET (R564): A hot reset resets the NVMe controllers of one port; executions run on and their completions are discarded. -/
def execPortHotReset (port : Port) (s : State) : Host.Outcome State Fault Refusal := .next (s.whenOn fun s => s.portReset port)

/-- FUNCTION_LEVEL_RESET (R564): an FLR resets the NVMe controller of one function. -/
def execFunctionLevelReset (ctl : Nat) (s : State) : Host.Outcome State Fault Refusal := .next (s.whenOn fun s => s.functionReset ctl)

/-- CONFIG_REQUEST (R563): A PCIe configuration request completes with Request Retry Status until configuration space is loaded. -/
def execConfigRequest (fn : Nat) (s : State) : Host.Outcome State Fault Refusal := .next (s.whenOn fun s => s.configRequest fn)

/-- D3HOT_ENTRY (R562): entering D3hot acts on the function's controller as an NVMe shutdown notification. -/
def execD3hotEntry (fn : Nat) (s : State) : Host.Outcome State Fault Refusal := .next (s.whenOn fun s => s.d3hot fn)

/-- SHUTDOWN_NOTIFICATION (R101): an NVMe shutdown programs and erases flash regardless of windows and writes a checkpoint. -/
def execShutdownNotification (ctl : Nat) (s : State) : Host.Outcome State Fault Refusal := .next (s.whenOn fun s => s.shutdown ctl)

/-- CONTROLLER_ENABLE (R662): CC.EN is set, and CSTS.RDY rises only once the NVMe gate has opened. -/
def execControllerEnable (ctl : Nat) (s : State) : Host.Outcome State Fault Refusal := .next (s.whenOn fun s => s.controllerEnable ctl)

end Sys2Proof.Machine
end

