-- ==== Sys2Proof/Machine/Search.lean ====
section
/-! DEFINITION. How search batches run: the Finder, the sweeps, the traversals, the selection and the result blocks (R444 to R466). -/
namespace Sys2Proof.Machine

/-! ### Scores (R444 to R448) -/

/-- An exact quotient, good to be rounded once to any format of this part: 96 further bits and a sticky bit. -/
def Num.div : Num → Num → Num
  | .fin s m e, .fin t n f =>
    if n = 0 then .nan
    else
      let q := m * 2 ^ 96 / n
      .fin (s != t) (2 * q + b2n (m * 2 ^ 96 % n != 0)) (e - f - 97)
  | .inf s, .fin t _ _ => .inf (s != t)
  | _, _ => .nan

/-- A sum of terms as it is formed in FP32: the value `z`, where it is no further from the exact sum than the roundings of the terms and of the
partial sums can take it in whatever order; elsewhere the exact sum rounded once (DEDUCED, assumption log entry 23). -/
def roundedSum (z : F32) (ps : List Num) : F32 :=
  let sizes := ps.map fun x => match x with
    | .fin _ m e => .fin false m e
    | x => x
  match z.num, exactSum ps, exactSum sizes with
  | .fin s m e, .fin t n f, .fin _ u g =>
    let low := min (min e f) (min g (-126))
    let scaled := fun (neg : Bool) (m : Nat) (e : Int) => signed neg m * 2 ^ (e - low).toNat
    let off := (scaled s m e - scaled t n f).natAbs
    if off * 2 ^ 23 ≤ (ps.length + 3) * ((scaled false u g).natAbs + 2 ^ (-126 - low).toNat) then z else runValue true ps 0
  | _, _, _ => runValue true ps 0

/-- A query as its catalogue scores it: FP32 elements, the shared operand's bytes, scale and bias of the drain. -/
structure QueryVec where
  elems : List F32
  bytes : List Byte
  scale : F32
  bias : F32
  deriving DecidableEq, Repr

/-- The FP32 elements of a query. -/
def Mdl.queryElems (s : Mdl) (i : CatImage) (addr : Nat) : List F32 :=
  (List.range i.dim).map fun p => f32Of (s.memNat i.acct (addr + 32 + 4 * p) 4)

/-- A PQ4 query's table (R446): entries 16 s + c, its step and the sum of the lows. A distance of sub-vectors is a free value within its roundings. -/
def Mdl.pqTable (s : Mdl) (i : CatImage) (q : List F32) : List Byte × F32 × F32 :=
  let n := i.subDim
  let d := fun sub c =>
    let e := (q.drop (sub * n)).take n
    let code := (List.range n).map fun p => s.memNat i.acct (i.at_ 5 + 2 * ((16 * sub + c) * n + p)) 2
    let eq := fun p => (e.getD p F32.zero).num
    let ec := fun p => Fmt.fp16.elem (code.getD p 0)
    roundedSum (f32Of (Config.subDistance i.metric e code).toNat) (if i.metric = 1 then squares eq ec 0 n n else products eq ec 0 n n)
  let lo := fun sub => (List.range 16).foldl (fun m c => F32.min m (d sub c)) (d sub 0)
  let hi := fun sub => (List.range 16).foldl (fun m c => F32.max m (d sub c)) (d sub 0)
  let subs := List.range i.subs
  let span := subs.foldl (fun m sub => F32.max m (F32.sub (hi sub) (lo sub))) F32.zero
  let delta := if span.mag = 0 then F32.one else F32.ofNum (Num.div span.num (.fin false 255 0))
  let entry := fun sub c => min 255 (convInt 10 .rne (Num.div (F32.sub (d sub c) (lo sub)).num delta.num)).bits
  (subs.flatMap fun sub => (List.range 16).map fun c => BitVec.ofNat 8 (entry sub c), delta,
    F32.ofNum (exactSum (subs.map fun sub => (lo sub).num)))

/-- Prepare a query (R445 to R447). -/
def Mdl.queryVec (s : Mdl) (i : CatImage) (addr : Nat) : QueryVec :=
  if i.code = 3 then ⟨[], s.memRead i.acct (addr + 32) i.codeBytes, F32.one, F32.zero⟩
  else
    let q := s.queryElems i addr
    if i.code = 1 then
      let t := s.pqTable i q
      ⟨q, t.1, t.2.1, t.2.2⟩
    else match i.fmt with
      | .int8 => ⟨q, q.map fun x => BitVec.ofNat 8 (convInt 8 .rne (Num.div x.num i.vecScale.num)).bits, F32.mul i.vecScale i.vecScale, F32.zero⟩
      | .e4m3 => ⟨q, q.map fun x => BitVec.ofNat 8 (convE4M3 false .rne (Num.div x.num i.vecScale.num)).bits, F32.mul i.vecScale i.vecScale, F32.zero⟩
      | f => ⟨q, q.flatMap fun x => leBytes 2 (convert f false .rne x).bits, F32.one, F32.zero⟩

/-- The score of the code at an address (R181, R445 to R447). -/
def Mdl.codeScore (s : Mdl) (i : CatImage) (v : QueryVec) (addr : Nat) : F32 :=
  let item := fun o => s.mem.read (memKey i.acct (addr + o))
  let query := fun o => v.bytes.getD o 0
  match i.code with
  | 1 => F32.add (F32.mul (distanceOf 3 .int8 i.codeBytes item query) v.scale) v.bias
  | 3 => distanceOf 2 .int8 i.codeBytes item query
  | _ =>
    let y := distanceOf i.metric i.fmt i.codeBytes item query
    if i.fmt = .int8 ∨ i.fmt = .e4m3 then F32.mul y v.scale else y

/-- The squared norm of a query (R447): a free value within its roundings. -/
def QueryVec.norm (v : QueryVec) : F32 :=
  let n := v.elems.length
  let e := fun p => (v.elems.getD p F32.zero).num
  roundedSum (f32Of (Config.queryNorm v.elems).toNat) (products e e 0 n n)

/-- The score of a GRAPH node (R447). -/
def Mdl.nodeScore (s : Mdl) (i : CatImage) (v : QueryVec) (o : Nat) : F32 :=
  let item := fun k => s.mem.read (memKey i.acct (i.at_ 6 + o * i.vecStride + k))
  let query := fun k => v.bytes.getD k 0
  let y := distanceOf 0 i.fmt i.codeBytes item query
  let y := if i.fmt = .fp16 then y else F32.mul y v.scale
  if i.metric = 1 then
    F32.add (F32.sub v.norm (F32.mul (f32Of 0x40000000) y)) (f32Of (s.memNat i.acct (i.at_ 7 + 4 * o) 4))
  else y

/-- The Finder's score of a centroid (R448): MMA in CENT_FMT, for L2 scaled by -2 and biased by its norm. How a BIN query meets a
centroid is not stated: a free value (assumption log entry 23). -/
def Mdl.centroidScore (s : Mdl) (i : CatImage) (v : QueryVec) (l : Nat) : F32 :=
  if i.code = 3 then f32Of (Config.freeValue (s.free + l) % 2 ^ 32)
  else
    let f := i.cent
    let q := v.elems.map fun x => (convert f false .rne x).bits
    let row := fun o => s.mem.read (memKey i.acct (i.at_ 0 + l * (2 * i.dim) + o))
    let y := (sumRuns false (fun p => f.elem (q.getD p 0)) (f.elemAt row i.dim) (fun _ => 0) i.dim (ceilDiv i.dim 32) 0 none).getD F32.zero
    if i.metric = 1 then F32.add (F32.mul y (f32Of 0xC0000000)) (f32Of (s.memNat i.acct (i.at_ 1 + 4 * l) 4)) else y

/-! ### Running a query -/

/-- What a query runs under: accessor, catalogue and image of its snapshot, descriptor, snapshot epoch, whether the order of ties
is unspecified (R264), and the lists that the Finder has found. -/
structure CatRun where
  w : Accessor
  x : CatSt
  i : CatImage
  b : Batch
  snap : Nat
  unspec : Bool
  lists : List Nat
  deriving DecidableEq, Repr

/-- A query under way: the scores offered to each partial list, that of the newest list first (R460), and its counts (Table 9-9). -/
structure QueryRun where
  s : Mdl
  parts : List (List SelIn)
  filtered : Nat
  deleted : Nat
  scanned : Nat
  visits : Nat
  cut : Bool
  deriving DecidableEq, Repr

/-- What a step of a query comes to. -/
abbrev CatStep (α : Type) := Except (WalkEnd × Mdl) α

/-- Go through a list while nothing ends the run. -/
def foldStep {α β : Type} (f : β → α → CatStep β) : β → List α → CatStep β
  | b, [] => .ok b
  | b, a :: t => match f b a with
    | .ok b => foldStep f b t
    | .error e => .error e

/-- The run's accesses to a range of its account. -/
def Mdl.catTouch (s : Mdl) (r : CatRun) (addr n : Nat) (write : Bool) : Run :=
  s.ranTo r.i.acct (s.access r.w r.i.acct addr n write)

/-- An item's filter bit (R453, R454). -/
def Mdl.allowed (s : Mdl) (r : CatRun) (q : Query) (o : Nat) : Bool :=
  if q.filter = 0xFF then true
  else
    let a := r.i.acct
    let ops := s.filterOps a r.b q.filter
    let value := fun (p : FilterOp) =>
      if p.form = 0 then bit (s.memNat a (p.addr + o / 8) 1) (o % 8)
      else bit (s.memNat a (p.addr + 8 * (o * p.words + p.bit / 64)) 8) (p.bit % 64)
    let n := (List.range ops.length).foldl (fun n k => n + (match ops[k]? with | some p => b2n (value p) | none => 0) * 2 ^ k) 0
    bit (s.memNat a (r.b.filterAddr + 160 * q.filter + 32) 32) n

/-- The run's reads of several ranges, each an address and a length. -/
def Mdl.catReads (s : Mdl) (r : CatRun) (l : List (Nat × Nat)) : Run := foldRun (fun s p => s.catTouch r p.1 p.2 false) s l

/-- The scores offered to a query. -/
def QueryRun.offered (z : QueryRun) : List SelIn := z.parts.reverse.flatten

/-- Add an input to the partial list in hand. -/
def QueryRun.enter (z : QueryRun) (x : SelIn) : QueryRun := match z.parts with
  | p :: t => { z with parts := (p ++ [x]) :: t }
  | [] => { z with parts := [[x]] }

/-- Offer a scored item (R454, R456, R462): its bitmap page is read, and its item ID when it is allowed. -/
def QueryRun.offer (r : CatRun) (q : Query) (z : QueryRun) (o : Nat) (y : F32) : CatStep QueryRun :=
  match z.s.catReads r [(r.x.bitmapAddr r.i (o / 32768) r.snap, 4096)] with
  | .error e => .error e
  | .ok s =>
    let z := { z with s := s, scanned := z.scanned + 1 }
    if !s.live r.x r.i r.snap o then .ok { z with deleted := z.deleted + 1 }
    else if !s.allowed r q o then .ok { z with filtered := z.filtered + 1 }
    else match s.catReads r [(r.i.at_ 10 + 8 * o, 8)] with
      | .error e => .error e
      | .ok s =>
        let tie := if r.unspec then Config.freeValue s.free % 2 ^ 32 * 2 ^ 32 + o else o
        .ok ({ z with s := if r.unspec then { s with free := s.free + 1 } else s }.enter ⟨y.toNat, keyOrd y, o, s.itemId r.i o, tie⟩)

/-- The codes of a list for one query (R425, R449, R456): a partial list of its own. -/
def QueryRun.sweepList (r : CatRun) (q : Query) (v : QueryVec) (z : QueryRun) (l : Nat) : CatStep QueryRun :=
  let i := r.i
  let e := z.s.catList i l
  match z.s.catReads r [(i.at_ 2 + 16 * l, 16), (i.at_ 3 + e.1 * i.codeBytes, e.2 * i.codeBytes), (i.at_ 4 + 4 * e.1, if i.kind = 1 then 4 * e.2 else 0)] with
  | .error e => .error e
  | .ok s => foldStep (fun (z : QueryRun) k =>
      let o := if i.kind = 1 then z.s.memNat i.acct (i.at_ 4 + 4 * (e.1 + k)) 4 else e.1 + k
      QueryRun.offer r q z o (z.s.codeScore i v (i.at_ 3 + (e.1 + k) * i.codeBytes)))
    { z with s := s, parts := [] :: z.parts, visits := z.visits + 1 } (List.range e.2)

/-- The lists a query visits (R448, R449). -/
def Mdl.visited (s : Mdl) (i : CatImage) (q : Query) (v : QueryVec) : List Nat :=
  if i.kind = 3 then List.range i.lists
  else
    let ins := (List.range i.lists).map fun l =>
      let y := s.centroidScore i v l
      SelIn.mk y.toNat (keyOrd y) l l l
    (select i.smallest false (q.probes i) ins).best.map (·.pos)

/-- A beam of a traversal: entries with their expanded marks, in rank order (R457). -/
abbrev Beam := List (SelIn × Bool)

/-- Offer a node to the beam of width `ef`. -/
def Beam.offer (smallest : Bool) (ef : Nat) (b : Beam) (x : SelIn) : Beam :=
  if x.ord.isNone then b
  else
    let above := b.takeWhile fun y => !x.above smallest y.1
    (above ++ [(x, false)] ++ b.drop above.length).take ef

/-- The best unexpanded entry of a beam. -/
def Beam.next (b : Beam) : Option SelIn := (b.find? fun x => !x.2).map (·.1)
/-- Mark an entry expanded. -/
def Beam.expand (b : Beam) (o : Nat) : Beam := b.map fun x => if x.1.pos = o then (x.1, true) else x

/-- A traversal: the query's run, the beam, the nodes visited. -/
structure Walk where
  z : QueryRun
  beam : Beam
  seen : List Nat
  deriving DecidableEq, Repr

/-- Score a node that has not been visited (R457, R458); an entry point counts as visited once it is scored (DEDUCED, assumption log entry 22). -/
def Walk.visit (r : CatRun) (q : Query) (v : QueryVec) (t : Walk) (o : Nat) : CatStep Walk :=
  if o = 0xFFFFFFFF ∨ t.seen.contains o then .ok t
  else
    let i := r.i
    match t.z.s.catReads r [(i.at_ 6 + o * i.vecStride, i.codeBytes), (i.at_ 7 + 4 * o, if i.metric = 1 then 4 else 0)] with
    | .error e => .error e
    | .ok s =>
      let y := s.nodeScore i v o
      (QueryRun.offer r q { t.z with s := s } o y).map fun z =>
        { z := z, beam := t.beam.offer i.smallest q.probe ⟨y.toNat, keyOrd y, o, o, o⟩, seen := o :: t.seen }

/-- The hops of a traversal (R457); `n` hops are left. -/
def Walk.hops (r : CatRun) (q : Query) (v : QueryVec) : Nat → Walk → CatStep Walk
  | 0, t => .ok { t with z := { t.z with cut := t.beam.next.isSome } }
  | n + 1, t =>
    match t.beam.next with
    | none => .ok t
    | some c =>
      let i := r.i
      let row := i.at_ 8 + 4 * (c.pos * i.degree)
      match t.z.s.catTouch r row (4 * i.degree) false with
      | .error e => .error e
      | .ok s =>
        let t := { t with z := { t.z with s := s, visits := t.z.visits + 1 }, beam := t.beam.expand c.pos }
        match foldStep (Walk.visit r q v) t ((List.range i.degree).map fun k => s.memNat i.acct (row + 4 * k) 4) with
        | .error e => .error e
        | .ok t => Walk.hops r q v n t

/-- Search one query: the lists found, or the graph. -/
def QueryRun.search (r : CatRun) (q : Query) (v : QueryVec) (z : QueryRun) : CatStep QueryRun :=
  let i := r.i
  if i.kind = 2 then
    match z.s.catReads r [(i.at_ 9, 4 * i.entryCount)] with
    | .error e => .error e
    | .ok s =>
      let entries := (List.range i.entryCount).map fun k => s.memNat i.acct (i.at_ 9 + 4 * k) 4
      match foldStep (Walk.visit r q v) ⟨{ z with s := s }, [], []⟩ entries with
      | .error e => .error e
      | .ok t => (Walk.hops r q v q.hops t).map (·.z)
  else foldStep (QueryRun.sweepList r q v) z r.lists

/-! ### Re-ranking (R464 to R466) -/

/-- The re-rank store of an image: its namespace. -/
def Mdl.rerankStore (s : Mdl) (i : CatImage) : Option Ns :=
  if i.rrNsid = 0 then none
  else match Table.get none s.host.ns i.rrNsid with
    | some n => if n.kind = .memory then none else some n
    | none => none

/-- A candidate's exact score (R464, R465); none when its read fails. Blocks of a zone beyond its capacity read as zeros (R516). A Hamming
catalogue's exact score over RR_FMT elements is not stated: a free value (assumption log entry 23). -/
def Mdl.exactScore (s : Mdl) (i : CatImage) (n : Ns) (v : QueryVec) (o : Nat) : Option F32 × Mdl :=
  let f := (Fmt.ofCode i.rrFmt).getD .fp32
  let at_ := o * 2 ^ i.rrStrideLog2
  let lba := i.rrLba + at_ / 4096
  let off := at_ % 4096
  let p := n.place lba
  if n.size ≤ lba ∨ 4096 < off + i.dim * f.bytes then (none, s)
  else
    let r : Option Sector × Mdl := if 122880 ≤ p.2 then (some 0, s) else s.hostSector p.1 p.2
    match r.1 with
    | none => (none, r.2)
    | some sec =>
      let e := fun k => f.elem (bits sec.toNat (8 * (off + k * f.bytes)) (8 * f.bytes))
      let q := fun k => (v.elems.getD k F32.zero).num
      match i.metric with
      | 0 => (some (runValue true (products q e 0 i.dim i.dim) 0), r.2)
      | 1 => (some (runValue true (squares q e 0 i.dim i.dim) 0), r.2)
      | _ =>
        let y := r.2.fresh 32
        (some (f32Of y.1), y.2)

/-- Re-rank a query's candidates: the final selection, the candidates dropped, and what is left. -/
def Mdl.rerank (s : Mdl) (r : CatRun) (q : Query) (n : Ns) (v : QueryVec) (l : List SelIn) : Selection × Nat × Mdl :=
  let scored := l.foldl (fun (a : List SelIn × Mdl) c =>
    let y := a.2.exactScore r.i n v c.pos
    (match y.1 with
      | some z => a.1 ++ [{ c with bits := z.toNat, ord := keyOrd z }]
      | none => a.1, y.2)) ([], s)
  (select r.i.smallest false q.k scored.1, l.length - scored.1.length, scored.2)

/-! ### Result blocks (R460 to R463, Table 9-9) -/

/-- Bytes 0x20 to 0x3F of a result block. -/
def CatRun.header (r : CatRun) (qstatus flags filtered deleted scanned visits failed : Nat) : List Byte :=
  let sat := fun w v => leBytes w (min v (2 ^ (8 * w) - 1))
  leBytes 8 r.i.generation ++ leBytes 6 r.snap ++ leBytes 1 qstatus ++ leBytes 1 flags ++ sat 4 filtered ++ sat 4 deleted
    ++ sat 4 scanned ++ sat 2 visits ++ sat 2 failed

/-- Write a query's result bytes. -/
def Mdl.putResult (s : Mdl) (r : CatRun) (q : Query) (l : List Byte) : Run :=
  s.ranTo r.i.acct (s.storeBytes r.w r.i.acct (r.b.resultAddr + q.no * r.b.resultStride) l)

/-- Does a query end with QSTATUS 2 (R441)? -/
def Query.otherGen (q : Query) (b : Batch) (i : CatImage) : Bool := q.filter != 0xFF && b.expectGen != 0 && b.expectGen != i.generation

/-- Does a query visit nothing (R440 to R442)? -/
def Query.idle (q : Query) (b : Batch) (i : CatImage) : Bool := q.refused b i || q.otherGen b i || q.k == 0

/-- What a query reads before it is searched: its record, and its filter's operands over the ordinals of the generation (R453, R455). -/
def Mdl.queryReads (s : Mdl) (r : CatRun) (q : Query) : Run :=
  s.catReads r ((r.b.queryAddr + q.no * r.b.queryStride, 32 + r.i.queryBytes) ::
    if q.filter = 0xFF then [] else (s.filterOps r.i.acct r.b q.filter).map fun o => (o.addr, o.extent r.i.items))

/-- The final selection of a query without re-ranking: its partial lists, each of the best K', are merged, and copies dropped in the merge are counted
(R460, R267). TIE_COUNT and NAN_COUNT count over all that was offered (R463). -/
def QueryRun.selection (z : QueryRun) (smallest : Bool) (q : Query) : Selection × Selection :=
  let merged := select smallest true q.best (z.parts.reverse.flatMap fun p => (select smallest false q.best p).best)
  let all := select smallest true q.k z.offered
  let best := merged.best.take q.k
  (merged, { all with best := best, tieCount := if best.length = q.k then all.tieCount else 0, dup := merged.dup })

/-- One query of a batch: refused, mismatched, empty, or searched (R440 to R442, R460 to R466). -/
def Mdl.runQuery (r : CatRun) (s : Mdl) (n : Nat) : Run :=
  let i := r.i
  let q := s.queryAt i.acct r.b n
  let sm := i.smallest
  let exh := if i.kind = 3 then 2 else 0
  let store := if q.rerank = 0 then none else s.rerankStore i
  let re := store.isSome
  let st := if q.rerank ≠ 0 ∧ !re then 3 else 0
  let head := fun (st fl : Nat) => ((select sm true q.k []).bytes sm false true false 0 (r.header st fl 0 0 0 0 0)).take 64
  if q.refused r.b i then s.putResult r q (head 1 exh)
  else if q.otherGen r.b i then s.putResult r q (head 2 exh)
  else if q.k = 0 then s.putResult r q (head st (b2n re + exh))
  else match s.queryReads r q with
    | .error e => .error e
    | .ok s =>
      let v := s.queryVec i (r.b.queryAddr + q.no * r.b.queryStride)
      match QueryRun.search r q v ⟨s, [], 0, 0, 0, 0, false⟩ with
      | .error e => .error e
      | .ok z =>
        let sel := z.selection sm q
        let fin : Selection × Nat × Mdl := match store with
          | some ns => z.s.rerank r q ns v sel.1.best
          | none => (sel.2, 0, z.s)
        let h := r.header st (b2n re + exh + 4 * b2n z.cut) z.filtered z.deleted z.scanned z.visits fin.2.1
        fin.2.2.putResult r q ({ fin.1 with dup := sel.1.dup, offered := z.offered.length }.bytes sm r.unspec true false 0 h)

/-! ### Planning sweeps (R448, R449) -/

/-- The die that serves a list (R449): its home die, or the nearest catalogue die in ring order. -/
def Mdl.sweepDieOf (s : Mdl) (i : CatImage) (l : Nat) : Option Nat :=
  let page := (i.at_ 3 + (s.catList i l).1 * i.codeBytes) / pageBytes
  let h := (s.logOfDie (s.page i.acct page).pdie).getD 0
  let n := max 1 s.logDies.length
  let dist := fun d => min ((d + n - h) % n) ((h + n - d) % n)
  s.catalogueDies.foldl (fun (b : Option Nat) d => match b with
    | none => some d
    | some e => if dist d < dist e then some d else some e) none

/-- The planner's estimate of a sweep in core-clock cycles (R451), `receiving` cores on the die once it starts. -/
def sweepEstimate (codes bytes receiving : Nat) : Nat := ceilDiv (codes * bytes * max 32 receiving) (32 * 32) + 512

/-- Add a group of a list, up to 64 queries, to the plan: the least loaded cluster of its die, joining a sweep of the list there (R449). -/
def Mdl.planGroup (s : Mdl) (j : Nat) (i : CatImage) (l : Nat) (plan : List Sweep) (group : List Nat) : List Sweep :=
  match s.sweepDieOf i l with
  | none => plan
  | some ld =>
    let d := s.logDies.getD ld 0
    let load := fun c => (plan.filter fun w => w.d == d && w.c == c).foldl (fun n w => n + sweepEstimate w.codes w.bytes 0) 0
    let best := (s.catalogueClusters d).foldl (fun (b : Option Nat) c => match b with
      | none => some c
      | some e => if load c < load e then some c else some e) none
    match best with
    | none => plan
    | some c =>
      if plan.any (fun w => w.d == d && w.c == c && w.list == l && decide (w.groups < s.catalogueCores d c)) then
        plan.map fun w => if w.d = d ∧ w.c = c ∧ w.list = l ∧ w.groups < s.catalogueCores d c then
          { w with groups := w.groups + 1, members := w.members ++ group }
        else w
      else plan ++ [{ job := j, d := d, c := c, list := l, groups := 1, members := group
                      codes := (s.catList i l).2, bytes := i.codeBytes, held := false, split := false }]

/-- Put a list, with its COUNT, into the order of R449: descending COUNT, then ascending list. -/
def insertList (x : Nat × Nat) : List (Nat × Nat) → List (Nat × Nat)
  | [] => [x]
  | y :: t => if y.2 < x.2 ∨ (y.2 = x.2 ∧ x.1 < y.1) then x :: y :: t else y :: insertList x t

/-- The sweeps of a batch (R449), from the lists that the Finder has found for each query. -/
def Mdl.planSweeps (s : Mdl) (i : CatImage) (j : Nat) (found : List (Nat × List Nat)) : List Sweep :=
  let visit := fun l => (found.filter fun q => q.2.contains l).map (·.1)
  let order := ((List.range i.lists).filter fun l => !(visit l).isEmpty).foldl (fun a l => insertList (l, (s.catList i l).2) a) []
  order.foldl (fun plan p =>
    let g := visit p.1
    ((List.range (ceilDiv g.length 64)).map fun k => (g.drop (64 * k)).take 64).foldl (fun plan m => s.planGroup j i p.1 plan m) plan) []

/-- The lists of every query that visits any (R448, R449). -/
def Mdl.finderOutput (s : Mdl) (r : CatRun) : List (Nat × List Nat) × Mdl :=
  (List.range r.b.queries).foldl (fun (a : List (Nat × List Nat) × Mdl) n =>
    let s := a.2
    let q := s.queryAt r.i.acct r.b n
    if r.i.kind = 2 ∨ q.idle r.b r.i then a
    else
      let l := s.visited r.i q (s.queryVec r.i (r.b.queryAddr + n * r.b.queryStride))
      (a.1 ++ [(n, l)], if r.i.kind = 1 ∧ r.i.code = 3 then { s with free := s.free + r.i.lists } else s)) ([], s)

/-- What is read before sweeps are planned: the query records, the filter table, and, as the kind has them, centroids, their norms, list directory and
codebook. -/
def CatRun.finderAreas (r : CatRun) : List (Nat × Nat) :=
  let i := r.i
  let area := fun (k : Nat) => (i.at_ k, if i.required.contains k then i.sectionBytes 0 k else 0)
  [(r.b.queryAddr, r.b.queries * r.b.queryStride), (r.b.filterAddr, 160 * r.b.filters), area 0, area 1, area 2, area 5]

/-! ### A batch as a whole (R439, Table 9-7) -/

/-- A running batch, and what its queries run under. -/
def Mdl.catRun (s : Mdl) (n j : Nat) : Option (CatBatch × CatRun) :=
  match s.job j, (s.cat n).batch j with
  | some y, some t => ((s.cat n).imageAt t.epoch).map fun a =>
    (t, { w := ⟨none, some j, none, s.reg (Reg.SCH_CLASS_TRAFFIC y.cls), .job j⟩, x := s.cat n, i := s.catImage y.acct a, b := Batch.of y.params
          snap := t.epoch, unspec := false, lists := [] })
  | _, _ => none

/-- A batch goes no further: it waits for what an access of it waits for, from the state before, or its job takes the status (Table 9-7, R233). -/
def Mdl.batchStops (s : Mdl) (r : CatRun) (n j : Nat) (e : WalkEnd × Mdl) : Mdl :=
  let a := r.i.acct
  let failed := fun (s : Mdl) (st : Status) (code kind : Nat) =>
    (s.setCat n { s.cat n with sweeps := (s.cat n).sweeps.filter fun w => w.job != j }).failJob j st code kind
  match e.1 with
  | .wait f _ => (s.beginWait r.w a f).getD (failed (s.recordPage .quota a f.addr) PageFault.quota.status 0 PageFault.quota.kind)
  | .page f => failed e.2 f.status 0 f.kind
  | .code c => failed e.2 .computeResourceFault c 0

/-- The Finder and the sweep planner run once the batch's job has a cluster (R448, R449). Clusters that no sweep is planned on are not waited for any more;
GRAPH queries run on those that the job has (DESIGN CHOICE, assumption log entry 22). -/
def Mdl.findLists (s : Mdl) (n j : Nat) : Mdl :=
  match s.catRun n j, s.job j with
  | some (t, r), some x =>
    if t.found.isSome || x.status.isSome || !x.started then s
    else match s.catReads r r.finderAreas with
      | .error e => s.batchStops r n j e
      | .ok s =>
        let found := s.finderOutput r
        let s := found.2
        let plan := s.planSweeps r.i j found.1
        let places := if r.i.kind = 2 then x.work.filterMap fun w => match w.state with
            | .running k => some (k / 26, k % 26)
            | _ => none
          else []
        let needed := fun (w : ClusterWork) => w.state != .waiting || plan.any fun v => s.logicalOf v.d v.c == some w.cluster
        let s := s.setJob j (some { x with work := x.work.filter needed })
        (s.setCat n { s.cat n with sweeps := (s.cat n).sweeps ++ plan }).setBatch n j fun t => { t with found := some found.1, places := places }
  | _, _ => s

/-- Where the visited table of a batch's m-th query lies in the store of its cluster, and its bytes: tables follow one another while no more than 64
queries and 6 MiB are in use, and then begin again as those before them have ended (R459; the layout is DESIGN CHOICE, assumption log entry 22). -/
def Mdl.visitedTable (s : Mdl) (r : CatRun) (places m : Nat) : Nat × Nat :=
  let mine := (List.range (m + 1)).filter fun k => k % max 1 places == m % max 1 places && !(s.queryAt r.i.acct r.b k).idle r.b r.i
  let last := mine.foldl (fun (a : Nat × Nat × Nat) k =>
    let n := 8 * (s.queryAt r.i.acct r.b k).hops * r.i.degree
    let next := a.2.1 + a.2.2
    if a.1 = 64 ∨ 6 * 2 ^ 20 < next + n then (1, 0, n) else (a.1 + 1, next, n)) (0, 0, 0)
  last.2

/-- A GRAPH query's visited table fills its part of the store; what an entry looks like is not stated: free values (R459). -/
def Mdl.holdTable (s : Mdl) (r : CatRun) (t : CatBatch) (m : Nat) : Mdl :=
  match t.places[m % max 1 t.places.length]? with
  | some p =>
    if (s.queryAt r.i.acct r.b m).idle r.b r.i then s
    else
      let a := s.visitedTable r t.places.length m
      let v := s.freshBytes a.2
      v.2.storeWrite p.1 p.2 a.1 v.1
  | none => s

/-- The queries of a batch that have no result block yet, in order: `k` of them are left. One that waits leaves those before it done. -/
def Mdl.runQueries (r : CatRun) (n j : Nat) (t : CatBatch) : Nat → Mdl → Mdl
  | 0, s => s
  | k + 1, s =>
    let m := r.b.queries - (k + 1)
    let place := if r.i.kind = 2 then t.places[m % max 1 t.places.length]? else none
    let unspec := t.unordered.contains m || place.any fun p => s.selUnspec p.1 p.2
    match Mdl.runQuery { r with unspec := unspec, lists := ((t.found.getD []).lookup m).getD [] } (s.holdTable r t m) m with
    | .error e => s.batchStops r n j e
    | .ok s =>
      let s := s.setBatch n j fun t => { t with left := k }
      Mdl.runQueries r n j t k (s.setCat n { s.cat n with queries := ((s.cat n).queries + 1) % 2 ^ 48 })

/-- A search batch whose job has a cluster goes on: the Finder, and once every sweep has started its queries' selections and result blocks. -/
def Mdl.batchGoesOn (s : Mdl) (j : Nat) : Mdl :=
  match (s.job j).bind (·.catalogue) with
  | none => s
  | some n =>
    let s := s.findLists n j
    match s.catRun n j, s.job j with
    | some (t, r), some x =>
      if t.found.isNone || x.status.isSome || (s.cat n).sweeps.any (·.job == j) then s else Mdl.runQueries r n j t t.left s
    | _, _ => s

/-! ### Sweeps (R450 to R452, Table 2-17) -/

/-- The estimate of a sweep in ns. -/
def Mdl.sweepTime (s : Mdl) (codes bytes receiving : Nat) : Nat := ceilDiv (1000 * sweepEstimate codes bytes receiving) s.coreMHz

/-- A piece of a sweep starts (Tables 9-24, 9-25): its codes go to each of its cores. Under a window, when its estimate ends is kept (R104). -/
def Mdl.beginSweep (s : Mdl) (n : Nat) (w : Sweep) (codes receiving : Nat) (gated : Bool) : Mdl :=
  let x := s.cat n
  let rest := if codes < w.codes then [{ w with codes := w.codes - codes, split := true, held := false }] else []
  let first := x.sweeps.findIdx (· == w)
  let ends := s.phase + ceilDiv (s.sweepTime codes w.bytes receiving * 65536) (max 1 (s.reg Reg.TRN_PERIOD_PERIOD))
  let s := s.setCat n { x with sweeps := x.sweeps.take first ++ rest ++ x.sweeps.drop (first + 1)
                               running := if gated then x.running ++ [(s.epoch, ends)] else x.running }
  let s := if s.selUnspec w.d w.c then s.setBatch n w.job fun t => { t with unordered := t.unordered ++ w.members.filter fun q => !t.unordered.contains q } else s
  let s := (s.countSat Reg.CAT_SWEEPS_STARTED).count Reg.CAT_CODE_READS_READS (codes * w.groups)
  if codes < w.codes ∧ !w.split then s.countSat Reg.CAT_SWEEPS_SPLIT else s

/-- SWEEP_START: the next sweep of a job on a cluster that the job holds starts, is split, or waits for a window (R452); none on a halted
cluster (R280). `receiving` is the number of cores of the die that receive codes before it starts (R451). -/
def Mdl.sweepStart (s : Mdl) (d c receiving : Nat) : Mdl :=
  match (s.cluster d c).job.bind fun j => (s.job j).bind fun x => x.catalogue.map fun n => (j, n) with
  | none => s
  | some (j, n) =>
    let s := s.findLists n j
    match (s.cat n).sweeps.find? fun w => w.job == j && w.d == d && w.c == c with
    | none => s
    | some w =>
      let r := receiving + w.groups
      if s.flag (Reg.EYE_CTRL_HALT d c) then s
      else if !s.activeEntries.any (Eph.serves 6 n) then s.beginSweep n w w.codes r false
      else
        let longest := s.longestWindow 6 n
        let fits := fun codes limit => decide (s.sweepTime codes w.bytes r ≤ limit)
        let pieces := (List.range (w.codes / 2048)).map fun k => 2048 * (k + 1)
        let codes := if fits w.codes longest then w.codes else ((pieces.filter fun p => fits p longest).getLast?).getD (min w.codes 2048)
        let opening := (s.windowsOf 6 n).any fun e => Eph.startOf e == s.phase
        if s.windowOpen 6 n && (fits codes (s.remaining 6 n) || (!fits codes longest && opening)) then s.beginSweep n w codes r true
        else if w.held then s
        else
          (s.setCat n { s.cat n with sweeps := (s.cat n).sweeps.map fun v => if v = w then { v with held := true } else v }).countSat
            Reg.CAT_SWEEPS_HELD

end Sys2Proof.Machine
end

