-- ==== Sys2Proof/Machine/CatalogueCommands.lean ====
section
/-! DEFINITION. Catalogues and search batches (R428 to R466). -/
namespace Sys2Proof.Machine

/-- ATTACH (R429): CAT_CMD ATTACH validates an image and control area and pins the image. -/
def execAttach (cat : CatNo) (acct : Account) (s : State) : Host.Outcome State Fault Refusal := .next (s.onBus fun s => s.catCommand 1 cat acct)

/-- CATALOGUE_ATTACHED (R428): the last image page reaches HBM, and the catalogue serves from the next boundary. -/
def execCatalogueAttached (cat : CatNo) (s : State) : Host.Outcome State Fault Refusal := .next (s.whenOn fun s => s.catAttached cat)

/-- STAGE (R434): CAT_CMD STAGE validates and pins a new generation with a SWAP_EPOCH. -/
def execStage (cat : CatNo) (acct : Account) (s : State) : Host.Outcome State Fault Refusal := .next (s.onBus fun s => s.catCommand 2 cat acct)

/-- UNSTAGE (R428): CAT_CMD UNSTAGE unpins the staged image. -/
def execUnstage (cat : CatNo) (acct : Account) (s : State) : Host.Outcome State Fault Refusal := .next (s.onBus fun s => s.catCommand 3 cat acct)

/-- DETACH (R428): CAT_CMD DETACH closes admission and drops the staged image and pending deletes. -/
def execDetach (cat : CatNo) (acct : Account) (s : State) : Host.Outcome State Fault Refusal := .next (s.onBus fun s => s.catCommand 4 cat acct)

/-- DELETE (R432): CAT_CMD DELETE journals an item's deletion to take effect at the next boundary. -/
def execDelete (cat : CatNo) (acct : Account) (s : State) : Host.Outcome State Fault Refusal := .next (s.onBus fun s => s.catCommand 5 cat acct)

/-- SEARCH_BATCH (R439): A search batch runs the Finder, sweeps or traversal, filtering, selection and re-ranking, and writes result blocks. -/
def execSearchBatch (cid : Nat) (ctl : Nat) (set : Nat) (params : List Byte) (s : State) : Host.Outcome State Fault Refusal :=
  .next (s.whenOn fun s => s.submit ⟨cid, ctl, .execute 0x100 set params⟩)

/-- SWEEP_START (R452): A sweep starts when a CATALOGUE_SWEEP window admits its estimate, split if needed. -/
def execSweepStart (d : Die) (c : Cluster) (receiving : Nat) (s : State) : Host.Outcome State Fault Refusal :=
  .next (s.whenOn fun s => s.sweepStart d c receiving)

end Sys2Proof.Machine
end

