-- ==== Sys2Proof/Machine/ChartCommands.lean ====
section
/-! DEFINITION. Chart banks, loads, options, coupled fields (R113 to R169, R711, R712). -/
namespace Sys2Proof.Machine

/-- ERASE_BANK (R134): CHT_CMD ERASE_BANK erases the inactive chart bank on die 0 and then die 1. -/
def execEraseBank (bank : Fin 2) (s : State) : Host.Outcome State Fault Refusal := .next (s.onBus fun s => s.eraseBank bank)

/-- ERASE_BANK_DONE (R712): A bank erase completes, setting the bank's state to 0. -/
def execEraseBankDone (fail : Bool) (s : State) : Host.Outcome State Fault Refusal := .next (s.whenOn fun s => s.eraseBankDone fail)

/-- PROGRAM_BANK (R135): CHT_CMD PROGRAM_BANK DMA-writes the image into the inactive bank at CHT_NEXT_OFFSET. -/
def execProgramBank (bank : Fin 2) (data : List Byte) (s : State) : Host.Outcome State Fault Refusal :=
  .next (s.onBus fun s => s.programBank bank data)

/-- PROGRAM_BANK_DONE (R135): A bank program completes and CHT_NEXT_OFFSET advances. -/
def execProgramBankDone (fail : Bool) (s : State) : Host.Outcome State Fault Refusal := .next (s.whenOn fun s => s.programBankDone fail)

/-- VERIFY_BANK (R143): CHT_CMD VERIFY_BANK verifies a bank in the load order and records the result in its bank state. -/
def execVerifyBank (bank : Fin 2) (s : State) : Host.Outcome State Fault Refusal := .next (s.onBus fun s => s.verifyBank bank)

/-- LOAD_FULL (R143): CHT_CMD LOAD_FULL verifies a bank image, then quiesces compute and applies the chart. -/
def execLoadFull (bank : Fin 2) (s : State) : Host.Outcome State Fault Refusal := .next (s.onBus fun s => s.loadFull bank)

/-- QUIESCE_TIMEOUT (R145): A cluster without a mark within 10 ms has its macro-operations ended with Command Interrupted. -/
def execQuiesceTimeout (d : Die) (c : Cluster) (s : State) : Host.Outcome State Fault Refusal := .next (s.whenOn fun s => (s.quiesceTimeout d c).sanitizeGoesOn)

/-- CHART_APPLY (R144): the verified chart is applied, after any running partial load ends, and then waits for the next boundary. -/
def execChartApply (s : State) : Host.Outcome State Fault Refusal := .next (s.whenOn fun s => s.chartApply)

/-- LOAD_PARTIAL (R159): CHT_CMD LOAD_PARTIAL schedules a partial load of a cluster at the next boundary, or is refused. -/
def execLoadPartial (ld : Nat) (lc : Nat) (s : State) : Host.Outcome State Fault Refusal := .next (s.onBus fun s => s.loadPartial ld lc)

/-- SET_OPTION (R140): CHT_CMD SET_OPTION checks a new option record and its authorisation and appends it to both dies. -/
def execSetOption (record : List Byte) (auth : List Byte) (s : State) : Host.Outcome State Fault Refusal :=
  .next (s.onBus fun s => s.setOption record auth)

/-- CHART_ABORT (R149): CHT_CMD ABORT stops a running erase, program or verification. -/
def execChartAbort (s : State) : Host.Outcome State Fault Refusal := .next (s.onBus fun s => s.chartAbort)

/-- COUPLED_FIELD_WRITE (R164): A write to a coupled field sets its staged copy, or sets the live field and raises its write count in legacy mode.
-/
def execCoupledFieldWrite (addr : Nat) (wide : Bool) (value : Nat) (s : State) : Host.Outcome State Fault Refusal :=
  .next (s.whenOn fun s => s.coupledAccess addr wide value)

/-- CPL_COMMIT (R165): writing CPL_COMMIT makes a group's staged commit pending until the owning block's safe point, or refuses it. -/
def execCplCommit (group : BitVec 16) (s : State) : Host.Outcome State Fault Refusal := .next (s.onBus fun s => s.cplCommit group.toNat)

/-- COUPLED_COMMIT_APPLY (R165): at the safe point, all staged copies of the group are applied together. -/
def execCoupledCommitApply (group : Nat) (s : State) : Host.Outcome State Fault Refusal := .next (s.whenOn fun s => s.coupledApply group)

/-- COUPLING_HOLD_TIMEOUT (R169): A hold lasting CPL_HOLD_LIMIT boundaries ends the operation with Coupling Hold Timeout. -/
def execCouplingHoldTimeout (s : State) : Host.Outcome State Fault Refusal := .next (s.whenOn fun s => s.holdTimeout)

end Sys2Proof.Machine
end

