-- ==== Sys2Proof/Machine/ClockCommands.lean ====
section
/-! DEFINITION. The clock drive, boundaries, the Ephemeris and its windows (R64 to R112). -/
namespace Sys2Proof.Machine

/-- TRANSIT_EDGE (R80): A TRANSIT edge that passes the input filter is accepted or counted as stray, and the clock drive acts under Table 2-3. -/
def execTransitEdge (t : Nat) (rising : Bool) (widthNs : Nat) (s : State) : Host.Outcome State Fault Refusal :=
  .next (s.whenOn fun s => s.transitEdge t rising widthNs)

/-- TRANSIT_MESSAGE (R73): A received transit message is treated as a marking edge, numbered under R91 and forwarded, or discarded as a copy. -/
def execTransitMessage (link : LinkNo) (src : ModuleNo) (m : Machine.TransitMsg) (t : Nat) (s : State) : Host.Outcome State Fault Refusal :=
  .next (s.whenOn fun s => s.transitIn link src m t)

/-- EPOCH_BOUNDARY (R66): at a boundary the epoch number advances, period changes and swaps take effect, windows open and blocks act on the event.
-/
def execEpochBoundary (t : Nat) (s : State) : Host.Outcome State Fault Refusal := .next (s.whenOn fun s => s.epochBoundary t)

/-- HOLDOVER_ENTRY (R82): LOCKED reaches phase 4,096 with no accepted edge and enters HOLDOVER. -/
def execHoldoverEntry (s : State) : Host.Outcome State Fault Refusal := .next (s.whenOn fun s => s.holdoverEntry)

/-- HOLDOVER_EXPIRY (R83): HOLDOVER_EPOCHS reaches 64, so the clock drive enters FREE_RUN at TRN_DEFAULT_PERIOD. -/
def execHoldoverExpiry (s : State) : Host.Outcome State Fault Refusal := .next (s.whenOn fun s => s.holdoverExpiry)

/-- ACQUIRE_NO_EDGE (R82): ACQUIRE sees no accepted edge for two periods and falls to FREE_RUN. -/
def execAcquireNoEdge (t : Nat) (s : State) : Host.Outcome State Fault Refusal := .next (s.whenOn fun s => s.acquireNoEdge t)

/-- ACQ_TIMEOUT (R82): the eighth accepted edge passes without lock, setting ACQ_TIMEOUT and restarting the edge count. -/
def execAcqTimeout (s : State) : Host.Outcome State Fault Refusal := .next (s.whenOn fun s => s.acqTimeout)

/-- REACQUIRE (R82): writing TRN_CTRL.REACQUIRE forces ACQUIRE, and the next accepted edge counts as edge 1. -/
def execReacquire (s : State) : Host.Outcome State Fault Refusal := .next (s.onBus fun s => s.reacquire)

/-- SOURCE_SELECT (R68): A TRN_CTRL.SOURCE write changes the source in use, and the clock drive acts under Table 2-3. -/
def execSourceSelect (v : Fin 4) (s : State) : Host.Outcome State Fault Refusal := .next (s.onBus fun s => s.sourceSelect v)

/-- EPOCH_SET (R90): A TRN_EPOCH_SET write numbers the next epoch, or is refused. -/
def execEpochSet (v : BitVec 48) (s : State) : Host.Outcome State Fault Refusal := .next (s.onBus fun s => s.epochSet v.toNat)

/-- PERIOD_WRITE (R89): A write of TRN_DEFAULT_PERIOD or TRN_NEXT_PERIOD takes effect, or is ignored out of range and sets PERIOD_REFUSED. -/
def execPeriodWrite (next : Bool) (v : BitVec 32) (s : State) : Host.Outcome State Fault Refusal :=
  .next (s.onBus fun s => s.periodWrite next v.toNat)

/-- ARM (R107): EPH_CTRL.ARM validates the shadow bank, cycle length and swap epoch, then arms the swap or stores ARM_ERR. -/
def execArm (s : State) : Host.Outcome State Fault Refusal := .next (s.onBus fun s => s.arm)

/-- DISARM (R110): EPH_CTRL.DISARM clears ARMED and leaves both banks unchanged. -/
def execDisarm (s : State) : Host.Outcome State Fault Refusal := .next (s.onBus fun s => s.disarm)

/-- SHADOW_BANK_WRITE (R106): A write to the shadow bank, SHADOW_LEN or SWAP_EPOCH is stored, or is ignored while armed and sets
WRITE_WHILE_ARMED. -/
def execShadowBankWrite (addr : Nat) (wide : Bool) (value : Nat) (s : State) : Host.Outcome State Fault Refusal :=
  .next (s.whenOn fun s => s.shadowAccess addr wide value)

/-- WINDOW_OPEN (R94): A window's start phase is reached in a matching epoch, and its class of work may start. -/
def execWindowOpen (phase : Fin 65536) (s : State) : Host.Outcome State Fault Refusal := .next (s.whenOn fun s => s.windowOpens phase)

/-- WINDOW_END (R103): A window ends: no new work of its class starts, and operations still running count as overruns. -/
def execWindowEnd (phase : Fin 65537) (sweeps : Nat) (s : State) : Host.Outcome State Fault Refusal :=
  .next (s.whenOn fun s => s.windowEnds phase sweeps)

/-- ERASE_SUSPEND_WINDOW (R475): 100 us before its erase window ends, a running erase is suspended. -/
def execEraseSuspendWindow (phase : Fin 65536) (slot : Slot) (die : Fin 128) (s : State) : Host.Outcome State Fault Refusal :=
  .next (s.whenOn fun s => (s.eraseSuspend phase slot die).rawDone slot die)

end Sys2Proof.Machine
end

