-- ==== Sys2Proof/Machine/Rows.lean ====
section
/-! DEFINITION. The lane row cycle by cycle: passes, weight slots, freezes, dummy operations, the accumulator file, the drain,
self-test, storage errors and control engines (R170 to R227, R713, R714). Commands say how many advancing cycles have passed since the
core's last one. A macro-operation's results are computed whole when it starts (assumption log entry 16); these commands are what its
passes do to a core's own state. -/
namespace Sys2Proof.Machine

/-! ### Plates partitions and their transfers (R226, R227) -/

/-- What transfers have put into a partition (R227): the table has no row of their own (assumption log entry 21). -/
def Mdl.staged (s : Mdl) (d c k use_ : Nat) (l : List Arrival) : Mdl :=
  l.foldl (fun s a => s.partWrite d c k use_ a.offset a.bytes) s

/-! ### Passes (R178, R180, R189, R191, R207) -/

/-- May a pass enter the row of a core now: a macro-operation runs, the core is in service, not frozen, halted or
under test, no context is being saved (R274), no retired lane waits for an empty row (R210), and the thermal step is below 4 (Table
14-12)? A pass already due enters a halting cluster's row (R280). -/
def Mdl.rowReady (s : Mdl) (d c k : Nat) : Bool :=
  let st := s.reg (Reg.SEQ_CORE_STATUS_STATE d c k)
  let y := s.cluster d c
  y.cur.isSome && y.saving.isNone && (st == 0 || st == 1) && (s.core d c k).frozen == 0 && (s.core d c k).waiting.isEmpty
    && (!s.flag (Reg.EYE_CTRL_HALT d c) || (s.core d c k).due.isSome) && decide (s.reg Reg.PWR_THERMAL_STEP < 4)

/-- The bank a pass takes, or what keeps it out. -/
inductive PassEntry where
  | take (bank : Nat)
  | overflow
  /-- A bank it needs is in DRAIN: the sequencer does not make it due yet (R247, R714). -/
  | drain
  /-- The tensor sequencer issues no such pass (Table 4-10). -/
  | never
  deriving DecidableEq, Repr

/-- R207, R247, R714: the bank of a pass; a compare-exchange pass needs none (Table 4-3). -/
def CoreSt.entry (x : CoreSt) (p : Pass) : PassEntry :=
  let a := x.bank0.state
  let b := x.bank1.state
  if p.mode.val = 1 then .take p.bank.val
  else if p.firstK then
    if p.wide then
      if a = .free ∧ b = .free then .take 0 else if a = .accum ∨ b = .accum then .overflow else .drain
    else
      let named := (x.bank p.bank.val).state
      if named = .free then .take p.bank.val
      else if (x.bank (1 - p.bank.val)).state = .free then .take (1 - p.bank.val)
      else if a = .accum ∧ b = .accum then .overflow
      else .drain
  else if p.wide then if a = .accum ∧ b = .accum ∧ x.wide then .take 0 else .never
  else if (x.bank p.bank.val).state = .accum ∧ ¬ x.wide then .take p.bank.val else .never

/-- The state of a bank after a pass's first beat (Table 4-10). -/
def passBank (p : Pass) : BankState := if p.lastK then .drain else .accum

/-- SEQ_FAULT_ACC at an overflow in a row (R249): the bank states of every core, and how many tiles were needed and held. -/
def Mdl.showBanksFault (s : Mdl) (d c k : Nat) : Mdl :=
  if s.flag (Reg.SEQ_FAULT_VALID d c) then s
  else
    let x := s.core d c k
    let held := if x.wide then 1 else b2n (x.bank0.state == .accum) + b2n (x.bank1.state == .accum)
    s.setRegs [(Reg.SEQ_FAULT_ACC_BANKS d c, s.bankStates d c), (Reg.SEQ_FAULT_ACC_NEEDED d c, held + 1), (Reg.SEQ_FAULT_ACC_HELD d c, held)]

/-- What of a core's passes still matters when another enters: open ones, the newest, the newest of the generation before, those whose bank the
drain still reads, and dummy beats on their way out. -/
def CoreSt.keepPasses (x : CoreSt) : List RowPass :=
  let other := x.passes.find? fun q => decide (q.gen < x.gen) && !q.dummy
  (x.passes.zipIdx.filter fun q => q.2 == 0 || !q.1.over || some q.1 == other || (q.1.dummy && decide (x.cycle < q.1.last + 66))
    || (q.1.pass.lastK && !q.1.dummy && (x.bank q.1.bank).state == .drain)).map (·.1)

/-- The dummy beats that the feeder sent since the newest pass, before a pass enters now (R197). -/
def CoreSt.gapBeats (x : CoreSt) (q : RowPass) : Nat := if x.gapEnded then 0 else min (x.cycle - q.last - 1) 64

/-- The first beat of a pass enters with its bank (R189): the pass, the tag of its stationary operands, the bank moves of Table 4-10. -/
def Mdl.enterPass (s : Mdl) (d c k : Nat) (e : MacroEntry) (p : Pass) (b : Nat) : Mdl :=
  let x := s.core d c k
  let g := x.genOf p
  let running := s.reg (Reg.SEQ_CORE_STATUS_STATE d c k) == 1
  let gap := match x.newest with
    | some q => if running && decide (0 < x.gapBeats q) then [{ q with start := q.last + 1, count := x.gapBeats q, kind := .gap }] else []
    | none => []
  let s := s.count (Reg.SEQ_CORE_DUMMY_LANE_CYCLES d c k) (gap.foldl (fun n q => n + 64 * q.count) 0)
  let s := s.count (Reg.SEQ_CORE_ACTIVE_CYCLES d c k)
    (if p.mode.val = 1 ∨ x.cycle ≤ x.lastReal (s.reg (Reg.SEQ_CORE_STATUS_SPARE_IN_USE d c k)) ∧ running then 0 else 1)
  let bank : Bank := ⟨passBank p, p.rows, p.lanes, 0, e.seq⟩
  let y := if p.mode.val = 1 then x
    else if p.wide then { x with bank0 := bank, bank1 := { bank with rows := 0 }, wide := true }
    else { x.setBank b bank with wide := false }
  let new : RowPass := ⟨p, e, x.cycle, p.span, g, b, .real, []⟩
  let y := { y with gen := g, reload := false, due := none, gapEnded := false, passes := new :: gap ++ { x with gen := g }.keepPasses }
  let s := (s.setCore d c k y).setRegs [(Reg.SEQ_CORE_STATUS_STATE d c k, 1), (Reg.SEQ_CORE_STATUS_MODE d c k, p.mode.val)]
  let s := if p.span = 0 then
      (List.range p.rows).foldl (fun s r => (List.range p.lanes).foldl (fun s l =>
        s.accWrite d c k (((if p.wide then 0 else 128 * b) + r) * 64 + l) F32.zero) s) s
    else s
  s.showBanks d c k

/-- Would a pass entering now come too early: before the last beat of the pass before it has entered, or, with another mode, sooner than four
cycles behind that beat (R180)? The feeder's dummy beats have no mode. -/
def Mdl.tooEarly (s : Mdl) (d c k : Nat) (p : Pass) : Bool :=
  let x := s.core d c k
  match x.newestPass with
  | some q => s.reg (Reg.SEQ_CORE_STATUS_STATE d c k) == 1
      && decide (x.cycle < q.start + q.count + (if s.reg (Reg.SEQ_CORE_STATUS_MODE d c k) = p.mode.val then 0 else 3))
  | none => false

/-- PASS_BOUNDARY: the first beat of a pass reaches physical lane 0, `adv` advancing cycles after the core's last row command. It is due only
behind the beats of the pass before it (four cycles behind with another mode, R180), and when its bank is FREE (R714). Where lane 0 still
lacks its weights, the row freezes in that cycle, with the beats where they were the cycle before (R193, R198), and the pass stays due. -/
def Mdl.passBoundary (s : Mdl) (d c k : Nat) (p : Pass) (adv : Nat) (arrived : List Arrival) : Mdl :=
  let at_ := fun (n : Nat) => (s.rowAdvance d c k n).staged d c k 1 arrived
  let back := at_ (adv - 1)
  let s := at_ adv
  let x := s.core d c k
  match (s.cluster d c).cur with
  | none => s
  | some m =>
    if !s.rowReady d c k then s
    else if !bit (s.reg (Reg.SEQ_CORE_STATUS_MODES d c k)) p.mode.val then s.faultMacro d c .computeResourceFault 0x02
    else if !p.ok || s.tooEarly d c k p || (x.due.isSome && x.due != some p) then s
    else match x.entry p with
      | .never | .drain => s
      | .overflow => (s.showBanksFault d c k).faultMacro d c .computeResourceFault 0x09
      | .take b =>
        if { x with due := some p }.dueStale (s.lanePlaces d c k) then
          (back.setCore d c k { back.core d c k with due := some p }).beginFreeze d c k 2
        else s.enterPass d c k m.entry p b

/-- The use that a weight source is (Table 4-4). -/
def weightUse : WeightSource → Nat
  | .staging => 2 | .tables => 6 | .selection => 5

/-- WEIGHT_SLOT_WRITE (R191 to R194, R226): a slot released for the pass with tag `tag` takes the 32 bytes at offset `off` of the partition;
6-bit elements are widened to one byte each on the way (R292). An MX operand's scale bytes follow its bytes in weight staging, two for a slot
of 4-bit elements; for every other operand the scale is 127 (R291). Slots of a lane are written in ascending order. -/
def Mdl.weightWrite (s : Mdl) (d c k lane slot : Nat) (tag : Bool) (src : WeightSource) (off : Nat) (fmt : Fin 16) (adv : Nat)
    (arrived : List Arrival) : Mdl :=
  let s := (s.rowAdvance d c k adv).staged d c k (weightUse src) arrived
  let x := s.core d c k
  match x.nextGen lane slot tag with
  | none => s
  | some g =>
    let later := (List.range (128 - slot)).any fun i => (x.slot lane (slot + i)).now.gen == g
    if later ∨ !x.released g lane slot then s
    else
    let byte := fun i => s.partByte d c k (weightUse src) (off + i)
    let f := (Fmt.ofCode fmt.val).getD .none
    let mx := decide (src = .staging) && f.isMx
    let data := (List.range 32).map fun i => if f.width = 6 then BitVec.ofNat 8 (f.raw byte 0 i) else byte i
    let new : WGen := ⟨g, BitVec.ofNat 256 (leNat data), if mx then (byte 32).toNat else 127,
      if mx && f.width == 4 then (byte 33).toNat else 127⟩
    s.setCore d c k { x with slots := Table.set WSlot.init x.slots (lane * 128 + slot) (x.loaded (x.slot lane slot) new) }

/-! ### Freezes and dummy operations (R195 to R202, R713) -/

/-- ROW_FREEZE: one frozen cycle of a row. The cause "feeder" holds where a beat is due, and the sender says that it is not in the feeder's queue
(assumption log entry 21); "weight" holds where a beat due would meet an old tag (R193); the row's guard for a bank in
DRAIN where a FIRST_K pass is due (R207), which no walk of the sequencer brings about (R714). The first cycle stands `adv` cycles after the
core's last row command. -/
def Mdl.rowFreeze (s : Mdl) (d c k : Nat) (q : FreezeCauses) (adv : Nat) : Mdl :=
  let s := s.rowAdvance d c k adv
  let x := s.core d c k
  let st := s.reg (Reg.SEQ_CORE_STATUS_STATE d c k)
  let weight := q.weight && x.stale (s.lanePlaces d c k)
  let drain := q.drain && (match x.due with | some p => p.firstK && x.entry p == .drain | none => false)
  let other := if q.feeder && x.beatDue then 1 else if weight then 2 else if drain then 3 else 0
  let ramp := other == 0 && x.frozen != 0 && decide (x.dummy < x.holding)
  if (st ≠ 1 ∧ st ≠ 2) ∨ (other = 0 ∧ ¬ ramp) then s
  else if x.frozen = 0 then s.beginFreeze d c k other
  else s.stayFrozen d c k (if ramp then 4 else other)

/-- FREEZE_END: no cause holds and every lane that holds a beat is busy again (R196, R200). -/
def Mdl.freezeEnd (s : Mdl) (d c k : Nat) : Mdl :=
  let x := s.core d c k
  if x.frozen = 0 ∨ x.dummy ≠ x.holding ∨ x.stale (s.lanePlaces d c k) then s
  else s.thaw d c k

/-- DUMMY_RAMP_DOWN: from the 65th frozen cycle the dummy lanes fall by RAMP_LIMIT (R199), once in a cycle (R202). -/
def Mdl.dummyRampDown (s : Mdl) (d c k : Nat) : Mdl :=
  let x := s.core d c k
  if x.frozen < 64 ∨ x.fallen = x.frozen then s
  else s.setCore d c k { x with fallen := x.frozen, dummy := x.dummy - s.reg (Reg.SEQ_CORE_STATUS_RAMP_LIMIT d c k) }

/-- DUMMY_GAP_END: 64 dummy beats have been sent in the gap, and the feeder stops (R197). -/
def Mdl.dummyGapEnd (s : Mdl) (d c k adv : Nat) : Mdl :=
  let running := s.reg (Reg.SEQ_CORE_STATUS_STATE d c k) == 1
  let s := s.rowAdvance d c k adv
  if !running ∨ (s.core d c k).frozen ≠ 0 then s else (s.endGap d c k).rowIdle d c k

/-! ### Row totals and the drain (R188, R203 to R209) -/

/-- What a lane adds to its row total, or writes as it: `total` is what it adds to (R181, R183, R203 to R205). `sh` and `st` read the bytes of
the row's beats, 32 each, and of the lane's stationary operand; `shScale` the beats' scale bytes, two each; `stScale` the scale byte of a run
of the stationary operand. `open_` gives the free bits of predicate terms without a meaning. -/
def laneTotal (p : Pass) (sh st : Nat → Byte) (shScale stScale : Nat → Nat) (total : Option F32) (open_ : Nat → Bool) : F32 :=
  let n := p.perBeat
  let add := fun (v : F32) => match total with
    | none => v
    | some t => F32.add t v
  let a := fun i => if p.fa.isMx && shScale (2 * (i / n) + i % n / 32) == 255 then Num.nan else p.fa.elem (p.fa.raw (fun o => sh (32 * (i / n) + o)) 0 (i % n))
  let b := fun i => if p.fb.isMx && stScale (i / 32) == 255 then Num.nan
    else p.fb.elem (if p.fb.width = 6 then (st (p.step * (i / n) + i % n)).toNat % 64 else p.fb.raw (fun o => st (p.step * (i / n) + o)) 0 (i % n))
  let sc := fun i => (if p.fa.isMx then (shScale (2 * (i / n) + i % n / 32) : Int) - 127 else 0) + (if p.fb.isMx then (stScale (i / 32) : Int) - 127 else 0)
  let int := p.fa.isInt && p.fb.isInt
  if p.mode.val = 3 then (if evalTerms (fun o => if o < p.k then sh o else 0) st (32 * p.chunks) open_ then F32.one else F32.zero)
  else if p.mode.val = 2 ∧ p.metric.val = 1 then (sumSquares int a b p.k (ceilDiv p.k 32) 0 total).getD F32.zero
  else if p.mode.val = 2 ∧ p.metric.val = 2 then add (F32.ofNat (hamming sh st p.k))
  else if p.mode.val = 2 ∧ p.metric.val = 3 then add (F32.ofNat (lookupSum sh st (2 * p.k)))
  else (sumRuns int a b sc p.k (ceilDiv p.k 32) 0 total).getD F32.zero

/-- A byte of a lane's stationary operand of a generation. -/
def CoreSt.weightByte (x : CoreSt) (gen place i : Nat) : Byte :=
  BitVec.ofNat 8 (((x.weights gen place (i / 32)).getD WSlot.init.now).data.toNat / 2 ^ (8 * (i % 32)))

/-- The scale byte of a run of a lane's stationary operand: two runs share a slot at four bits (R194). -/
def CoreSt.weightScale (x : CoreSt) (p : Pass) (gen place r : Nat) : Nat :=
  let per := max 1 (p.perBeat / p.step)
  let w := (x.weights gen place (r / per)).getD WSlot.init.now
  if r % per = 0 then w.scale0 else w.scale1

/-- A pair of a block as the weight port loads it: 64-bit index, key, position, as Table 5-10 lays out an entry (DEDUCED, assumption log entry
21). -/
def pairOf (int : Bool) (rd : Nat → Byte) : SelIn :=
  let key := rdLe rd 8 4
  let pos := rdLe rd 12 4
  ⟨key, if int then some (toSigned 32 key) else keyOrd (f32Of key), pos, rdLe rd 0 8, pos⟩

/-- The 32 pairs of logical lane `lane` after a block of 2,048 is sorted (R182, R259). A NaN key never enters the network (R261); a pair that
held one ranks last. -/
def CoreSt.sortedLane (x : CoreSt) (smallest int : Bool) (gen : Nat) (places : List Nat) (lane : Nat) : List Byte :=
  let pairs := (List.range 2048).map fun i => pairOf int fun o => x.weightByte gen (places.getD (i / 32) 0) (16 * (i % 32) + o)
  let sorted := rankAll smallest pairs ++ pairs.filter fun q => q.ord.isNone
  ((sorted.drop (32 * lane)).take 32).flatMap fun q => leBytes 8 q.idx ++ leBytes 4 q.bits ++ leBytes 4 q.pos

/-- ROW_TOTAL_WRITE (R188, R204, R205): logical lane `lane` writes the next row total of the oldest pass that has one left for it, once the
cycle of its write is reached and every slot it needs carries the pass's tag (R193). In compare-exchange mode it returns its pairs to the
selection partition. -/
def Mdl.rowTotalWrite (s : Mdl) (d c k lane adv : Nat) (arrived : List Arrival) : Mdl :=
  let s := (s.rowAdvance d c k adv).staged d c k 1 arrived
  let x := s.core d c k
  let places := s.lanePlaces d c k
  let place := places.getD lane lane
  let left := fun (q : RowPass) => !q.dummy && q.count != 0 && decide (lane < q.pass.lanes)
    && decide (Table.get 0 q.done lane < (if q.pass.mode.val = 1 then 1 else q.pass.rows))
  match x.passes.reverse.find? left with
  | none => s
  | some q =>
    let p := q.pass
    let r := Table.get 0 q.done lane
    let held := if p.mode.val = 1 then places.all fun l => (List.range 16).all fun i => (x.weights q.gen l i).isSome
      else (List.range p.slots).all fun i => (x.weights q.gen place i).isSome
    if x.frozen ≠ 0 ∨ x.cycle < q.writeCycle r place ∨ !held then s
    else
      let f := s.fresh 16
      let s := f.2
      let y := { x with passes := x.passes.map fun z => if z = q then { q with done := Table.set 0 q.done lane (r + 1) } else z }
      let s := s.setCore d c k y
      let o := Macro.of q.entry.desc
      let s := if p.mode.val = 1 then
          s.partWrite d c k 5 (p.data + 512 * lane) (x.sortedLane (bit o.param 17) (o.fa == .int32) q.gen places lane)
        else
          let key := ((if p.wide then 0 else 128 * q.bank) + r) * 64 + lane
          let v := laneTotal p (fun i => s.partByte d c k 1 (p.data + 32 * (r * p.chunks) + i)) (x.weightByte q.gen place)
            (fun i => (s.partByte d c k 1 (p.scales + 2 * (r * p.chunks) + i)).toNat) (x.weightScale p q.gen place)
            (if p.firstK then none else some (s.accCell d c k key)) (bit f.1)
          s.accWrite d c k key v
      s.rowIdle d c k

/-- Bytes of a row in the drain-output partition: its scale bytes and its elements, its FP32 values while its scale is not found (R313), or one
64-bit word (R184). -/
def outBytes (mode : Nat) (x : Macro) (lanes : Nat) : Nat :=
  let f := x.fc
  if mode = 3 then 8 else if x.scale = 3 then 4 * lanes else (if f.isMx then ceilDiv lanes 32 else 0) + ceilDiv (lanes * f.width) 8

/-- Bytes that a row read and not yet written will take. -/
def DrainedRow.bytes (r : DrainedRow) : Nat := outBytes r.mode (Macro.of r.entry.desc) r.values.length

/-- DRAIN_READ_ROW (R208, Table 4-10): the next row of a bank in DRAIN is read, once every lane has written it and the drain alignment count has
passed; after its last row the bank is FREE. While the drain-output partition has no room, the drain stalls (R209). -/
def Mdl.drainRead (s : Mdl) (d c k bank adv : Nat) : Mdl :=
  let s := s.rowAdvance d c k adv
  let x := s.core d c k
  let n := if x.wide then 0 else bank
  let b := x.bank n
  match x.passes.find? fun q => q.pass.lastK && !q.dummy && q.bank == n && q.pass.mode.val != 1 with
  | none => s
  | some q =>
    let bytes := x.drained.foldl (fun n r => n + r.bytes) (outBytes q.pass.mode.val (Macro.of q.entry.desc) b.lanes)
    let due := q.start + (b.next + 1) * q.pass.chunks + 67 + s.reg (Reg.SEQ_CORE_STATUS_SPARE_IN_USE d c k)
    let whole := q.count == 0 || (List.range b.lanes).all fun l => decide (b.next < Table.get 0 q.done l)
    if b.state ≠ .drain ∨ x.cycle < due ∨ !whole ∨ partBytes (s.coreParts d c k) 3 < x.outUsed + bytes then s
    else
      let base := (if x.wide then 0 else 128 * n) + b.next
      let row : DrainedRow := ⟨b.next, q.entry, q.pass.mode.val, (List.range b.lanes).map fun l => s.accCell d c k (base * 64 + l)⟩
      let last := decide (b.rows ≤ b.next + 1)
      let b' := if last then Bank.init else { b with next := b.next + 1 }
      let y := x.setBank n b'
      let y := if last && x.wide then { y with bank1 := .init, wide := false } else y
      (s.setCore d c k { y with drained := x.drained ++ [row] }).showBanks d c k

/-- DRAIN_WRITE_ROW (R209, R300, R184): the oldest row read goes through the epilogue as row `m`, columns from `n`, of a batch and is
written into the drain-output partition, behind the row before it (DESIGN CHOICE, assumption log entry 21), with the EXP that the
macro-operation's roll returned (R315). While its scale is not found the partition holds its FP32 values (R313). -/
def Mdl.drainWrite (s : Mdl) (d c k batch m n : Nat) : Mdl :=
  let x := s.core d c k
  match x.drained with
  | [] => s
  | row :: rest =>
    let size := max 1 (partBytes (s.coreParts d c k) 3)
    let e := row.entry
    let o := Macro.of e.desc
    let run := ((s.cluster d c).early ++ (s.cluster d c).cur.toList).find? fun m => m.entry.seq == e.seq
    let ep : Epi := match run.bind (·.block) with
      | some q => ⟨q.1, q.2⟩
      | none => ⟨false, 0⟩
    let bytes := if row.mode = 3 then
        leBytes 8 ((row.values.zipIdx).foldl (fun a q => if q.1 = F32.one then a + 2 ^ q.2 else a) 0)
      else
        let ys := (row.values.zipIdx).map fun q => o.epiSteps (fun _ a i => s.mem.read (memKey e.acct (a + i))) ep batch m (n + q.2) q.1
        let conv := o.convRow batch m n ys
        if o.scale = 3 then ys.flatMap fun y => leBytes 4 y.toNat
        else (conv.scales.map (BitVec.ofNat 8)) ++ leBytes (ceilDiv (conv.codes.length * o.fc.width) 8) (packCodes o.fc.width conv.codes)
    if size < x.outUsed + bytes.length then s
    else
    let y := { x with drained := rest, outAt := (x.outAt + bytes.length) % size, outUsed := x.outUsed + bytes.length }
    (s.setCore d c k y).partWrite d c k 3 x.outAt bytes

/-! ### Storage errors and control engines (R213 to R215, R221 to R224) -/

/-- CORE_ECC_CORRECTED (R214). -/
def Mdl.coreCorrected (s : Mdl) (d c k : Nat) (m : CoreStorage) : Mdl :=
  s.countSat (match m with
    | .plates => Reg.SEQ_CORE_ECC_PLATES_CORR d c k
    | .weight => Reg.SEQ_CORE_ECC_WREG_CORR d c k
    | .accumulator => Reg.SEQ_CORE_ECC_ACC_CORR d c k)

/-- The pattern test of R215 overwrites the failing word: what it leaves is a free value. The word of the plates is taken as 64 bytes, that of a
lane's registers as a slot or a scale register (a place from 4,096 on names one: two for each slot), that of the accumulator file as a cell
(DESIGN CHOICE, assumption log entry 21). -/
def Mdl.patternTest (s : Mdl) (d c k : Nat) (m : CoreStorage) (lane place : Nat) : Mdl :=
  match m with
  | .plates =>
    let f := s.freshBytes 64
    f.2.platesWrite d c k (place % (3 * 2 ^ 19) / 64 * 64) f.1
  | .weight =>
    let scale := decide (4096 ≤ place)
    let key := lane * 128 + (if scale then (place - 4096) / 2 else place / 32) % 128
    let w := Table.get WSlot.init (s.core d c k).slots key
    let f := s.fresh (if scale then 8 else 256)
    let now := if !scale then { w.now with data := BitVec.ofNat 256 f.1 }
      else if place % 2 = 0 then { w.now with scale0 := f.1 } else { w.now with scale1 := f.1 }
    let x := f.2.core d c k
    f.2.setCore d c k { x with slots := Table.set WSlot.init x.slots key { w with now := now } }
  | .accumulator =>
    let f := s.fresh 32
    f.2.accWrite d c k (place / 4 % 16384) (BitVec.ofNat 32 f.1)

/-- A word with an uncorrectable error is tested, and the fault is hard when it fails its pattern test (R215, Table 4-11). -/
def Mdl.testWord (s : Mdl) (d c k : Nat) (m : CoreStorage) (lane place : Nat) (hard : Bool) : Mdl :=
  let s := s.patternTest d c k m lane place
  match m, hard with
  | .weight, true => s.laneFault d c k lane 2 false
  | .plates, true => s.coreFault d c k 2 []
  | .accumulator, true => s.coreFault d c k 3 []
  | .weight, false => s.hierRecord (unitLane d c k lane) 2 0
  | .plates, false => s.hierRecord (unitCore d c k) 2 0
  | .accumulator, false => s.hierRecord (unitCore d c k) 3 0

/-- The words of a core that wait for their pattern test get it when the row is empty (R215). -/
def Mdl.testWords (s : Mdl) (d c k : Nat) : Mdl :=
  let x := s.core d c k
  if x.errors.isEmpty ∨ !s.rowEmpty d c k then s
  else x.errors.foldl (fun s e => s.testWord d c k e.1 e.2.1 e.2.2.1 e.2.2.2) (s.setCore d c k { x with errors := [] })

/-- End what reads a word of a core's storage (R215): a macro-operation that uses the core's plates; one with a pass in its row; or one whose
bank is drained. -/
def Mdl.endReaders (s : Mdl) (d c k : Nat) (m : CoreStorage) : Mdl :=
  match m with
  | .plates => s.endOnCore d c k
  | .weight => s.endInRow d c k
  | .accumulator =>
    let x := s.core d c k
    s.endWhere d c fun r => s.inRow d c k r.entry.seq || [x.bank0, x.bank1].any fun b => b.state != .free && b.owner == r.entry.seq

/-- CORE_ECC_UNCORRECTABLE (R215, Table 4-11): a macro-operation that reads the byte ends (`reader`), and the word waits for its pattern test
until the row is empty. -/
def Mdl.coreUncorrectable (s : Mdl) (d c k : Nat) (m : CoreStorage) (lane place : Nat) (reader hard : Bool) : Mdl :=
  let s := s.countSat (Reg.SEQ_CORE_ECC_UNCORR d c k)
  let s := if reader then s.endReaders d c k m else s
  let x := s.core d c k
  (s.setCore d c k { x with errors := x.errors ++ [(m, lane, place, hard)] }).testWords d c k

/-- CONTROL_ENGINE_FAULT (R223, Table 4-18): a core that waits for a semaphore runs no instruction (R417). -/
def Mdl.controlFault (s : Mdl) (d c k : Nat) (cause : CeFault) : Mdl :=
  if ¬ s.flag (Reg.SEQ_CORE_CE_BUSY d c k) ∨ (s.cluster d c).cur.isNone ∨ s.coreWaits d c k then s
  else
    let n := match cause with | .illegal => 1 | .outside => 2 | .bound => 3
    (s.setRegs [(Reg.SEQ_CORE_CE_BUSY d c k, 0), (Reg.SEQ_CORE_CE_LAST_FAULT d c k, n)]).faultGlue d c .computeProgramFault 0x21

/-- CONTROL_ENGINE_WATCHDOG (R224): it does not count while the core waits for a semaphore (R417). -/
def Mdl.watchdog (s : Mdl) (d c k : Nat) : Mdl :=
  if ¬ s.flag (Reg.SEQ_CORE_CE_BUSY d c k) ∨ (s.cluster d c).cur.isNone ∨ s.coreWaits d c k then s
  else
    let s := s.setRegs [(Reg.SEQ_CORE_CE_BUSY d c k, 0), (Reg.SEQ_CORE_CE_LAST_FAULT d c k, 4)]
    (s.hierRecord (unitCore d c k) 4 0).faultGlue d c .computeHardwareFault 0x20

/-! ### Self-test (R216 to R220) -/

/-- Cycles of a segment (R216): the patterns and the scrub of the registers. -/
def segmentCycles : Nat := 4096 + 128

/-- Their time in ns at the core clock (R170, Table 14-12). -/
def Mdl.segmentNs (s : Mdl) : Nat := ceilDiv (1000 * segmentCycles) s.coreMHz

/-- SELF_TEST_SEGMENT: it begins at an empty pass boundary of a SCRUB window of kind 2 with time left, at most once in a window, and
ends with the lane that mismatched, if any; the test signature register then holds what its patterns gave, a free value of
64 bits (the spec gives the register no width: DESIGN CHOICE, assumption log entry 20). The scrub of
the weight and scale registers leaves their contents (R217, R218); what it corrects, CORE_ECC_CORRECTED counts. A segment that finds no such window is pending work of the die (R105). -/
def Mdl.selfTest (s : Mdl) (phase d c k : Nat) (ended : Bool) (lane : Option Nat) : Mdl :=
  if ended then
    let x := s.core d c k
    if s.reg (Reg.SEQ_CORE_STATUS_STATE d c k) ≠ 3 then s
    else
      let f := s.fresh 64
      let y := { x with segment := (x.segment + 1) % 8, signature := f.1, cycle := x.cycle + segmentCycles }
      let s := f.2.setCore d c k y
      let z := s.cluster d c
      let s := (s.setReg (Reg.SEQ_CORE_STATUS_STATE d c k) 0).setCluster d c { z with selfTest := z.selfTest.filter (· != k) }
      match lane with
      | some l => ((s.laneFault d c k l 1 false).mapLanes d c k).showSeq d c
      | none => s.showSeq d c
  else
    let s := ((s.atPhase phase).rowSettle d c k).testWords d c k
    let x := s.core d c k
    match s.logOfDie d with
    | none => s
    | some ld =>
      let target := 2 * 4096 + ld
      let es := s.windowsOf 4 target
      let win := (s.epoch, Eph.unionEnd es es.length s.phase)
      if s.remaining 4 target < s.segmentNs then s.want 4 target
      else if s.reg (Reg.SEQ_CORE_STATUS_STATE d c k) ≠ 0 ∨ x.due.isSome ∨ x.tested = some win then s
      else
        let s := (s.setCore d c k { x with tested := some win }).setReg (Reg.SEQ_CORE_STATUS_STATE d c k) 3
        let z := s.cluster d c
        s.putCluster d c { z with selfTest := z.selfTest ++ [k] }

end Sys2Proof.Machine
end

