-- ==== Sys2Proof/Machine/LaneCommands.lean ====
section
/-! DEFINITION. The core's row, its drain, self-test, core storage and control engines (R170 to R229). -/
namespace Sys2Proof.Machine

/-- PASS_BOUNDARY (R189): the first beat of a pass enters physical lane 0, taking a bank or reporting an accumulator overflow. -/
def execPassBoundary (d : Die) (c : Cluster) (k : CoreNo) (p : Pass) (adv : Nat) (arrived : List Arrival)
    (s : State) : Host.Outcome State Fault Refusal :=
  .next (s.whenOn fun s => s.passBoundary d c k p adv arrived)

/-- WEIGHT_SLOT_WRITE (R194): the weight port writes a released slot and its scale bytes with the new pass tag. -/
def execWeightSlotWrite (d : Die) (c : Cluster) (k : CoreNo) (lane : Lane) (slot : Fin 128) (tag : Bool) (src : WeightSource) (off : Nat) (fmt : Fin 16) (adv : Nat) (arrived : List Arrival)
    (s : State) : Host.Outcome State Fault Refusal :=
  .next (s.whenOn fun s => s.weightWrite d c k lane slot tag src off fmt adv arrived)

/-- ROW_FREEZE (R195): A freeze cause holds, so the whole row freezes and the frozen cycle is counted under one cause. -/
def execRowFreeze (d : Die) (c : Cluster) (k : CoreNo) (q : FreezeCauses) (adv : Nat) (s : State) : Host.Outcome State Fault Refusal :=
  .next (s.whenOn fun s => s.rowFreeze d c k q adv)

/-- FREEZE_END (R196): in the first cycle in which no cause holds, the row advances again. -/
def execFreezeEnd (d : Die) (c : Cluster) (k : CoreNo) (s : State) : Host.Outcome State Fault Refusal := .next (s.whenOn fun s => s.freezeEnd d c k)

/-- DUMMY_RAMP_DOWN (R199): from a freeze's 65th cycle, lanes doing dummy operations fall by RAMP_LIMIT per cycle. -/
def execDummyRampDown (d : Die) (c : Cluster) (k : CoreNo) (s : State) : Host.Outcome State Fault Refusal :=
  .next (s.whenOn fun s => s.dummyRampDown d c k)

/-- DUMMY_GAP_END (R197): after 64 cycles of dummy beats in a gap, the feeder stops sending. -/
def execDummyGapEnd (d : Die) (c : Cluster) (k : CoreNo) (adv : Nat) (s : State) : Host.Outcome State Fault Refusal :=
  .next (s.whenOn fun s => s.dummyGapEnd d c k adv)

/-- ROW_TOTAL_WRITE (R188): A lane writes its row total into the accumulator file after the stage 4 of the row's last beat. -/
def execRowTotalWrite (d : Die) (c : Cluster) (k : CoreNo) (lane : Fin 64) (adv : Nat) (arrived : List Arrival)
    (s : State) : Host.Outcome State Fault Refusal :=
  .next (s.whenOn fun s => s.rowTotalWrite d c k lane adv arrived)

/-- DRAIN_READ_ROW (R208): once the alignment count has passed, the drain reads one row, and releases the bank after its last row. -/
def execDrainReadRow (d : Die) (c : Cluster) (k : CoreNo) (bank : Fin 2) (adv : Nat) (s : State) : Host.Outcome State Fault Refusal :=
  .next (s.whenOn fun s => s.drainRead d c k bank adv)

/-- DRAIN_WRITE_ROW (R209): ten cycles after the read, the drain applies the epilogue and writes the row into drain output. -/
def execDrainWriteRow (d : Die) (c : Cluster) (k : CoreNo) (batch : Nat) (m : Nat) (n : Nat) (s : State) : Host.Outcome State Fault Refusal :=
  .next (s.whenOn fun s => s.drainWrite d c k batch m n)

/-- SELF_TEST_SEGMENT (R216): in a SCRUB kind-2 window, at an empty pass boundary, a core runs one self-test segment. -/
def execSelfTestSegment (phase : Fin 65536) (d : Die) (c : Cluster) (k : CoreNo) (ended : Bool) (lane : Option Lane)
    (s : State) : Host.Outcome State Fault Refusal :=
  .next (s.whenOn fun s => s.selfTest phase d c k ended (lane.map (·.val)))

/-- CORE_ECC_CORRECTED (R214): A correctable core-storage error is corrected, written back at a free slot and counted. -/
def execCoreEccCorrected (d : Die) (c : Cluster) (k : CoreNo) (m : CoreStorage) (s : State) : Host.Outcome State Fault Refusal :=
  .next (s.whenOn fun s => s.coreCorrected d c k m)

/-- CORE_ECC_UNCORRECTABLE (R215): an uncorrectable core-storage error ends the readers, pattern-tests the word and records a soft or hard fault.
-/
def execCoreEccUncorrectable (d : Die) (c : Cluster) (k : CoreNo) (m : CoreStorage) (lane : Lane) (place : Nat) (reader : Bool) (hard : Bool)
    (s : State) : Host.Outcome State Fault Refusal :=
  .next (s.whenOn fun s => s.coreUncorrectable d c k m lane place reader hard)

/-- CONTROL_ENGINE_FAULT (R223): an illegal instruction, bad access or bound overrun ends the macro-operation with Compute Program Fault. -/
def execControlEngineFault (d : Die) (c : Cluster) (k : CoreNo) (cause : CeFault) (s : State) : Host.Outcome State Fault Refusal :=
  .next (s.whenOn fun s => s.controlFault d c k cause)

/-- CONTROL_ENGINE_WATCHDOG (R224): 65,536 cycles without a retired instruction end the macro-operation with Compute Hardware Fault. -/
def execControlEngineWatchdog (d : Die) (c : Cluster) (k : CoreNo) (s : State) : Host.Outcome State Fault Refusal :=
  .next (s.whenOn fun s => s.watchdog d c k)

end Sys2Proof.Machine
end

