-- ==== Sys2Proof/Machine/LinkCommands.lean ====
section
/-! DEFINITION. Limuc links, flits and messages (R612 to R637). -/
namespace Sys2Proof.Machine

/-- LINK_DETECT (R615): partner signal on at least four lanes starts equalisation and lane testing. -/
def execLinkDetect (link : LinkNo) (bad : Nat) (s : State) : Host.Outcome State Fault Refusal := .next (s.whenOn fun s => s.linkDetect link bad)

/-- LINK_TRAINED (R615): lanes lock and INIT is exchanged, so lanes are mapped, state reset and delay measured. -/
def execLinkTrained (link : LinkNo) (init : InitMsg) (delay : Nat) (s : State) : Host.Outcome State Fault Refusal :=
  .next (s.whenOn fun s => s.linkTrained link init delay)

/-- LINK_TRAIN_TIMEOUT (R615): 20 ms without training success returns the link to DETECT. -/
def execLinkTrainTimeout (link : LinkNo) (s : State) : Host.Outcome State Fault Refusal := .next (s.whenOn fun s => s.linkTrainTimeout link)

/-- LIMUC_LANE_RETIRE (R614): A lane is retired, and the link remaps in RECOVER and records a span fault. -/
def execLimucLaneRetire (link : LinkNo) (lane : Fin 9) (s : State) : Host.Outcome State Fault Refusal :=
  .next (s.whenOn fun s => s.limucLaneRetire link lane)

/-- LINK_REPLAY_LIMIT (R615): A flit replayed 8 times without acknowledgement retrains all lanes. -/
def execLinkReplayLimit (link : LinkNo) (s : State) : Host.Outcome State Fault Refusal := .next (s.whenOn fun s => s.replayLimit link)

/-- LINK_RECOVERED (R615): RECOVER ends within 1 ms at half width or more, and replay resumes. -/
def execLinkRecovered (link : LinkNo) (s : State) : Host.Outcome State Fault Refusal := .next (s.whenOn fun s => s.linkRecovered link)

/-- LINK_RECOVER_TIMEOUT (R615): RECOVER fails or lasts 1 ms, unacknowledged flits are discarded and the link goes down. -/
def execLinkRecoverTimeout (link : LinkNo) (s : State) : Host.Outcome State Fault Refusal := .next (s.whenOn fun s => s.recoverTimeout link)

/-- LINK_DISABLE (R615): LINK_ENABLE cleared or the domain switched off disables the link. -/
def execLinkDisable (link : LinkNo) (s : State) : Host.Outcome State Fault Refusal := .next (s.whenOn fun s => s.linkDisable link)

/-- LINK_ACK_CREDIT_TIMER (R620): on each link, every 64 ns an end sends the pending ACK and returns any freed credits in a CREDIT message. -/
def execLinkAckCreditTimer (link : LinkNo) (s : State) : Host.Outcome State Fault Refusal := .next (s.whenOn fun s => s.ackTimer link)

/-- FLIT_RECEIVE (R618): A received flit is checked for CRC and SEQ, accepted or NAKed, and its messages delivered. -/
def execFlitReceive (link : LinkNo) (f : Flit) (t : Nat) (ns : Nat) (s : State) : Host.Outcome State Fault Refusal :=
  .next (s.whenOn fun s => s.flitIn link f t ns)

/-- NAK_RECEIVE (R618): A NAK makes the sender replay from ACK plus 1. -/
def execNakReceive (link : LinkNo) (ack : Nat) (s : State) : Host.Outcome State Fault Refusal := .next (s.whenOn fun s => s.nakReceive link ack)

/-- PROBE_SEND (R617): every 1 ms an ACTIVE link sends a PROBE. -/
def execProbeSend (link : LinkNo) (t : Nat) (s : State) : Host.Outcome State Fault Refusal := .next (s.whenOn fun s => s.probeSend link t)

/-- PROBE (R617): A PROBE is answered, or its round trip updates the link delay. -/
def execProbe (link : LinkNo) (m : LMsg) (t : Nat) (s : State) : Host.Outcome State Fault Refusal :=
  .next (s.whenOn fun s => s.deliver link (typed 0x0B m) t 0)

/-- CREDIT (R620): A CREDIT message returns link credits per virtual channel. -/
def execCredit (link : LinkNo) (m : LMsg) (s : State) : Host.Outcome State Fault Refusal :=
  .next (s.whenOn fun s => s.deliver link (typed 0x09 m) 0 0)

/-- READ64 (R626): A READ64 is served from the span range inside the sender's window, or answered UNMAPPED. -/
def execRead64 (link : LinkNo) (m : LMsg) (s : State) : Host.Outcome State Fault Refusal :=
  .next (s.whenOn fun s => s.deliver link (typed 0x01 m) 0 0)

/-- WRITE64 (R626): A WRITE64 writes masked bytes in the sender's window. -/
def execWrite64 (link : LinkNo) (m : LMsg) (s : State) : Host.Outcome State Fault Refusal :=
  .next (s.whenOn fun s => s.deliver link (typed 0x02 m) 0 0)

/-- CADD (R626): A CADD performs a compensated add at the holder. -/
def execCadd (link : LinkNo) (m : LMsg) (s : State) : Host.Outcome State Fault Refusal := .next (s.whenOn fun s => s.deliver link (typed 0x03 m) 0 0)

/-- BULK (R634): A BULK move writes the following data flits to ADDR. -/
def execBulk (link : LinkNo) (m : LMsg) (s : State) : Host.Outcome State Fault Refusal := .next (s.whenOn fun s => s.deliver link (typed 0x04 m) 0 0)

/-- ACT (R367): an ACT piece writes activation data into the IN end's slot. -/
def execAct (link : LinkNo) (m : LMsg) (s : State) : Host.Outcome State Fault Refusal := .next (s.whenOn fun s => s.deliver link (typed 0x05 m) 0 0)

/-- DIR (R640): A directory message to one module is acted on and answered with DIRR. -/
def execDir (link : LinkNo) (m : LMsg) (s : State) : Host.Outcome State Fault Refusal := .next (s.whenOn fun s => s.deliver link (typed 0x07 m) 0 0)

/-- DIR_BCAST (R640): A directory broadcast is accepted, forwarded or dropped as a copy. -/
def execDirBcast (link : LinkNo) (m : LMsg) (s : State) : Host.Outcome State Fault Refusal :=
  .next (s.whenOn fun s => s.deliver link (typed 0x08 m) 0 0)

/-- RDATA (R623): A read response ends the issuer's access with its STATUS. -/
def execRdata (link : LinkNo) (m : LMsg) (s : State) : Host.Outcome State Fault Refusal := .next (s.whenOn fun s => s.answerIn link (typed 0x81 m))

/-- WACK (R623): A write or add acknowledgement ends the issuer's access. -/
def execWack (link : LinkNo) (m : LMsg) (s : State) : Host.Outcome State Fault Refusal := .next (s.whenOn fun s => s.deliver link (typed 0x82 m) 0 0)

/-- BACK (R623): A bulk acknowledgement ends the move. -/
def execBack (link : LinkNo) (m : LMsg) (s : State) : Host.Outcome State Fault Refusal := .next (s.whenOn fun s => s.deliver link (typed 0x84 m) 0 0)

/-- AACK (R623): an activation acknowledgement completes the piece, or CLOSED keeps the slot in flight. -/
def execAack (link : LinkNo) (m : LMsg) (s : State) : Host.Outcome State Fault Refusal := .next (s.whenOn fun s => s.deliver link (typed 0x85 m) 0 0)

/-- DIRR (R640): A directory response carries its outcome back to the sender. -/
def execDirr (link : LinkNo) (m : LMsg) (s : State) : Host.Outcome State Fault Refusal := .next (s.whenOn fun s => s.deliver link (typed 0x87 m) 0 0)

/-- TWACK (R647): the twin acknowledgement lets a mirrored command complete. -/
def execTwack (link : LinkNo) (m : LMsg) (ns : Nat) (s : State) : Host.Outcome State Fault Refusal :=
  .next (s.whenOn fun s => s.deliver link (typed 0x90 m) 0 ns)

/-- TCRSP (R622): A twin control response completes a handshake step. -/
def execTcrsp (link : LinkNo) (m : LMsg) (s : State) : Host.Outcome State Fault Refusal := .next (s.whenOn fun s => s.deliver link (typed 0x95 m) 0 0)

/-- NOT_READY_RETRY (R624): after RETRY_MS the source hub repeats a request that was answered NOT_READY. -/
def execNotReadyRetry (tag : Nat) (s : State) : Host.Outcome State Fault Refusal := .next (s.whenOn fun s => (s.notReadyRetry tag).answersGoOn)

/-- SPAN_REQUEST_TIMEOUT (R625): A request without response within SPN_TIMEOUT ends with Span Peer Unreachable. -/
def execSpanRequestTimeout (tag : Nat) (s : State) : Host.Outcome State Fault Refusal := .next (s.whenOn fun s => (s.requestTimeout tag).answersGoOn)

/-- FLIT_HOLD_DISCARD (R631): A flit held 10 ms without credit is discarded. -/
def execFlitHoldDiscard (link : LinkNo) (s : State) : Host.Outcome State Fault Refusal := .next (s.whenOn fun s => s.holdDiscard link)

end Sys2Proof.Machine
end

