-- ==== Sys2Proof/Machine/MacroCommands.lean ====
section
/-! DEFINITION. Macro-operations, marks and contexts, the Eyepiece, compensated adds (R230 to R283, R293 to R324). -/
namespace Sys2Proof.Machine

/-- MMA (R237): the MMA macro-operation is decoded, checked and walked as tiles of passes, with the epilogue at the drain. -/
def execMma (d : Die) (c : Cluster) (desc : BitVec 1024) (s : State) : Host.Outcome State Fault Refusal :=
  .next (s.whenOn fun s => s.macroOp 0x01 d c desc)

/-- MMA_CHAIN (R253): MMA_CHAIN consumes the open chain as operand A. -/
def execMmaChain (d : Die) (c : Cluster) (desc : BitVec 1024) (s : State) : Host.Outcome State Fault Refusal :=
  .next (s.whenOn fun s => s.macroOp 0x02 d c desc)

/-- REDUCE (R238): REDUCE sums on the row, or takes the maximum, minimum or absolute maximum on the control engines. -/
def execReduce (d : Die) (c : Cluster) (desc : BitVec 1024) (s : State) : Host.Outcome State Fault Refusal :=
  .next (s.whenOn fun s => s.macroOp 0x03 d c desc)

/-- SELECT (R259): SELECT forms the top-k of keys by compare-exchange sorts and merges, and writes a result block. -/
def execSelect (d : Die) (c : Cluster) (desc : BitVec 1024) (s : State) : Host.Outcome State Fault Refusal :=
  .next (s.whenOn fun s => s.macroOp 0x04 d c desc)

/-- SCAN_CODES (R181): SCAN_CODES scores items against queries in distance mode, optionally fused with selection. -/
def execScanCodes (d : Die) (c : Cluster) (desc : BitVec 1024) (s : State) : Host.Outcome State Fault Refusal :=
  .next (s.whenOn fun s => s.macroOp 0x05 d c desc)

/-- FILTER (R183): FILTER evaluates predicate terms over records and packs pass bits. -/
def execFilter (d : Die) (c : Cluster) (desc : BitVec 1024) (s : State) : Host.Outcome State Fault Refusal :=
  .next (s.whenOn fun s => s.macroOp 0x06 d c desc)

/-- CONVERT (R309): CONVERT widens elements to FP32 and applies the epilogue, or copies the bits. -/
def execConvert (d : Die) (c : Cluster) (desc : BitVec 1024) (s : State) : Host.Outcome State Fault Refusal :=
  .next (s.whenOn fun s => s.macroOp 0x07 d c desc)

/-- COPY (R716): COPY moves LENGTH bytes per batch between device-virtual, cluster-store and plates spaces. -/
def execCopy (d : Die) (c : Cluster) (desc : BitVec 1024) (s : State) : Host.Outcome State Fault Refusal :=
  .next (s.whenOn fun s => s.macroOp 0x08 d c desc)

/-- ATOMIC_ADD (R324): ATOMIC_ADD sends N FP32 adds to compensated pairs. -/
def execAtomicAdd (d : Die) (c : Cluster) (desc : BitVec 1024) (s : State) : Host.Outcome State Fault Refusal :=
  .next (s.whenOn fun s => s.macroOp 0x09 d c desc)

/-- MACRO_COMPLETE (R230): once all of a macro-operation's writes are accepted, it completes, opening a chain or adding scale counts. -/
def execMacroComplete (d : Die) (c : Cluster) (effects : List GlueEffect) (s : State) : Host.Outcome State Fault Refusal :=
  .next (s.whenOn fun s => (s.macroComplete d c effects).sanitizeGoesOn)

/-- MACRO_FAULT (R233): A macro-operation ending in failure drops the rest of its execution and records SEQ_FAULT. -/
def execMacroFault (d : Die) (c : Cluster) (code : Nat) (s : State) : Host.Outcome State Fault Refusal :=
  .next (s.whenOn fun s => (s.macroFault d c code).sanitizeGoesOn)

/-- MARK_REACHED (R273): at a pre-emption mark the cluster takes it when all banks are FREE, or passes it over. -/
def execMarkReached (d : Die) (c : Cluster) (s : State) : Host.Outcome State Fault Refusal := .next (s.whenOn fun s => (s.markReached d c).sanitizeGoesOn)

/-- CONTEXT_SAVE_DONE (R411): A context save ends and the cluster is released to the next job. -/
def execContextSaveDone (d : Die) (c : Cluster) (s : State) : Host.Outcome State Fault Refusal := .next (s.whenOn fun s => (s.contextSaveDone d c).sanitizeGoesOn)

/-- EYE_HALT (R280): writing HALT 1 stops new passes, and HALTED follows once the row is empty. -/
def execEyeHalt (d : Die) (c : Cluster) (s : State) : Host.Outcome State Fault Refusal :=
  .next (s.onBus fun s => s.eyeAccess d c fun s => s.eyeHalt d c)

/-- EYE_RESUME (R280): writing HALT 0 resumes the walk where it stopped. -/
def execEyeResume (d : Die) (c : Cluster) (s : State) : Host.Outcome State Fault Refusal :=
  .next (s.onBus fun s => s.eyeAccess d c fun s => s.eyeResume d c)

/-- EYE_HALTED (R280): the row of a halting cluster empties, and HALTED is set. -/
def execEyeHalted (d : Die) (c : Cluster) (s : State) : Host.Outcome State Fault Refusal := .next (s.whenOn fun s => s.eyeHalted d c)

/-- EYE_DATA_READ (R281): A read of EYE_DATA returns accumulator values, or all ones with REFUSED when not halted. -/
def execEyeDataRead (d : Die) (c : Cluster) (lane : Fin 64) (s : State) : Host.Outcome State Fault Refusal :=
  .next (s.whenOn fun s => s.busRead ((Reg.EYE_DATA_VALUE d c lane).addr) false)

/-- COMPENSATED_ADD (R320): the near-memory unit adds one FP32 value to a compensated pair indivisibly. -/
def execCompensatedAdd (acct : Account) (addr : Nat) (v : BitVec 32) (s : State) : Host.Outcome State Fault Refusal :=
  .next (s.whenOn fun s => s.compensatedAddAt acct addr v.toNat)

end Sys2Proof.Machine
end

