-- ==== Sys2Proof/Machine/MediaCommands.lean ====
section
/-! DEFINITION. Flash dies, errors of flash, SRAM and HBM, scrubs (R467 to R509). -/
namespace Sys2Proof.Machine

/-- FLASH_READ (R479): A read request reaches its die and is served directly, by detour or by suspend, or waits. -/
def execFlashRead (slot : Slot) (die : Fin 128) (block : Fin 8448) (row : Fin 512) (cws : Nat) (origin : Machine.Origin)
    (s : State) : Host.Outcome State Fault Refusal :=
  .next (s.whenOn fun s => s.flashRead ⟨⟨slot, die, block⟩, row, cws, origin⟩)

/-- FLASH_READ_DONE (R485): A page-row read completes, and codewords are recovered through the decode ladder. -/
def execFlashReadDone (stripe : Fin 524288) (group : Fin 16) (row : Fin 512) (coude : Bool) (detour : Bool) (cws : List CwRead)
    (s : State) : Host.Outcome State Fault Refusal :=
  .next (s.whenOn fun s => s.flashReadDone stripe group row coude detour cws)

/-- FLASH_PROGRAM (R476): A program is issued in an open window with enough remaining time. -/
def execFlashProgram (phase : Fin 65536) (stripe : Fin 524288) (group : Fin 16) (s : State) : Host.Outcome State Fault Refusal :=
  .next (s.whenOn fun s => s.flashProgram phase stripe group)

/-- PROGRAM_END (R476): A program ends, marking the row programmed or the die-block failed. -/
def execProgramEnd (slot : Slot) (die : Fin 128) (pass : Bool) (s : State) : Host.Outcome State Fault Refusal :=
  .next (s.whenOn fun s => ((s.programEnd slot die pass).rawDone slot die).roomFreed)

/-- FLASH_ERASE (R497): ERASE_INTENT is journaled and an erase is issued in an open erase window. -/
def execFlashErase (phase : Fin 65536) (stripe : Fin 524288) (group : Fin 16) (s : State) : Host.Outcome State Fault Refusal :=
  .next (s.whenOn fun s => (s.flashErase phase stripe group).roomFreed)

/-- ERASE_END (R476): an erase ends, writing ERASE_DONE or marking the die-block failed. -/
def execEraseEnd (slot : Slot) (die : Fin 128) (pass : Bool) (s : State) : Host.Outcome State Fault Refusal :=
  .next (s.whenOn fun s => ((s.eraseEnd slot die pass).rawDone slot die).roomFreed)

/-- ERASE_RESUME (R475): A suspended erase resumes in its group's erase window. -/
def execEraseResume (phase : Fin 65536) (slot : Slot) (die : Fin 128) (s : State) : Host.Outcome State Fault Refusal :=
  .next (s.whenOn fun s => s.eraseResume phase slot die)

/-- ERASED_STATE_CHECK (R499): before a die-block's first program, sample pages are checked, and a half-erased block is re-erased. -/
def execErasedStateCheck (stripe : Fin 524288) (group : Fin 16) (worst : Nat) (s : State) : Host.Outcome State Fault Refusal :=
  .next (s.whenOn fun s => s.erasedCheck stripe group worst)

/-- SRAM_UNCORRECTABLE (R489): an uncorrectable SRAM byte outside cores is handled as Table 10-8 gives. -/
def execSramUncorrectable (m : SramFault) (s : State) : Host.Outcome State Fault Refusal := .next (s.whenOn fun s => s.sramFault m)

/-- HBM_CORRECTABLE (R492): A correctable HBM error is corrected and written back, and the unit may be retired. -/
def execHbmCorrectable (unit : Machine.HbmUnit) (s : State) : Host.Outcome State Fault Refusal := .next (s.whenOn fun s => s.hbmCorrectable unit)

/-- HBM_UNCORRECTABLE (R494): an uncorrectable HBM codeword is restored from its copy or far copy, or its page is lost. -/
def execHbmUncorrectable (unit : Machine.HbmUnit) (s : State) : Host.Outcome State Fault Refusal := .next (s.whenOn fun s => s.hbmUncorrectable unit)

/-- SCRUB_START (R504): SCB START begins a flash or HBM scrub of a range, or is refused. -/
def execScrubStart (n : Fin 4) (kind : Fin 2) (s : State) : Host.Outcome State Fault Refusal := .next (s.onBus fun s => s.scrubStart n kind)

/-- SCRUB_STOP (R504): SCB STOP ends the scrub at the next codeword. -/
def execScrubStop (n : Fin 4) (s : State) : Host.Outcome State Fault Refusal := .next (s.onBus fun s => s.scrubStop n)

/-- SCRUB_STRIPE (R501): in a SCRUB window, one stripe is read through the decode ladder or skipped. -/
def execScrubStripe (n : Fin 4) (phase : Fin 65536) (cws : List CwRead) (s : State) : Host.Outcome State Fault Refusal :=
  .next (s.whenOn fun s => s.scrubStripe n phase cws)

/-- SCRUB_HBM (R502): in a SCRUB window, HBM codewords of the range are read and corrected. -/
def execScrubHbm (n : Fin 4) (phase : Fin 65536) (hits : List HbmHit) (s : State) : Host.Outcome State Fault Refusal :=
  .next (s.whenOn fun s => s.scrubHbm n phase hits)

/-- RAW_READ (R477): MED_DIAG_CMD RAW_READ returns an undecoded page as a background read, or fails. -/
def execRawRead (dmaOk : Bool) (s : State) : Host.Outcome State Fault Refusal := .next (s.onBus fun s => s.rawRead dmaOk)

end Sys2Proof.Machine
end

