-- ==== Sys2Proof/Machine/NvmeCommands.lean ====
section
/-! DEFINITION. NVMe commands: I/O, namespaces, programs, memory, log pages (R560 to R605). -/
namespace Sys2Proof.Machine

/-- NVME_READ (R516): an NVMe Read returns sectors of a namespace. -/
def execNvmeRead (cid : Nat) (ctl : Nat) (nsid : Nat) (lba : Nat) (n : Nat) (s : State) : Host.Outcome State Fault Refusal :=
  .next (s.whenOn fun s => s.submit ⟨cid, ctl, .read nsid lba n⟩)

/-- NVME_WRITE (R518): an NVMe Write takes a range lock, mirrors to the twin and buffers the data. -/
def execNvmeWrite (cid : Nat) (ctl : Nat) (nsid : Nat) (lba : Nat) (data : List Sector) (s : State) : Host.Outcome State Fault Refusal :=
  .next (s.whenOn fun s => s.submit ⟨cid, ctl, .write nsid lba data⟩)

/-- WRITE_ZEROES (R579): write Zeroes writes zeros to a range under a range lock. -/
def execWriteZeroes (cid : Nat) (ctl : Nat) (nsid : Nat) (lba : Nat) (n : Nat) (s : State) : Host.Outcome State Fault Refusal :=
  .next (s.whenOn fun s => s.submit ⟨cid, ctl, .zeroes nsid lba n⟩)

/-- FLUSH (R571): flush completes at once, since there is no volatile cache. -/
def execFlush (cid : Nat) (ctl : Nat) (s : State) : Host.Outcome State Fault Refusal := .next (s.whenOn fun s => s.flush cid ctl)

/-- DATASET_MANAGEMENT (R550): deallocate unmaps whole units or adds trim entries. -/
def execDatasetManagement (cid : Nat) (ctl : Nat) (nsid : Nat) (ranges : List (Nat × Nat)) (s : State) : Host.Outcome State Fault Refusal :=
  .next (s.whenOn fun s => s.submit ⟨cid, ctl, .deallocate nsid ranges⟩)

/-- SECURE_DEALLOCATE (R602): secure Deallocate erases every physical copy of its ranges before completing. -/
def execSecureDeallocate (cid : Nat) (ctl : Nat) (nsid : Nat) (ranges : List (Nat × Nat)) (s : State) : Host.Outcome State Fault Refusal :=
  .next (s.whenOn fun s => s.submit ⟨cid, ctl, .secure nsid ranges⟩)

/-- NVME_COPY (R593): copy moves data within or between NVM and memory namespaces. -/
def execNvmeCopy (cid : Nat) (ctl : Nat) (nsid : Nat) (dst : Nat) (ranges : List SrcRange) (s : State) : Host.Outcome State Fault Refusal :=
  .next (s.whenOn fun s => s.submit ⟨cid, ctl, .copy nsid dst ranges⟩)

/-- ZONE_APPEND (R552): zone Append writes at a zone's write pointer. -/
def execZoneAppend (cid : Nat) (ctl : Nat) (nsid : Nat) (zslba : Nat) (data : List Sector) (s : State) : Host.Outcome State Fault Refusal :=
  .next (s.whenOn fun s => s.submit ⟨cid, ctl, .zoneAppend nsid zslba data⟩)

/-- ZONE_OPEN (R575): opening a zone seals the least recently extended fill if needed. -/
def execZoneOpen (cid : Nat) (ctl : Nat) (nsid : Nat) (zslba : Nat) (s : State) : Host.Outcome State Fault Refusal :=
  .next (s.whenOn fun s => s.submit ⟨cid, ctl, .zoneOpen nsid zslba⟩)

/-- ZONE_FINISH (R553): zone Finish seals the zone's stripe. -/
def execZoneFinish (cid : Nat) (ctl : Nat) (nsid : Nat) (zslba : Nat) (s : State) : Host.Outcome State Fault Refusal :=
  .next (s.whenOn fun s => s.submit ⟨cid, ctl, .zoneFinish nsid zslba⟩)

/-- ZONE_RESET (R553): zone Reset deallocates the whole unit. -/
def execZoneReset (cid : Nat) (ctl : Nat) (nsid : Nat) (zslba : Nat) (s : State) : Host.Outcome State Fault Refusal :=
  .next (s.whenOn fun s => s.submit ⟨cid, ctl, .zoneReset nsid zslba⟩)

/-- RANGE_LOCK_RELEASE (R580): A command's completion releases its range-lock entry, and waiting commands proceed. -/
def execRangeLockRelease (cid : Nat) (ctl : Nat) (s : State) : Host.Outcome State Fault Refusal := .next (s.whenOn fun s => s.lockRelease cid ctl)

/-- ABORT (R583): abort catches a command that has not started, or lets it complete. -/
def execAbort (cid : Nat) (ctl : Nat) (target : Nat) (outstanding : Nat) (s : State) : Host.Outcome State Fault Refusal :=
  .next (s.whenOn fun s => s.abortCmd cid ctl target outstanding)

/-- IDENTIFY_CONTROLLER (R571): identify Controller returns the fixed controller data. -/
def execIdentifyController (cid : Nat) (ctl : Nat) (s : State) : Host.Outcome State Fault Refusal := .next (s.whenOn fun s => s.identifyCtl cid ctl)

/-- IDENTIFY_NAMESPACE (R576): identify Namespace returns a namespace's data. -/
def execIdentifyNamespace (cid : Nat) (ctl : Nat) (nsid : Nat) (s : State) : Host.Outcome State Fault Refusal :=
  .next (s.whenOn fun s => s.identifyNs cid ctl nsid)

/-- NAMESPACE_CREATE (R574): namespace Management creates an NVM, zoned or memory namespace. -/
def execNamespaceCreate (cid : Nat) (ctl : Nat) (spec : NsSpec) (s : State) : Host.Outcome State Fault Refusal :=
  .next (s.whenOn fun s => s.createNs cid ctl spec)

/-- NAMESPACE_DELETE (R588): deleting a namespace deletes the memory range sets that use it. -/
def execNamespaceDelete (cid : Nat) (ctl : Nat) (nsid : Nat) (s : State) : Host.Outcome State Fault Refusal :=
  .next (s.whenOn fun s => s.deleteNs cid ctl nsid)

/-- VIRTUALIZATION_MANAGEMENT (R577): queue and interrupt resources are assigned to VFs. -/
def execVirtualizationManagement (cid : Nat) (ctl : Nat) (vf : Nat) (interrupts : Bool) (n : Nat) (s : State) : Host.Outcome State Fault Refusal :=
  .next (s.whenOn fun s => s.assignResources cid ctl vf interrupts n)

/-- LOAD_PROGRAM (R586): load Program writes a plan image into an inactive slot. -/
def execLoadProgram (cid : Nat) (ctl : Nat) (program : Nat) (image : PlanImage) (s : State) : Host.Outcome State Fault Refusal :=
  .next (s.whenOn fun s => s.loadProgram cid ctl program image)

/-- PROGRAM_ACTIVATION (R586): program Activation Management checks the plan header and activates the slot. -/
def execProgramActivation (cid : Nat) (ctl : Nat) (program : Nat) (on : Bool) (s : State) : Host.Outcome State Fault Refusal :=
  .next (s.whenOn fun s => s.activateProgram cid ctl program on)

/-- CREATE_MEMORY_RANGE_SET (R588): A set of 1 to 16 memory ranges of one account is built. -/
def execCreateMemoryRangeSet (cid : Nat) (ctl : Nat) (ranges : List MemRange) (s : State) : Host.Outcome State Fault Refusal :=
  .next (s.whenOn fun s => s.createSet cid ctl ranges)

/-- EXECUTE_PROGRAM (R590): an execution passes the steps of Table 12-9 and is admitted as a job, or completes early. -/
def execExecuteProgram (cid : Nat) (ctl : Nat) (program : Nat) (set : Nat) (params : List Byte) (s : State) : Host.Outcome State Fault Refusal :=
  .next (s.whenOn fun s => s.submit ⟨cid, ctl, .execute program set params⟩)

/-- MEMORY_READ (R594): A memory namespace Read reads device-virtual pages. -/
def execMemoryRead (cid : Nat) (ctl : Nat) (nsid : Nat) (start : Nat) (len : Nat) (s : State) : Host.Outcome State Fault Refusal :=
  .next (s.whenOn fun s => s.submit ⟨cid, ctl, .memRead nsid start len⟩)

/-- MEMORY_WRITE (R594): A memory namespace Write writes pages under a range lock. -/
def execMemoryWrite (cid : Nat) (ctl : Nat) (nsid : Nat) (start : Nat) (data : List Byte) (s : State) : Host.Outcome State Fault Refusal :=
  .next (s.whenOn fun s => s.submit ⟨cid, ctl, .memWrite nsid start data⟩)

/-- MEMORY_COPY (R593): memory Copy moves data between memory namespaces. -/
def execMemoryCopy (cid : Nat) (ctl : Nat) (nsid : Nat) (dst : Nat) (ranges : List SrcRange) (s : State) : Host.Outcome State Fault Refusal :=
  .next (s.whenOn fun s => s.submit ⟨cid, ctl, .memCopy nsid dst ranges⟩)

/-- FORMAT_NVM (R597): format NVM deallocates, securely discards or re-keys one namespace. -/
def execFormatNvm (cid : Nat) (ctl : Nat) (nsid : Nat) (ses : Nat) (s : State) : Host.Outcome State Fault Refusal :=
  .next (s.whenOn fun s => s.submit ⟨cid, ctl, .format nsid ses⟩)

/-- SANITIZE (R598): sanitize quiesces, unmaps everything and performs a crypto or block erase. -/
def execSanitize (cid : Nat) (ctl : Nat) (block : Bool) (s : State) : Host.Outcome State Fault Refusal :=
  .next (s.whenOn fun s => s.submit ⟨cid, ctl, .sanitize block⟩)

/-- GET_LOG_PAGE (R604): get Log Page returns a log page and re-enables its event when Retain is clear. -/
def execGetLogPage (cid : Nat) (ctl : Nat) (page : Nat) (retain : Bool) (s : State) : Host.Outcome State Fault Refusal :=
  .next (s.whenOn fun s => s.getLogPage cid ctl page retain)

end Sys2Proof.Machine
end

