-- ==== Sys2Proof/Machine/PowerCommands.lean ====
section
/-! DEFINITION. Power, start-up, resets, the button, refurbishment, calibration, temperature, cartridges (R17 to R27, R660 to R706). -/
namespace Sys2Proof.Machine

/-- POWER_UP (R660): P54 comes within range after being absent, and the power-up timeline begins. -/
def execPowerUp (absentMs : Nat) (energy : Nat) (bay : BayId) (present : Nat) (refclk : Bool) (s : State) : Host.Outcome State Fault Refusal :=
  .next (s.always fun s => s.powerUp absentMs energy bay present refclk)

/-- MODULE_INSERT (R22): insertion into a powered bay limits inrush current, starts the always-on domain and charges the hold-up bank. -/
def execModuleInsert (s : State) : Host.Outcome State Fault Refusal := .next (s.always fun s => s.moduleInsert)

/-- HOLDUP_CHARGED (R23): the hold-up bank finishes charging, which opens part of the NVMe ready gate. -/
def execHoldupCharged (ms : Nat) (s : State) : Host.Outcome State Fault Refusal := .next (s.always fun s => s.holdupCharged ms)

/-- HOLDUP_MEASURE (R21): at the 24-hour timer the hold-up energy is measured, and the low-energy write-through mode is entered or left. -/
def execHoldupMeasure (energy : Nat) (wh : Nat) (s : State) : Host.Outcome State Fault Refusal := .next (s.whenOn fun s => s.holdupMeasure energy wh)

/-- INPUT_OUT_OF_RANGE (R19): the input stays below 44 V for 20 us or rises above 60 V, so the module disconnects its input. -/
def execInputOutOfRange (used : Nat) (s : State) : Host.Outcome State Fault Refusal := .next (s.always fun s => s.inputOut used)

/-- SLOT_POWER (R694): A PWR_SLOT_CTRL write switches a cartridge load switch, or is refused for an active cartridge. -/
def execSlotPower (slot : Nat) (on : Bool) (s : State) : Host.Outcome State Fault Refusal := .next (s.onBus fun s => s.slotPower slot on)

/-- ATTN_PRESS_RELEASE (R668): release of an ATTN# press held under 2 s toggles LOCATE. -/
def execAttnPressRelease (ms : Nat) (s : State) : Host.Outcome State Fault Refusal := .next (s.whenOn fun s => s.attnRelease ms)

/-- ATTN_HOLD_5S (R669): ATTN# held for 5 s sets WITHDRAW, starts DETACH when paired, and then shows safe to remove. -/
def execAttnHold5s (s : State) : Host.Outcome State Fault Refusal := .next (s.whenOn fun s => s.attnHold)

/-- COLD_RESET (R665): SVC_RESET KIND 2 resets everything except the configuration store, identity memories and flash. -/
def execColdReset (t : Nat) (bay : BayId) (present : Nat) (s : State) : Host.Outcome State Fault Refusal :=
  .next (s.whenOn fun s => s.coldReset t bay present)

/-- WARM_RESET (R665): SVC_RESET KIND 1 or NVM Subsystem Reset resets the compute and host side. -/
def execWarmReset (s : State) : Host.Outcome State Fault Refusal := .next (s.whenOn fun s => s.warmReset)

/-- SVC_LOCK_SET (R6): setting SVC_LOCK freezes every RWL field until cold reset. -/
def execSvcLockSet (s : State) : Host.Outcome State Fault Refusal := .next (s.onBus fun s => s.lockSet)

/-- POWER_ON_SELF_TEST (R664): self-test of every core, HBM controller and Limuc lane retires faulty units before use. -/
def execPowerOnSelfTest (ms : Nat) (bad : List Machine.PostFault) (s : State) : Host.Outcome State Fault Refusal :=
  .next (s.whenOn fun s => s.powerOnTest ms bad)

/-- MAP_RESTORE (R559): at start-up, the checkpoint, journal and dump area are replayed and re-erases are scheduled. -/
def execMapRestore (ms : Nat) (s : State) : Host.Outcome State Fault Refusal := .next (s.whenOn fun s => s.restoreMap ms)

/-- REFURB_BEGIN (R704): SVC_REFURB BEGIN enters refurbishment when its conditions hold. -/
def execRefurbBegin (s : State) : Host.Outcome State Fault Refusal := .next (s.onBus fun s => s.refurbBegin)

/-- RETEST (R705): SVC_REFURB RETEST runs 1,024 segments on every retired unit. -/
def execRetest (s : State) : Host.Outcome State Fault Refusal := .next (s.onBus fun s => s.retest)

/-- RETEST_DONE (R705): the retest ends and passing units leave the retirement list. -/
def execRetestDone (bad : List UnitAddr) (s : State) : Host.Outcome State Fault Refusal := .next (s.whenOn fun s => s.retestDone bad)

/-- REFURB_END (R706): SVC_REFURB END writes a REFURB record. -/
def execRefurbEnd (s : State) : Host.Outcome State Fault Refusal := .next (s.onBus fun s => s.refurbEnd)

/-- EXPORT (R682): CAL_CMD EXPORT copies the calibration set to host memory. -/
def execExportSet (dmaOk : Bool) (s : State) : Host.Outcome State Fault Refusal := .next (s.onBus fun s => s.calExport dmaOk)

/-- CALIBRATION_WRITE (R683): CAL_CMD WRITE checks and stores a new calibration set. -/
def execCalibrationWrite (data : List Byte) (dmaOk : Bool) (flashOk : Bool) (s : State) : Host.Outcome State Fault Refusal :=
  .next (s.onBus fun s => s.calWrite data dmaOk flashOk)

/-- CARTRIDGE_INSERT (R696): A cartridge's identity is read, and it is accepted as parked spare or idle, or refused. -/
def execCartridgeInsert (slot : Slot) (id : Machine.CartId) (s : State) : Host.Outcome State Fault Refusal :=
  .next (s.whenOn fun s => s.cartridgeInsert slot id)

/-- CARTRIDGE_PULL (R695): A pulled cartridge changes its slot's role, or is lost if active or powered. -/
def execCartridgePull (slot : Slot) (s : State) : Host.Outcome State Fault Refusal := .next (s.whenOn fun s => s.pull slot)

/-- THERMAL_STEP_RISE (R689): A measured condition raises the thermal step and its throttling, up to the power-loss sequence. -/
def execThermalStepRise (m : Machine.Climate) (used : Nat) (s : State) : Host.Outcome State Fault Refusal :=
  .next (s.whenOn fun s => s.thermalRise m used)

/-- THERMAL_STEP_FALL (R690): conditions held below entry for 1 s lower the step by one. -/
def execThermalStepFall (m : Machine.Climate) (s : State) : Host.Outcome State Fault Refusal := .next (s.whenOn fun s => s.thermalFall m)

/-- CARTRIDGE_THERMAL_HOLD (R693): A cartridge at 70 C stops programs and erases until it cools to 65 C. -/
def execCartridgeThermalHold (slot : Slot) (temp : Nat) (s : State) : Host.Outcome State Fault Refusal :=
  .next (s.whenOn fun s => s.cartHot slot temp)

/-- CARTRIDGE_THERMAL_RELEASE (R693): A held cartridge's sensor falls to 65 C, and programs and erases on that cartridge may start again. -/
def execCartridgeThermalRelease (slot : Slot) (temp : Nat) (s : State) : Host.Outcome State Fault Refusal :=
  .next (s.whenOn fun s => s.cartCool slot temp)

end Sys2Proof.Machine
end

