-- ==== Sys2Proof/Machine/ServingCommands.lean ====
section
/-! DEFINITION. Sequences, jobs, semaphores (R372 to R427, R591). -/
namespace Sys2Proof.Machine

/-- SWAP_OUT_DONE (R386): the far write of a swapping sequence's last page ends, and the sequence becomes SWAPPED. -/
def execSwapOutDone (entry : Fin 16384) (s : State) : Host.Outcome State Fault Refusal := .next (s.whenOn fun s => s.swapOutDone entry)

/-- CANCEL (R400): SQT_CMD CANCEL marks an entry to leave at the next build. -/
def execCancel (entry : Fin 16384) (s : State) : Host.Outcome State Fault Refusal := .next (s.onBus fun s => s.cancelSeq entry)

/-- RESUME (R393): SQT_CMD RESUME clears FAILS and returns a halted group to serving. -/
def execResume (group : GroupNo) (s : State) : Host.Outcome State Fault Refusal := .next (s.onBus fun s => s.resumeGroup group)

/-- JOB_DISPATCH (R405): when a cluster is free, the ready job with the highest effective balance is placed on it. -/
def execJobDispatch (d : Die) (c : Cluster) (s : State) : Host.Outcome State Fault Refusal := .next (s.whenOn fun s => s.dispatch d c)

/-- ENGINE_TIME_CHARGE (R408): each microsecond a cluster is given to a job is charged to its account. -/
def execEngineTimeCharge (d : Die) (c : Cluster) (us : Nat) (s : State) : Host.Outcome State Fault Refusal :=
  .next (s.whenOn fun s => s.charge d c us)

/-- PREEMPT_DEFER_EXPIRY (R412): after MAX_DEFER, a job holding a semaphore inherits the requester's balance, or the request waits long. -/
def execPreemptDeferExpiry (d : Die) (c : Cluster) (s : State) : Host.Outcome State Fault Refusal := .next (s.whenOn fun s => s.deferExpiry d c)

/-- SEM_ACQUIRE (R415): A glue acquire takes a semaphore or queues for it, faulting on an acquire by the owner. -/
def execSemAcquire (d : Die) (c : Cluster) (k : CoreNo) (n : Fin 1024) (s : State) : Host.Outcome State Fault Refusal :=
  .next (s.whenOn fun s => s.semAcquire d c k n)

/-- SEM_RELEASE (R415): A glue release grants the semaphore to the next waiter, faulting on a release by a non-owner. -/
def execSemRelease (d : Die) (c : Cluster) (k : CoreNo) (n : Fin 1024) (s : State) : Host.Outcome State Fault Refusal :=
  .next (s.whenOn fun s => s.semRelease d c k n)

/-- JOB_END (R591): an execution completes, its semaphores and credits are released, and its NVMe completion is posted. -/
def execJobEnd (job : Fin 4096) (s : State) : Host.Outcome State Fault Refusal := .next (s.whenOn fun s => (s.batchGoesOn job).jobEnd job)

end Sys2Proof.Machine
end

