-- ==== Sys2Proof/Machine/SpanCommands.lean ====
section
/-! DEFINITION. The span directory and twins (R638 to R659). -/
namespace Sys2Proof.Machine

/-- JOIN (R641): the master admits or refuses a joining module. -/
def execJoin (link : LinkNo) (m : LMsg) (s : State) : Host.Outcome State Fault Refusal :=
  .next (s.whenOn fun s => s.deliver link (opTyped 0x07 0x01 m) 0 0)

/-- ALIVE (R640): A heartbeat refreshes a member's liveness, or tells a lost module to JOIN. -/
def execAlive (link : LinkNo) (m : LMsg) (s : State) : Host.Outcome State Fault Refusal :=
  .next (s.whenOn fun s => s.deliver link (opTyped 0x07 0x02 m) 0 0)

/-- HEARTBEAT_SEND (R640): each heartbeat interval sends JOIN or ALIVE. -/
def execHeartbeatSend (s : State) : Host.Outcome State Fault Refusal := .next (s.whenOn fun s => s.heartbeat)

/-- PEER_STATE (R642): A peer state broadcast records a member or a loss and applies loss handling. -/
def execPeerState (link : LinkNo) (m : LMsg) (s : State) : Host.Outcome State Fault Refusal :=
  .next (s.whenOn fun s => s.answerIn link (opTyped 0x08 0x03 m))

/-- MEMBER_HEARTBEAT_MISS (R642): HB_MISS intervals without ALIVE make the master mark the member lost. -/
def execMemberHeartbeatMiss (module : ModuleNo) (s : State) : Host.Outcome State Fault Refusal := .next (s.whenOn fun s => s.memberLost module)

/-- MASTER_CHANGE (R644): A higher TERM names the new span master. -/
def execMasterChange (link : LinkNo) (m : LMsg) (s : State) : Host.Outcome State Fault Refusal :=
  .next (s.whenOn fun s => s.deliver link (opTyped 0x08 0x04 m) 0 0)

/-- DIR_SYNC (R640): the standby applies a directory change. -/
def execDirSync (link : LinkNo) (m : LMsg) (s : State) : Host.Outcome State Fault Refusal :=
  .next (s.whenOn fun s => s.deliver link (opTyped 0x07 0x05 m) 0 0)

/-- MAP_REQ (R346): A holder maps or unmaps a page in the placer's window, or refuses it. -/
def execMapReq (link : LinkNo) (m : LMsg) (s : State) : Host.Outcome State Fault Refusal :=
  .next (s.whenOn fun s => s.deliver link (opTyped 0x07 0x10 m) 0 0)

/-- PARTNER_QUERY (R640): the master answers with the partner's state. -/
def execPartnerQuery (link : LinkNo) (m : LMsg) (s : State) : Host.Outcome State Fault Refusal :=
  .next (s.whenOn fun s => s.deliver link (opTyped 0x07 0x11 m) 0 0)

/-- MASTER_HEARTBEAT_MISS (R644): the standby misses HB_MISS master heartbeats and takes over. -/
def execMasterHeartbeatMiss (s : State) : Host.Outcome State Fault Refusal := .next (s.whenOn fun s => s.masterMiss)

/-- TAKEOVER (R644): writing SPN_CTRL.TAKEOVER on the standby raises TERM and makes it master. -/
def execTakeover (s : State) : Host.Outcome State Fault Refusal := .next (s.onBus fun s => s.takeOver)

/-- TWIN_WRITE (R647): the partner applies mirrored sectors in order and answers TWACK. -/
def execTwinWrite (link : LinkNo) (m : LMsg) (s : State) : Host.Outcome State Fault Refusal :=
  .next (s.whenOn fun s => s.deliver link (typed 0x10 m) 0 0)

/-- TWIN_OP (R647): the partner applies a mirrored command. -/
def execTwinOp (link : LinkNo) (m : LMsg) (s : State) : Host.Outcome State Fault Refusal :=
  .next (s.whenOn fun s => s.deliver link (typed 0x11 m) 0 0)

/-- TWIN_CKPT (R649): the partner stores the sequence-table delta and checks the Ephemeris CRC. -/
def execTwinCkpt (link : LinkNo) (m : LMsg) (s : State) : Host.Outcome State Fault Refusal :=
  .next (s.whenOn fun s => s.deliver link (typed 0x12 m) 0 0)

/-- TWIN_COPY (R655): the rejoiner writes a resync piece as a merge. -/
def execTwinCopy (link : LinkNo) (m : LMsg) (s : State) : Host.Outcome State Fault Refusal :=
  .next (s.whenOn fun s => s.deliver link (typed 0x13 m) 0 0)

/-- TWIN_MAP (R655): A dirty bitmap is received for the resync union. -/
def execTwinMap (link : LinkNo) (m : LMsg) (s : State) : Host.Outcome State Fault Refusal :=
  .next (s.whenOn fun s => s.deliver link (typed 0x14 m) 0 0)

/-- HELLO (R651): A HELLO exchange settles the pair's state from their journaled states. -/
def execHello (link : LinkNo) (m : LMsg) (s : State) : Host.Outcome State Fault Refusal :=
  .next (s.whenOn fun s => s.deliver link (opTyped 0x15 0x01 m) 0 0)

/-- TWIN_DETACH_NOTICE (R651): A DETACH notice from the partner moves a PAIRED module to SOLO. -/
def execTwinDetachNotice (link : LinkNo) (m : LMsg) (s : State) : Host.Outcome State Fault Refusal :=
  .next (s.whenOn fun s => s.deliver link (opTyped 0x15 0x02 m) 0 0)

/-- RESYNC_DONE (R651): RESYNC_DONE moves both modules to PAIRED with a new generation. -/
def execResyncDone (link : LinkNo) (m : LMsg) (s : State) : Host.Outcome State Fault Refusal :=
  .next (s.whenOn fun s => s.deliver link (opTyped 0x15 0x03 m) 0 0)

/-- PAIRED_NOTICE (R651): A PAIRED notice confirms pairing to the partner. -/
def execPairedNotice (link : LinkNo) (m : LMsg) (s : State) : Host.Outcome State Fault Refusal :=
  .next (s.whenOn fun s => s.deliver link (opTyped 0x15 0x04 m) 0 0)

/-- PICKED (R651): PICKED discards this module's own dirty bits and starts a resync. -/
def execPicked (link : LinkNo) (m : LMsg) (s : State) : Host.Outcome State Fault Refusal :=
  .next (s.whenOn fun s => s.deliver link (opTyped 0x15 0x05 m) 0 0)

/-- RESYNC_COPY (R655): the survivor sends each dirty unit and clears its bit on the last TWACK. -/
def execResyncCopy (unit : Fin 448000) (first : Fin 122880) (n : Nat) (s : State) : Host.Outcome State Fault Refusal :=
  .next (s.whenOn fun s => s.resyncCopy unit first n)

/-- TWACK_TIMEOUT (R651): twin links down or no TWACK in time move the lower module to SOLO and the higher to HELD. -/
def execTwackTimeout (s : State) : Host.Outcome State Fault Refusal := .next (s.whenOn fun s => s.twackTimeout)

/-- TWIN_DETACH (R652): TWN_CMD DETACH goes Inaccessible, drains, notifies and journals DETACHED. -/
def execTwinDetach (s : State) : Host.Outcome State Fault Refusal := .next (s.onBus fun s => s.twinDetach)

/-- REJOIN (R651): TWN_CMD REJOIN sends HELLO from DETACHED. -/
def execRejoin (s : State) : Host.Outcome State Fault Refusal := .next (s.onBus fun s => s.rejoin)

/-- FORCE_SOLO (R651): TWN_CMD FORCE_SOLO enters SOLO from SEEKING or HELD. -/
def execForceSolo (s : State) : Host.Outcome State Fault Refusal := .next (s.onBus fun s => s.forceSolo)

/-- PICK (R651): TWN_CMD PICK chooses this module in a SPLIT and sends PICKED. -/
def execPick (s : State) : Host.Outcome State Fault Refusal := .next (s.onBus fun s => s.pick)

/-- NO_HELLO (R651): A SEEKING module that receives no HELLO enters SOLO if its journaled state is SOLO, and otherwise stays Inaccessible. -/
def execNoHello (s : State) : Host.Outcome State Fault Refusal := .next (s.whenOn fun s => s.noHello)

end Sys2Proof.Machine
end

