-- ==== Sys2Proof/Machine/StripeCommands.lean ====
section
/-! DEFINITION. The translation layer's work: fills, merges, copies, migrations, the journal (R510 to R559). -/
namespace Sys2Proof.Machine

/-- FILL_SEAL_TIMEOUT (R520): A fill stripe not extended for 64 boundaries is sealed at its last complete row. -/
def execFillSealTimeout (unit : Fin 448000) (s : State) : Host.Outcome State Fault Refusal := .next (s.whenOn fun s => s.fillTimeout unit)

/-- MERGE (R523): A unit's content is copied into a fresh data stripe when LOG_COUNT or log fullness triggers it. -/
def execMerge (unit : Fin 448000) (s : State) : Host.Outcome State Fault Refusal := .next (s.whenOn fun s => s.mergeCommand unit)

/-- COPY_VERIFY_COMMIT (R531): after the target's last row, it is read back and COPY_COMMIT switches the maps. -/
def execCopyVerifyCommit (number : Nat) (fail : Option (Fin 16)) (s : State) : Host.Outcome State Fault Refusal :=
  .next (s.whenOn fun s => (s.copyCommit number (fail.map (·.val))).roomFreed)

/-- CARTRIDGE_LOST (R543): an active cartridge stops answering or is pulled powered, and its bank retires. -/
def execCartridgeLost (slot : Slot) (s : State) : Host.Outcome State Fault Refusal := .next (s.whenOn fun s => (s.cartridgeLost slot).sendLost)

/-- MIGRATION_START (R544): A migration of the most-worn or lost bank onto the parked spare begins. -/
def execMigrationStart (s : State) : Host.Outcome State Fault Refusal := .next (s.whenOn fun s => s.migrationStart)

/-- BRING_IN (R544): writing FTL_SPARE_CTRL.BRING_IN starts a migration. -/
def execBringIn (s : State) : Host.Outcome State Fault Refusal := .next (s.onBus fun s => s.startMigration)

/-- MIGRATION_END (R545): when no entry names the source, the bank is bound to the spare slot and the source is retired. -/
def execMigrationEnd (s : State) : Host.Outcome State Fault Refusal := .next (s.whenOn fun s => s.migrationEnds)

/-- JOURNAL_BLOCK_WRITE (R556): A 4 KiB journal block is programmed on two cartridges. -/
def execJournalBlockWrite (phase : Fin 65536) (s : State) : Host.Outcome State Fault Refusal := .next (s.whenOn fun s => s.journalBlock phase)

/-- CHECKPOINT_WRITE (R557): after 256 MiB of records, a shutdown or a migration's end, a full table image is written. -/
def execCheckpointWrite (s : State) : Host.Outcome State Fault Refusal := .next (s.whenOn fun s => s.checkpointWrite)

end Sys2Proof.Machine
end

