-- ==== Sys2Proof/Machine/TierCommands.lean ====
section
/-! DEFINITION. Pages and their tiers, models, Almanac triggers, activation channels (R325 to R371). -/
namespace Sys2Proof.Machine

/-- DEMAND_PROMOTION (R337): the tier engine obtains a frame for a far page, sets STATE 4 and reads it through the Coude path. -/
def execDemandPromotion (acct : Account) (page : Nat) (cause : Option Die) (layer : Option (Fin 128 × Fin 65536))
    (s : State) : Host.Outcome State Fault Refusal :=
  .next (s.whenOn fun s => s.demandCommand acct page (cause.map (·.val)) (layer.map fun l => (l.1.val, l.2.val)))

/-- COUDE_READ_DONE (R363): A Coude path page read reaches HBM, and the page becomes STATE 1 with a clean far copy. -/
def execCoudeReadDone (s : State) : Host.Outcome State Fault Refusal := .next (s.whenOn fun s => s.coudeDone)

/-- FAR_PAGE_WRITE (R340): in a program window, a page is written to the far region on the cartridge that R341 chooses. -/
def execFarPageWrite (acct : Account) (page : Nat) (s : State) : Host.Outcome State Fault Refusal :=
  .next (s.whenOn fun s => s.beginFarWrite acct page)

/-- FAR_WRITE_DONE (R525): A far page write ends, the page map is set and the old copy is marked dead. -/
def execFarWriteDone (acct : Account) (page : Nat) (s : State) : Host.Outcome State Fault Refusal :=
  .next (s.whenOn fun s => s.farWriteDone acct page)

/-- WATERMARK_SWEEP (R339): free frames below LOW start eviction of candidates until HIGH is reached. -/
def execWatermarkSweep (s : State) : Host.Outcome State Fault Refusal := .next (s.whenOn fun s => s.watermarkSweep)

/-- MAP (R350): TIR_CMD MAP maps COUNT pages in a tier, zero-filling HBM pages. -/
def execMap (tier : Fin 4) (home : Die) (acct : Account) (s : State) : Host.Outcome State Fault Refusal :=
  .next (s.onBus fun s => s.tierCommand 1 tier home acct)

/-- UNMAP (R350): TIR_CMD UNMAP releases each page's frame, far copy or remote mapping. -/
def execUnmap (tier : Fin 4) (home : Die) (acct : Account) (s : State) : Host.Outcome State Fault Refusal :=
  .next (s.onBus fun s => s.tierCommand 2 tier home acct)

/-- PIN (R350): TIR_CMD PIN sets PIN, promoting pages first. -/
def execPin (tier : Fin 4) (home : Die) (acct : Account) (s : State) : Host.Outcome State Fault Refusal :=
  .next (s.onBus fun s => s.tierCommand 3 tier home acct)

/-- UNPIN (R350): TIR_CMD UNPIN clears PIN. -/
def execUnpin (tier : Fin 4) (home : Die) (acct : Account) (s : State) : Host.Outcome State Fault Refusal :=
  .next (s.onBus fun s => s.tierCommand 4 tier home acct)

/-- MOVE (R350): TIR_CMD MOVE moves pages to another tier under MAP's quota rules. -/
def execMove (tier : Fin 4) (home : Die) (acct : Account) (s : State) : Host.Outcome State Fault Refusal :=
  .next (s.onBus fun s => s.tierCommand 5 tier home acct)

/-- SET_HOME (R350): TIR_CMD SET_HOME sets HOME and copies HBM pages there where a frame is free. -/
def execSetHome (tier : Fin 4) (home : Die) (acct : Account) (s : State) : Host.Outcome State Fault Refusal :=
  .next (s.onBus fun s => s.tierCommand 6 tier home acct)

/-- MODEL_LOAD (R354): writing LOAD pins resident layers, fires load triggers and moves the slot to LOADING. -/
def execModelLoad (n : Fin 128) (s : State) : Host.Outcome State Fault Refusal := .next (s.onBus fun s => s.modelLoad n)

/-- MODEL_UNLOAD (R355): writing UNLOAD unpins resident pages, zeroes their ACCESS and empties the slot. -/
def execModelUnload (n : Fin 128) (s : State) : Host.Outcome State Fault Refusal := .next (s.onBus fun s => s.modelUnload n)

/-- ALMANAC_PHASE_TRIGGER (R358): the AT_PHASE of an epoch is reached and fires the Almanac entries with phase triggers. -/
def execAlmanacPhaseTrigger (phase : Fin 65536) (s : State) : Host.Outcome State Fault Refusal := .next (s.whenOn fun s => s.phaseTrigger phase)

/-- ACH_ENABLE (R366): enabling a channel end pins its slot pages, and disabling it discards slot contents. -/
def execAchEnable (n : Fin 64) (on : Bool) (s : State) : Host.Outcome State Fault Refusal := .next (s.whenOn fun s => s.achEnable n on)

/-- ACT_SLOT_ARRIVED (R367): the IN end's copy is written, and the slot becomes READY. -/
def execActSlotArrived (n : Fin 64) (slot : Fin 64) (s : State) : Host.Outcome State Fault Refusal := .next (s.whenOn fun s => s.actArrived n slot)

/-- ACT_CREDIT (R367): A credit return frees an OUT slot. -/
def execActCredit (n : Fin 64) (slot : Fin 64) (s : State) : Host.Outcome State Fault Refusal := .next (s.whenOn fun s => s.actCredit n slot)

end Sys2Proof.Machine
end

