-- ==== Sys2Proof/Machine/UnitCommands.lean ====
section
/-! DEFINITION. Faults of the six levels, bring-ins, partial loads and power domains (R28 to R60, R155 to R162, R687, R718). -/
namespace Sys2Proof.Machine

/-- LANE_DATAPATH_FAULT (R211): A lane fault found in use ends every macro-operation with a pass in the row with Compute Hardware Fault. -/
def execLaneDatapathFault (d : Die) (c : Cluster) (k : CoreNo) (lane : Lane) (kind : Nat) (s : State) : Host.Outcome State Fault Refusal :=
  .next (s.whenOn fun s => s.laneFault d c k lane kind true)

/-- LANE_BYPASS (R210): once the row is empty, the retired lane is bypassed and S rises. -/
def execLaneBypass (d : Die) (c : Cluster) (k : CoreNo) (s : State) : Host.Outcome State Fault Refusal := .next (s.whenOn fun s => s.laneBypass d c k)

/-- CORE_CLUSTER_FAULT (R41): A core or cluster fault ends the macro-operations in its containment boundary and holds issue until the spare is in
service. -/
def execCoreClusterFault (d : Die) (c : Cluster) (core : Option CoreNo) (kind : Nat) (s : State) : Host.Outcome State Fault Refusal :=
  .next (s.whenOn fun s => s.coreOrCluster d c (core.map (·.val)) kind)

/-- DIE_FAULT (R43): A die fault ends the die's work, retires the die, switches off its domains and degrades compute. -/
def execDieFault (d : Die) (kind : Nat) (s : State) : Host.Outcome State Fault Refusal := .next (s.whenOn fun s => s.dieFault d kind [])

/-- PACKAGE_FAULT (R45): A package fault sets NVMe fatal status and takes the module out of service. -/
def execPackageFault (kind : Nat) (s : State) : Host.Outcome State Fault Refusal := .next (s.whenOn fun s => s.packageFault kind)

/-- SERVICE_PROCESSOR_TAKEOVER (R45): the standby service processor takes over within 50 ms after the service processor fails. -/
def execServiceProcessorTakeover (s : State) : Host.Outcome State Fault Refusal := .next (s.whenOn fun s => s.takeover)

/-- IN_PACKAGE_LINK_FAILURE (R39): A failed hub or ring link is routed around, and a degraded package fault is recorded. -/
def execInPackageLinkFailure (n : Nat) (s : State) : Host.Outcome State Fault Refusal := .next (s.whenOn fun s => s.linkFailure n)

/-- REGULATOR_PHASE_FAULT (R40): A further phase fails on a rail without redundancy, giving a fault at the level the rail feeds. -/
def execRegulatorPhaseFault (rail : Nat) (feeds : Option Die) (s : State) : Host.Outcome State Fault Refusal :=
  .next (s.whenOn fun s => s.phaseFault rail (feeds.map (·.val)))

/-- HBM_STACK_FAILURE (R38): A failed HBM stack or controller becomes a fault of its compute die. -/
def execHbmStackFailure (stack : Fin 8) (s : State) : Host.Outcome State Fault Refusal := .next (s.whenOn fun s => s.dieFault (stack / 2) 0x09 [])

/-- PARTIAL_LOAD (R155): at a boundary, one logical cluster is reloaded from the chart in force to bring spares in or on host request. -/
def execPartialLoad (ld : Die) (lc : Fin 25) (s : State) : Host.Outcome State Fault Refusal := .next (s.whenOn fun s => s.partialLoad ld lc)

/-- PARTIAL_LOAD_DONE (R157): A partial load ends, and the cluster resumes issuing. -/
def execPartialLoadDone (ld : Die) (lc : Fin 25) (bad0 : Bool) (bad1 : Bool) (s : State) : Host.Outcome State Fault Refusal :=
  .next (s.whenOn fun s => s.partialDone ld lc bad0 bad1)

/-- DOMAIN_REQ (R687): A PWR_DOMAIN_REQ write switches one power domain or is refused, with the reason in ERR. -/
def execDomainReq (domain : Nat) (on : Bool) (s : State) : Host.Outcome State Fault Refusal := .next (s.onBus fun s => s.domainReq domain on)

/-- DOMAIN_SWITCH_DONE (R718): A domain's switch-on or switch-off completes, and it stops being busy. -/
def execDomainSwitchDone (domain : Nat) (s : State) : Host.Outcome State Fault Refusal := .next (s.whenOn fun s => s.domainDone domain)

end Sys2Proof.Machine
end

