-- ==== Sys2Proof/Machine/Dispatch.lean ====
section
/-! DEFINITION. One arm per command: each calls the meaning of its own. -/
namespace Sys2Proof.Machine

/-- The effect of a command on everything but the queue. -/
def exec (i : Instr) (s : State) : Host.Outcome State Fault Refusal :=
  match i with
  | .registerWrite addr wide value => Sys2Proof.Machine.execRegisterWrite addr wide value s
  | .readClearRegisterRead addr wide => Sys2Proof.Machine.execReadClearRegisterRead addr wide s
  | .bar2BadAccess bytes write => Sys2Proof.Machine.execBar2BadAccess bytes write s
  | .powerUp absentMs energy bay present refclk => Sys2Proof.Machine.execPowerUp absentMs energy bay present refclk s
  | .moduleInsert => Sys2Proof.Machine.execModuleInsert s
  | .holdupCharged ms => Sys2Proof.Machine.execHoldupCharged ms s
  | .holdupMeasure energy wh => Sys2Proof.Machine.execHoldupMeasure energy wh s
  | .inputOutOfRange used => Sys2Proof.Machine.execInputOutOfRange used s
  | .perstAssert => Sys2Proof.Machine.execPerstAssert s
  | .portHotReset port => Sys2Proof.Machine.execPortHotReset port s
  | .functionLevelReset ctl => Sys2Proof.Machine.execFunctionLevelReset ctl s
  | .configRequest fn => Sys2Proof.Machine.execConfigRequest fn s
  | .d3hotEntry fn => Sys2Proof.Machine.execD3hotEntry fn s
  | .shutdownNotification ctl => Sys2Proof.Machine.execShutdownNotification ctl s
  | .controllerEnable ctl => Sys2Proof.Machine.execControllerEnable ctl s
  | .laneDatapathFault d c k lane kind => Sys2Proof.Machine.execLaneDatapathFault d c k lane kind s
  | .laneBypass d c k => Sys2Proof.Machine.execLaneBypass d c k s
  | .coreClusterFault d c core kind => Sys2Proof.Machine.execCoreClusterFault d c core kind s
  | .dieFault d kind => Sys2Proof.Machine.execDieFault d kind s
  | .packageFault kind => Sys2Proof.Machine.execPackageFault kind s
  | .serviceProcessorTakeover => Sys2Proof.Machine.execServiceProcessorTakeover s
  | .inPackageLinkFailure n => Sys2Proof.Machine.execInPackageLinkFailure n s
  | .regulatorPhaseFault rail feeds => Sys2Proof.Machine.execRegulatorPhaseFault rail feeds s
  | .hbmStackFailure stack => Sys2Proof.Machine.execHbmStackFailure stack s
  | .partialLoad ld lc => Sys2Proof.Machine.execPartialLoad ld lc s
  | .partialLoadDone ld lc bad0 bad1 => Sys2Proof.Machine.execPartialLoadDone ld lc bad0 bad1 s
  | .domainReq domain on => Sys2Proof.Machine.execDomainReq domain on s
  | .domainSwitchDone domain => Sys2Proof.Machine.execDomainSwitchDone domain s
  | .slotPower slot on => Sys2Proof.Machine.execSlotPower slot on s
  | .attnPressRelease ms => Sys2Proof.Machine.execAttnPressRelease ms s
  | .attnHold5s => Sys2Proof.Machine.execAttnHold5s s
  | .transitEdge t rising widthNs => Sys2Proof.Machine.execTransitEdge t rising widthNs s
  | .transitMessage link src m t => Sys2Proof.Machine.execTransitMessage link src m t s
  | .epochBoundary t => Sys2Proof.Machine.execEpochBoundary t s
  | .holdoverEntry => Sys2Proof.Machine.execHoldoverEntry s
  | .holdoverExpiry => Sys2Proof.Machine.execHoldoverExpiry s
  | .acquireNoEdge t => Sys2Proof.Machine.execAcquireNoEdge t s
  | .acqTimeout => Sys2Proof.Machine.execAcqTimeout s
  | .reacquire => Sys2Proof.Machine.execReacquire s
  | .sourceSelect v => Sys2Proof.Machine.execSourceSelect v s
  | .epochSet v => Sys2Proof.Machine.execEpochSet v s
  | .periodWrite next v => Sys2Proof.Machine.execPeriodWrite next v s
  | .arm => Sys2Proof.Machine.execArm s
  | .disarm => Sys2Proof.Machine.execDisarm s
  | .shadowBankWrite addr wide value => Sys2Proof.Machine.execShadowBankWrite addr wide value s
  | .windowOpen phase => Sys2Proof.Machine.execWindowOpen phase s
  | .windowEnd phase sweeps => Sys2Proof.Machine.execWindowEnd phase sweeps s
  | .eraseSuspendWindow phase slot die => Sys2Proof.Machine.execEraseSuspendWindow phase slot die s
  | .eraseBank bank => Sys2Proof.Machine.execEraseBank bank s
  | .eraseBankDone fail => Sys2Proof.Machine.execEraseBankDone fail s
  | .programBank bank data => Sys2Proof.Machine.execProgramBank bank data s
  | .programBankDone fail => Sys2Proof.Machine.execProgramBankDone fail s
  | .verifyBank bank => Sys2Proof.Machine.execVerifyBank bank s
  | .loadFull bank => Sys2Proof.Machine.execLoadFull bank s
  | .quiesceTimeout d c => Sys2Proof.Machine.execQuiesceTimeout d c s
  | .chartApply => Sys2Proof.Machine.execChartApply s
  | .loadPartial ld lc => Sys2Proof.Machine.execLoadPartial ld lc s
  | .setOption record auth => Sys2Proof.Machine.execSetOption record auth s
  | .chartAbort => Sys2Proof.Machine.execChartAbort s
  | .coupledFieldWrite addr wide value => Sys2Proof.Machine.execCoupledFieldWrite addr wide value s
  | .cplCommit group => Sys2Proof.Machine.execCplCommit group s
  | .coupledCommitApply group => Sys2Proof.Machine.execCoupledCommitApply group s
  | .couplingHoldTimeout => Sys2Proof.Machine.execCouplingHoldTimeout s
  | .passBoundary d c k p adv arrived => Sys2Proof.Machine.execPassBoundary d c k p adv arrived s
  | .weightSlotWrite d c k lane slot tag src off fmt adv arrived => Sys2Proof.Machine.execWeightSlotWrite d c k lane slot tag src off fmt adv arrived s
  | .rowFreeze d c k q adv => Sys2Proof.Machine.execRowFreeze d c k q adv s
  | .freezeEnd d c k => Sys2Proof.Machine.execFreezeEnd d c k s
  | .dummyRampDown d c k => Sys2Proof.Machine.execDummyRampDown d c k s
  | .dummyGapEnd d c k adv => Sys2Proof.Machine.execDummyGapEnd d c k adv s
  | .rowTotalWrite d c k lane adv arrived => Sys2Proof.Machine.execRowTotalWrite d c k lane adv arrived s
  | .drainReadRow d c k bank adv => Sys2Proof.Machine.execDrainReadRow d c k bank adv s
  | .drainWriteRow d c k batch m n => Sys2Proof.Machine.execDrainWriteRow d c k batch m n s
  | .selfTestSegment phase d c k ended lane => Sys2Proof.Machine.execSelfTestSegment phase d c k ended lane s
  | .coreEccCorrected d c k m => Sys2Proof.Machine.execCoreEccCorrected d c k m s
  | .coreEccUncorrectable d c k m lane place reader hard => Sys2Proof.Machine.execCoreEccUncorrectable d c k m lane place reader hard s
  | .controlEngineFault d c k cause => Sys2Proof.Machine.execControlEngineFault d c k cause s
  | .controlEngineWatchdog d c k => Sys2Proof.Machine.execControlEngineWatchdog d c k s
  | .mma d c desc => Sys2Proof.Machine.execMma d c desc s
  | .mmaChain d c desc => Sys2Proof.Machine.execMmaChain d c desc s
  | .reduce d c desc => Sys2Proof.Machine.execReduce d c desc s
  | .select d c desc => Sys2Proof.Machine.execSelect d c desc s
  | .scanCodes d c desc => Sys2Proof.Machine.execScanCodes d c desc s
  | .filter d c desc => Sys2Proof.Machine.execFilter d c desc s
  | .convert d c desc => Sys2Proof.Machine.execConvert d c desc s
  | .copy d c desc => Sys2Proof.Machine.execCopy d c desc s
  | .atomicAdd d c desc => Sys2Proof.Machine.execAtomicAdd d c desc s
  | .macroComplete d c effects => Sys2Proof.Machine.execMacroComplete d c effects s
  | .macroFault d c code => Sys2Proof.Machine.execMacroFault d c code s
  | .markReached d c => Sys2Proof.Machine.execMarkReached d c s
  | .contextSaveDone d c => Sys2Proof.Machine.execContextSaveDone d c s
  | .eyeHalt d c => Sys2Proof.Machine.execEyeHalt d c s
  | .eyeResume d c => Sys2Proof.Machine.execEyeResume d c s
  | .eyeHalted d c => Sys2Proof.Machine.execEyeHalted d c s
  | .eyeDataRead d c lane => Sys2Proof.Machine.execEyeDataRead d c lane s
  | .compensatedAdd acct addr v => Sys2Proof.Machine.execCompensatedAdd acct addr v s
  | .demandPromotion acct page cause layer => Sys2Proof.Machine.execDemandPromotion acct page cause layer s
  | .coudeReadDone => Sys2Proof.Machine.execCoudeReadDone s
  | .farPageWrite acct page => Sys2Proof.Machine.execFarPageWrite acct page s
  | .farWriteDone acct page => Sys2Proof.Machine.execFarWriteDone acct page s
  | .watermarkSweep => Sys2Proof.Machine.execWatermarkSweep s
  | .map tier home acct => Sys2Proof.Machine.execMap tier home acct s
  | .unmap tier home acct => Sys2Proof.Machine.execUnmap tier home acct s
  | .pin tier home acct => Sys2Proof.Machine.execPin tier home acct s
  | .unpin tier home acct => Sys2Proof.Machine.execUnpin tier home acct s
  | .move tier home acct => Sys2Proof.Machine.execMove tier home acct s
  | .setHome tier home acct => Sys2Proof.Machine.execSetHome tier home acct s
  | .modelLoad n => Sys2Proof.Machine.execModelLoad n s
  | .modelUnload n => Sys2Proof.Machine.execModelUnload n s
  | .almanacPhaseTrigger phase => Sys2Proof.Machine.execAlmanacPhaseTrigger phase s
  | .achEnable n on => Sys2Proof.Machine.execAchEnable n on s
  | .actSlotArrived n slot => Sys2Proof.Machine.execActSlotArrived n slot s
  | .actCredit n slot => Sys2Proof.Machine.execActCredit n slot s
  | .swapOutDone entry => Sys2Proof.Machine.execSwapOutDone entry s
  | .cancel entry => Sys2Proof.Machine.execCancel entry s
  | .resume group => Sys2Proof.Machine.execResume group s
  | .jobDispatch d c => Sys2Proof.Machine.execJobDispatch d c s
  | .engineTimeCharge d c us => Sys2Proof.Machine.execEngineTimeCharge d c us s
  | .preemptDeferExpiry d c => Sys2Proof.Machine.execPreemptDeferExpiry d c s
  | .semAcquire d c k n => Sys2Proof.Machine.execSemAcquire d c k n s
  | .semRelease d c k n => Sys2Proof.Machine.execSemRelease d c k n s
  | .jobEnd job => Sys2Proof.Machine.execJobEnd job s
  | .attach cat acct => Sys2Proof.Machine.execAttach cat acct s
  | .catalogueAttached cat => Sys2Proof.Machine.execCatalogueAttached cat s
  | .stage cat acct => Sys2Proof.Machine.execStage cat acct s
  | .unstage cat acct => Sys2Proof.Machine.execUnstage cat acct s
  | .detach cat acct => Sys2Proof.Machine.execDetach cat acct s
  | .delete cat acct => Sys2Proof.Machine.execDelete cat acct s
  | .searchBatch cid ctl set params => Sys2Proof.Machine.execSearchBatch cid ctl set params s
  | .sweepStart d c receiving => Sys2Proof.Machine.execSweepStart d c receiving s
  | .flashRead slot die block row cws origin => Sys2Proof.Machine.execFlashRead slot die block row cws origin s
  | .flashReadDone stripe group row coude detour cws => Sys2Proof.Machine.execFlashReadDone stripe group row coude detour cws s
  | .flashProgram phase stripe group => Sys2Proof.Machine.execFlashProgram phase stripe group s
  | .programEnd slot die pass => Sys2Proof.Machine.execProgramEnd slot die pass s
  | .flashErase phase stripe group => Sys2Proof.Machine.execFlashErase phase stripe group s
  | .eraseEnd slot die pass => Sys2Proof.Machine.execEraseEnd slot die pass s
  | .eraseResume phase slot die => Sys2Proof.Machine.execEraseResume phase slot die s
  | .erasedStateCheck stripe group worst => Sys2Proof.Machine.execErasedStateCheck stripe group worst s
  | .sramUncorrectable m => Sys2Proof.Machine.execSramUncorrectable m s
  | .hbmCorrectable unit => Sys2Proof.Machine.execHbmCorrectable unit s
  | .hbmUncorrectable unit => Sys2Proof.Machine.execHbmUncorrectable unit s
  | .scrubStart n kind => Sys2Proof.Machine.execScrubStart n kind s
  | .scrubStop n => Sys2Proof.Machine.execScrubStop n s
  | .scrubStripe n phase cws => Sys2Proof.Machine.execScrubStripe n phase cws s
  | .scrubHbm n phase hits => Sys2Proof.Machine.execScrubHbm n phase hits s
  | .rawRead dmaOk => Sys2Proof.Machine.execRawRead dmaOk s
  | .fillSealTimeout unit => Sys2Proof.Machine.execFillSealTimeout unit s
  | .merge unit => Sys2Proof.Machine.execMerge unit s
  | .copyVerifyCommit number fail => Sys2Proof.Machine.execCopyVerifyCommit number fail s
  | .cartridgeLost slot => Sys2Proof.Machine.execCartridgeLost slot s
  | .migrationStart => Sys2Proof.Machine.execMigrationStart s
  | .bringIn => Sys2Proof.Machine.execBringIn s
  | .migrationEnd => Sys2Proof.Machine.execMigrationEnd s
  | .journalBlockWrite phase => Sys2Proof.Machine.execJournalBlockWrite phase s
  | .checkpointWrite => Sys2Proof.Machine.execCheckpointWrite s
  | .mapRestore ms => Sys2Proof.Machine.execMapRestore ms s
  | .nvmeRead cid ctl nsid lba n => Sys2Proof.Machine.execNvmeRead cid ctl nsid lba n s
  | .nvmeWrite cid ctl nsid lba data => Sys2Proof.Machine.execNvmeWrite cid ctl nsid lba data s
  | .writeZeroes cid ctl nsid lba n => Sys2Proof.Machine.execWriteZeroes cid ctl nsid lba n s
  | .flush cid ctl => Sys2Proof.Machine.execFlush cid ctl s
  | .datasetManagement cid ctl nsid ranges => Sys2Proof.Machine.execDatasetManagement cid ctl nsid ranges s
  | .secureDeallocate cid ctl nsid ranges => Sys2Proof.Machine.execSecureDeallocate cid ctl nsid ranges s
  | .nvmeCopy cid ctl nsid dst ranges => Sys2Proof.Machine.execNvmeCopy cid ctl nsid dst ranges s
  | .zoneAppend cid ctl nsid zslba data => Sys2Proof.Machine.execZoneAppend cid ctl nsid zslba data s
  | .zoneOpen cid ctl nsid zslba => Sys2Proof.Machine.execZoneOpen cid ctl nsid zslba s
  | .zoneFinish cid ctl nsid zslba => Sys2Proof.Machine.execZoneFinish cid ctl nsid zslba s
  | .zoneReset cid ctl nsid zslba => Sys2Proof.Machine.execZoneReset cid ctl nsid zslba s
  | .rangeLockRelease cid ctl => Sys2Proof.Machine.execRangeLockRelease cid ctl s
  | .abort cid ctl target outstanding => Sys2Proof.Machine.execAbort cid ctl target outstanding s
  | .identifyController cid ctl => Sys2Proof.Machine.execIdentifyController cid ctl s
  | .identifyNamespace cid ctl nsid => Sys2Proof.Machine.execIdentifyNamespace cid ctl nsid s
  | .namespaceCreate cid ctl spec => Sys2Proof.Machine.execNamespaceCreate cid ctl spec s
  | .namespaceDelete cid ctl nsid => Sys2Proof.Machine.execNamespaceDelete cid ctl nsid s
  | .virtualizationManagement cid ctl vf interrupts n => Sys2Proof.Machine.execVirtualizationManagement cid ctl vf interrupts n s
  | .loadProgram cid ctl program image => Sys2Proof.Machine.execLoadProgram cid ctl program image s
  | .programActivation cid ctl program on => Sys2Proof.Machine.execProgramActivation cid ctl program on s
  | .createMemoryRangeSet cid ctl ranges => Sys2Proof.Machine.execCreateMemoryRangeSet cid ctl ranges s
  | .executeProgram cid ctl program set params => Sys2Proof.Machine.execExecuteProgram cid ctl program set params s
  | .memoryRead cid ctl nsid start len => Sys2Proof.Machine.execMemoryRead cid ctl nsid start len s
  | .memoryWrite cid ctl nsid start data => Sys2Proof.Machine.execMemoryWrite cid ctl nsid start data s
  | .memoryCopy cid ctl nsid dst ranges => Sys2Proof.Machine.execMemoryCopy cid ctl nsid dst ranges s
  | .formatNvm cid ctl nsid ses => Sys2Proof.Machine.execFormatNvm cid ctl nsid ses s
  | .sanitize cid ctl block => Sys2Proof.Machine.execSanitize cid ctl block s
  | .getLogPage cid ctl page retain => Sys2Proof.Machine.execGetLogPage cid ctl page retain s
  | .hostWindowRead addr n => Sys2Proof.Machine.execHostWindowRead addr n s
  | .hostWindowWrite addr data => Sys2Proof.Machine.execHostWindowWrite addr data s
  | .hostWindowTimeout => Sys2Proof.Machine.execHostWindowTimeout s
  | .securityNonce cid ctl => Sys2Proof.Machine.execSecurityNonce cid ctl s
  | .debugUnlock cid ctl block => Sys2Proof.Machine.execDebugUnlock cid ctl block s
  | .debugUnlockRelease cid ctl => Sys2Proof.Machine.execDebugUnlockRelease cid ctl s
  | .ownershipRelease cid ctl block => Sys2Proof.Machine.execOwnershipRelease cid ctl block s
  | .getVersion => Sys2Proof.Machine.execGetVersion s
  | .getCapabilities => Sys2Proof.Machine.execGetCapabilities s
  | .negotiateAlgorithms => Sys2Proof.Machine.execNegotiateAlgorithms s
  | .getDigests => Sys2Proof.Machine.execGetDigests s
  | .getCertificate slot => Sys2Proof.Machine.execGetCertificate slot s
  | .challenge nonce => Sys2Proof.Machine.execChallenge nonce s
  | .getMeasurements index => Sys2Proof.Machine.execGetMeasurements index s
  | .keyExchange session => Sys2Proof.Machine.execKeyExchange session s
  | .finish session => Sys2Proof.Machine.execFinish session s
  | .endSession session => Sys2Proof.Machine.execEndSession session s
  | .readNvmeMiDataStructure type => Sys2Proof.Machine.execReadNvmeMiDataStructure type s
  | .subsystemHealthStatusPoll => Sys2Proof.Machine.execSubsystemHealthStatusPoll s
  | .controllerHealthStatusPoll ctl => Sys2Proof.Machine.execControllerHealthStatusPoll ctl s
  | .configurationGet id => Sys2Proof.Machine.execConfigurationGet id s
  | .configurationSet id value => Sys2Proof.Machine.execConfigurationSet id value s
  | .vpdRead mem off n => Sys2Proof.Machine.execVpdRead mem off n s
  | .tunnelledAdminCommand command => Sys2Proof.Machine.execTunnelledAdminCommand command s
  | .identifyMemoryDevice => Sys2Proof.Machine.execIdentifyMemoryDevice s
  | .getHealthInfo => Sys2Proof.Machine.execGetHealthInfo s
  | .getSupportedLogs => Sys2Proof.Machine.execGetSupportedLogs s
  | .getLog => Sys2Proof.Machine.execGetLog s
  | .getEventRecords => Sys2Proof.Machine.execGetEventRecords s
  | .clearEventRecords n => Sys2Proof.Machine.execClearEventRecords n s
  | .globalPersistentFlush => Sys2Proof.Machine.execGlobalPersistentFlush s
  | .linkDetect link bad => Sys2Proof.Machine.execLinkDetect link bad s
  | .linkTrained link init delay => Sys2Proof.Machine.execLinkTrained link init delay s
  | .linkTrainTimeout link => Sys2Proof.Machine.execLinkTrainTimeout link s
  | .limucLaneRetire link lane => Sys2Proof.Machine.execLimucLaneRetire link lane s
  | .linkReplayLimit link => Sys2Proof.Machine.execLinkReplayLimit link s
  | .linkRecovered link => Sys2Proof.Machine.execLinkRecovered link s
  | .linkRecoverTimeout link => Sys2Proof.Machine.execLinkRecoverTimeout link s
  | .linkDisable link => Sys2Proof.Machine.execLinkDisable link s
  | .flitReceive link f t ns => Sys2Proof.Machine.execFlitReceive link f t ns s
  | .nakReceive link ack => Sys2Proof.Machine.execNakReceive link ack s
  | .probeSend link t => Sys2Proof.Machine.execProbeSend link t s
  | .probe link m t => Sys2Proof.Machine.execProbe link m t s
  | .credit link m => Sys2Proof.Machine.execCredit link m s
  | .read64 link m => Sys2Proof.Machine.execRead64 link m s
  | .write64 link m => Sys2Proof.Machine.execWrite64 link m s
  | .cadd link m => Sys2Proof.Machine.execCadd link m s
  | .bulk link m => Sys2Proof.Machine.execBulk link m s
  | .act link m => Sys2Proof.Machine.execAct link m s
  | .dir link m => Sys2Proof.Machine.execDir link m s
  | .dirBcast link m => Sys2Proof.Machine.execDirBcast link m s
  | .rdata link m => Sys2Proof.Machine.execRdata link m s
  | .wack link m => Sys2Proof.Machine.execWack link m s
  | .back link m => Sys2Proof.Machine.execBack link m s
  | .aack link m => Sys2Proof.Machine.execAack link m s
  | .dirr link m => Sys2Proof.Machine.execDirr link m s
  | .twack link m ns => Sys2Proof.Machine.execTwack link m ns s
  | .tcrsp link m => Sys2Proof.Machine.execTcrsp link m s
  | .notReadyRetry tag => Sys2Proof.Machine.execNotReadyRetry tag s
  | .spanRequestTimeout tag => Sys2Proof.Machine.execSpanRequestTimeout tag s
  | .flitHoldDiscard link => Sys2Proof.Machine.execFlitHoldDiscard link s
  | .join link m => Sys2Proof.Machine.execJoin link m s
  | .alive link m => Sys2Proof.Machine.execAlive link m s
  | .heartbeatSend => Sys2Proof.Machine.execHeartbeatSend s
  | .peerState link m => Sys2Proof.Machine.execPeerState link m s
  | .memberHeartbeatMiss module => Sys2Proof.Machine.execMemberHeartbeatMiss module s
  | .masterChange link m => Sys2Proof.Machine.execMasterChange link m s
  | .dirSync link m => Sys2Proof.Machine.execDirSync link m s
  | .mapReq link m => Sys2Proof.Machine.execMapReq link m s
  | .partnerQuery link m => Sys2Proof.Machine.execPartnerQuery link m s
  | .masterHeartbeatMiss => Sys2Proof.Machine.execMasterHeartbeatMiss s
  | .takeover => Sys2Proof.Machine.execTakeover s
  | .twinWrite link m => Sys2Proof.Machine.execTwinWrite link m s
  | .twinOp link m => Sys2Proof.Machine.execTwinOp link m s
  | .twinCkpt link m => Sys2Proof.Machine.execTwinCkpt link m s
  | .twinCopy link m => Sys2Proof.Machine.execTwinCopy link m s
  | .twinMap link m => Sys2Proof.Machine.execTwinMap link m s
  | .hello link m => Sys2Proof.Machine.execHello link m s
  | .twinDetachNotice link m => Sys2Proof.Machine.execTwinDetachNotice link m s
  | .resyncDone link m => Sys2Proof.Machine.execResyncDone link m s
  | .pairedNotice link m => Sys2Proof.Machine.execPairedNotice link m s
  | .picked link m => Sys2Proof.Machine.execPicked link m s
  | .resyncCopy unit first n => Sys2Proof.Machine.execResyncCopy unit first n s
  | .twackTimeout => Sys2Proof.Machine.execTwackTimeout s
  | .twinDetach => Sys2Proof.Machine.execTwinDetach s
  | .rejoin => Sys2Proof.Machine.execRejoin s
  | .forceSolo => Sys2Proof.Machine.execForceSolo s
  | .pick => Sys2Proof.Machine.execPick s
  | .coldReset t bay present => Sys2Proof.Machine.execColdReset t bay present s
  | .warmReset => Sys2Proof.Machine.execWarmReset s
  | .svcLockSet => Sys2Proof.Machine.execSvcLockSet s
  | .powerOnSelfTest ms bad => Sys2Proof.Machine.execPowerOnSelfTest ms bad s
  | .refurbBegin => Sys2Proof.Machine.execRefurbBegin s
  | .retest => Sys2Proof.Machine.execRetest s
  | .retestDone bad => Sys2Proof.Machine.execRetestDone bad s
  | .refurbEnd => Sys2Proof.Machine.execRefurbEnd s
  | .exportSet dmaOk => Sys2Proof.Machine.execExportSet dmaOk s
  | .calibrationWrite data dmaOk flashOk => Sys2Proof.Machine.execCalibrationWrite data dmaOk flashOk s
  | .cartridgeInsert slot id => Sys2Proof.Machine.execCartridgeInsert slot id s
  | .cartridgePull slot => Sys2Proof.Machine.execCartridgePull slot s
  | .thermalStepRise m used => Sys2Proof.Machine.execThermalStepRise m used s
  | .thermalStepFall m => Sys2Proof.Machine.execThermalStepFall m s
  | .cartridgeThermalHold slot temp => Sys2Proof.Machine.execCartridgeThermalHold slot temp s
  | .perstDeassert => Sys2Proof.Machine.execPerstDeassert s
  | .noHello => Sys2Proof.Machine.execNoHello s
  | .cartridgeThermalRelease slot temp => Sys2Proof.Machine.execCartridgeThermalRelease slot temp s
  | .linkAckCreditTimer link => Sys2Proof.Machine.execLinkAckCreditTimer link s

end Sys2Proof.Machine
end

