-- ==== Sys2Proof/Machine/Tick.lean ====
section
/-! DEFINITION. What passing time does when no command waits: the table has no row for it (DESIGN CHOICE, assumption log entry 1). -/
namespace Sys2Proof.Machine

/-- A core with nothing commanded: words with an error are tested once its row is empty (R215), beats without a total left travel out of its row (R189, R201), and transfers take what its drain-output
partition holds (R209, R227). -/
def Mdl.tickCore (s : Mdl) (d c k : Nat) : Mdl :=
  let s := (s.rowSettle d c k).testWords d c k
  let x := s.core d c k
  if x.outUsed = 0 then s else s.setCore d c k { x with outUsed := 0 }

/-- A moment without a command: what CHT_CMD has under way goes on (R136, R144), a sanitize goes on once compute is quiet (R598), and rows
empty. -/
def Mdl.tick (s : Mdl) : Mdl := s.cores.foldl (fun s p => s.tickCore (p.1 / 9 / 26) (p.1 / 9 % 26) (p.1 % 9)) s.sanitizeGoesOn.chartTick

/-- The module idles: nothing else of it changes, nothing at all without power, and its queue stays empty. -/
def State.tick (s : State) : State := s.whenOn Mdl.tick

end Sys2Proof.Machine
end

