-- ==== Sys2Proof/Safety.lean ====
section
/-! DEFINITION. What holds of every run, and the words that claims use: canonical tables, a module without power, what a
command leaves alone. -/
namespace Sys2Proof.Machine

/-- The register file is canonical: a field that reads as its reset value is not listed. -/
def State.regsSorted (s : State) : Bool := Table.sortedAbove none s.regs

/-- Device memory is canonical (R325, R329). -/
def State.memOk (s : State) : Bool := s.mem.wf

/-- Every register field but the listed ones reads as before. -/
def Mdl.keepsRegs (m t : Mdl) (l : List Fld) : Prop := ∀ g : Fld, (∀ f ∈ l, g.key ≠ f.key) → t.reg g = m.reg g

/-- Nothing has changed but the listed register fields. -/
def Mdl.onlyRegs (m t : Mdl) (l : List Fld) : Prop := t = { m with regs := t.regs } ∧ m.keepsRegs t l

/-- The commands a module without power answers to: the three that bring or take power, and those of the management endpoint, which runs from
P54 alone (Table 14-1). Every other command finds it silent. -/
def wakes : Instr → Bool
  | .powerUp .. | .moduleInsert | .holdupCharged .. | .inputOutOfRange .. | .readNvmeMiDataStructure .. | .subsystemHealthStatusPoll
  | .controllerHealthStatusPoll .. | .configurationGet .. | .configurationSet .. | .vpdRead .. | .tunnelledAdminCommand .. => true
  | _ => false

/-- Is the command POWER_UP? -/
def isPowerUp : Instr → Bool
  | .powerUp .. => true
  | _ => false

/-- A module whose timeline has not begun, that is not in the stage "ready" or "refurbishment", and with no POWER_UP among the commands that wait. -/
def State.offForGood (s : State) : Prop :=
  s.svc.started = false ∧ s.stage ≠ 2 ∧ s.stage ≠ 6 ∧ ∀ c ∈ s.pending, isPowerUp c = false

/-- The commands that are register writes of BAR2 with a row of their own, but SVC_RESET's: Table 14-2 has them ignored until the module is ready. -/
def isBusWrite : Instr → Bool
  | .slotPower .. | .svcLockSet | .refurbBegin | .retest | .refurbEnd | .exportSet .. | .calibrationWrite .. | .domainReq .. | .reacquire
  | .sourceSelect .. | .epochSet .. | .periodWrite .. | .arm | .disarm | .eraseBank .. | .programBank .. | .verifyBank .. | .loadFull ..
  | .loadPartial .. | .setOption .. | .chartAbort | .cplCommit .. | .eyeHalt .. | .eyeResume .. | .map .. | .unmap .. | .pin .. | .unpin ..
  | .move .. | .setHome .. | .modelLoad .. | .modelUnload .. | .cancel .. | .resume .. | .attach .. | .stage .. | .unstage .. | .detach ..
  | .delete .. | .scrubStart .. | .scrubStop .. | .rawRead .. | .bringIn | .takeover | .twinDetach | .rejoin | .forceSolo | .pick => true
  | _ => false

/-- The fields of SVC_HIER_FAULT but OVERFLOW, and SVC_HIER_FAULT_EPOCH (Tables 1-9, 1-10). -/
def faultRecord : List Fld := [Reg.SVC_HIER_FAULT_VALID, Reg.SVC_HIER_FAULT_LEVEL, Reg.SVC_HIER_FAULT_DIE, Reg.SVC_HIER_FAULT_CLUSTER,
  Reg.SVC_HIER_FAULT_CORE, Reg.SVC_HIER_FAULT_LANE, Reg.SVC_HIER_FAULT_KIND, Reg.SVC_HIER_FAULT_ACTION, Reg.SVC_HIER_FAULT_EPOCH_EPOCH]

/-- The fields in which a chart command reports its end (Tables 3-19, 3-20). -/
def chartEndFields : List Fld := [Reg.CHT_STATUS_DONE, Reg.CHT_STATUS_ERR, Reg.CHT_STATUS_ERR_FRAME, Reg.CHT_ERR_DETAIL_OFFSET, Reg.CHT_ERR_DETAIL_SUBCODE]

end Sys2Proof.Machine
end

