-- ==== Sys2Proof/Certificates/Slice0/Obligations.lean ====
section
/-! DEFINITION. The statements for the provers: completion of every command, family by family; the step; and what the spec's rules say of each family
of commands and of each kind of state. `m` is the module, `q` the commands that wait, `t` the module after the command. -/

open Sys2Proof Sys2Proof.Machine

/-! ### Completion, family by family -/

/-- Completion: the commands of BAR2 accesses, power, resets, the button, refurbishment, calibration, temperature and cartridges. On a
module that runs (and, for a register write, is ready), each answers a next state, that of its own operation on the module, and leaves the
queue alone; a command that the module takes without power needs no hypothesis. -/
def Obligations.BusAndPowerCommandsComplete : Prop :=
  ∀ (dev : Mdl) (rest : List Instr),
    (dev.powered = true →
      (∀ (addr : Nat) (wide : Bool) (value : Nat), exec (.registerWrite addr wide value) ⟨dev, rest⟩ = .next ⟨dev.busWrite addr wide value, rest⟩) ∧
      (∀ (addr : Nat) (wide : Bool), exec (.readClearRegisterRead addr wide) ⟨dev, rest⟩ = .next ⟨dev.busRead addr wide, rest⟩) ∧
      (∀ (bytes : Nat) (write : Bool), exec (.bar2BadAccess bytes write) ⟨dev, rest⟩ = .next ⟨dev.badAccess bytes write, rest⟩) ∧
      (exec .perstAssert ⟨dev, rest⟩ = .next ⟨dev.perstAssert, rest⟩) ∧
      (exec .perstDeassert ⟨dev, rest⟩ = .next ⟨dev.perstDeassert, rest⟩) ∧
      (∀ (port : Port), exec (.portHotReset port) ⟨dev, rest⟩ = .next ⟨dev.portReset port, rest⟩) ∧
      (∀ (ctl : Nat), exec (.functionLevelReset ctl) ⟨dev, rest⟩ = .next ⟨dev.functionReset ctl, rest⟩) ∧
      (∀ (fn : Nat), exec (.configRequest fn) ⟨dev, rest⟩ = .next ⟨dev.configRequest fn, rest⟩) ∧
      (∀ (fn : Nat), exec (.d3hotEntry fn) ⟨dev, rest⟩ = .next ⟨dev.d3hot fn, rest⟩) ∧
      (∀ (ctl : Nat), exec (.shutdownNotification ctl) ⟨dev, rest⟩ = .next ⟨dev.shutdown ctl, rest⟩) ∧
      (∀ (ctl : Nat), exec (.controllerEnable ctl) ⟨dev, rest⟩ = .next ⟨dev.controllerEnable ctl, rest⟩) ∧
      (∀ (energy : Nat) (wh : Nat), exec (.holdupMeasure energy wh) ⟨dev, rest⟩ = .next ⟨dev.holdupMeasure energy wh, rest⟩) ∧
      (∀ (ms : Nat), exec (.attnPressRelease ms) ⟨dev, rest⟩ = .next ⟨dev.attnRelease ms, rest⟩) ∧
      (exec .attnHold5s ⟨dev, rest⟩ = .next ⟨dev.attnHold, rest⟩) ∧
      (∀ (t : Nat) (bay : BayId) (present : Nat), exec (.coldReset t bay present) ⟨dev, rest⟩ = .next ⟨dev.coldReset t bay present, rest⟩) ∧
      (exec .warmReset ⟨dev, rest⟩ = .next ⟨dev.warmReset, rest⟩) ∧
      (∀ (ms : Nat) (bad : List Machine.PostFault), exec (.powerOnSelfTest ms bad) ⟨dev, rest⟩ = .next ⟨dev.powerOnTest ms bad, rest⟩) ∧
      (∀ (ms : Nat), exec (.mapRestore ms) ⟨dev, rest⟩ = .next ⟨dev.restoreMap ms, rest⟩) ∧
      (∀ (bad : List UnitAddr), exec (.retestDone bad) ⟨dev, rest⟩ = .next ⟨dev.retestDone bad, rest⟩) ∧
      (∀ (slot : Slot) (id : Machine.CartId), exec (.cartridgeInsert slot id) ⟨dev, rest⟩ = .next ⟨dev.cartridgeInsert slot id, rest⟩) ∧
      (∀ (slot : Slot), exec (.cartridgePull slot) ⟨dev, rest⟩ = .next ⟨dev.pull slot, rest⟩) ∧
      (∀ (m : Machine.Climate) (used : Nat), exec (.thermalStepRise m used) ⟨dev, rest⟩ = .next ⟨dev.thermalRise m used, rest⟩) ∧
      (∀ (m : Machine.Climate), exec (.thermalStepFall m) ⟨dev, rest⟩ = .next ⟨dev.thermalFall m, rest⟩) ∧
      (∀ (slot : Slot) (temp : Nat), exec (.cartridgeThermalHold slot temp) ⟨dev, rest⟩ = .next ⟨dev.cartHot slot temp, rest⟩) ∧
      (∀ (slot : Slot) (temp : Nat), exec (.cartridgeThermalRelease slot temp) ⟨dev, rest⟩ = .next ⟨dev.cartCool slot temp, rest⟩)) ∧
    (dev.powered = true → 2 ≤ dev.stage →
      (∀ (slot : Nat) (on : Bool), exec (.slotPower slot on) ⟨dev, rest⟩ = .next ⟨dev.slotPower slot on, rest⟩) ∧
      (exec .svcLockSet ⟨dev, rest⟩ = .next ⟨dev.lockSet, rest⟩) ∧
      (exec .refurbBegin ⟨dev, rest⟩ = .next ⟨dev.refurbBegin, rest⟩) ∧
      (exec .retest ⟨dev, rest⟩ = .next ⟨dev.retest, rest⟩) ∧
      (exec .refurbEnd ⟨dev, rest⟩ = .next ⟨dev.refurbEnd, rest⟩) ∧
      (∀ (dmaOk : Bool), exec (.exportSet dmaOk) ⟨dev, rest⟩ = .next ⟨dev.calExport dmaOk, rest⟩) ∧
      (∀ (data : List Byte) (dmaOk : Bool) (flashOk : Bool), exec (.calibrationWrite data dmaOk flashOk) ⟨dev, rest⟩ = .next ⟨dev.calWrite data dmaOk flashOk, rest⟩)) ∧
    (
      (∀ (absentMs : Nat) (energy : Nat) (bay : BayId) (present : Nat) (refclk : Bool), exec (.powerUp absentMs energy bay present refclk) ⟨dev, rest⟩ = .next ⟨dev.powerUp absentMs energy bay present refclk, rest⟩) ∧
      (exec .moduleInsert ⟨dev, rest⟩ = .next ⟨dev.moduleInsert, rest⟩) ∧
      (∀ (ms : Nat), exec (.holdupCharged ms) ⟨dev, rest⟩ = .next ⟨dev.holdupCharged ms, rest⟩) ∧
      (∀ (used : Nat), exec (.inputOutOfRange used) ⟨dev, rest⟩ = .next ⟨dev.inputOut used, rest⟩))

/-- Completion: the commands of faults of the six levels, bring-ins, power domains, the clock drive and the Ephemeris. On a module that runs
(and, for a register write, is ready), each answers a next state, that of its own operation on the module, and leaves the queue alone; a
command that the module takes without power needs no hypothesis. -/
def Obligations.UnitAndClockCommandsComplete : Prop :=
  ∀ (dev : Mdl) (rest : List Instr),
    (dev.powered = true →
      (∀ (d : Die) (c : Cluster) (k : CoreNo) (lane : Lane) (kind : Nat), exec (.laneDatapathFault d c k lane kind) ⟨dev, rest⟩ = .next ⟨dev.laneFault d c k lane kind true, rest⟩) ∧
      (∀ (d : Die) (c : Cluster) (k : CoreNo), exec (.laneBypass d c k) ⟨dev, rest⟩ = .next ⟨dev.laneBypass d c k, rest⟩) ∧
      (∀ (d : Die) (c : Cluster) (core : Option CoreNo) (kind : Nat), exec (.coreClusterFault d c core kind) ⟨dev, rest⟩ = .next ⟨dev.coreOrCluster d c (core.map (·.val)) kind, rest⟩) ∧
      (∀ (d : Die) (kind : Nat), exec (.dieFault d kind) ⟨dev, rest⟩ = .next ⟨dev.dieFault d kind [], rest⟩) ∧
      (∀ (kind : Nat), exec (.packageFault kind) ⟨dev, rest⟩ = .next ⟨dev.packageFault kind, rest⟩) ∧
      (exec .serviceProcessorTakeover ⟨dev, rest⟩ = .next ⟨dev.takeover, rest⟩) ∧
      (∀ (n : Nat), exec (.inPackageLinkFailure n) ⟨dev, rest⟩ = .next ⟨dev.linkFailure n, rest⟩) ∧
      (∀ (rail : Nat) (feeds : Option Die), exec (.regulatorPhaseFault rail feeds) ⟨dev, rest⟩ = .next ⟨dev.phaseFault rail (feeds.map (·.val)), rest⟩) ∧
      (∀ (stack : Fin 8), exec (.hbmStackFailure stack) ⟨dev, rest⟩ = .next ⟨dev.dieFault (stack / 2) 0x09 [], rest⟩) ∧
      (∀ (ld : Die) (lc : Fin 25), exec (.partialLoad ld lc) ⟨dev, rest⟩ = .next ⟨dev.partialLoad ld lc, rest⟩) ∧
      (∀ (ld : Die) (lc : Fin 25) (bad0 : Bool) (bad1 : Bool), exec (.partialLoadDone ld lc bad0 bad1) ⟨dev, rest⟩ = .next ⟨dev.partialDone ld lc bad0 bad1, rest⟩) ∧
      (∀ (domain : Nat), exec (.domainSwitchDone domain) ⟨dev, rest⟩ = .next ⟨dev.domainDone domain, rest⟩) ∧
      (∀ (t : Nat) (rising : Bool) (widthNs : Nat), exec (.transitEdge t rising widthNs) ⟨dev, rest⟩ = .next ⟨dev.transitEdge t rising widthNs, rest⟩) ∧
      (∀ (link : LinkNo) (src : ModuleNo) (m : Machine.TransitMsg) (t : Nat), exec (.transitMessage link src m t) ⟨dev, rest⟩ = .next ⟨dev.transitIn link src m t, rest⟩) ∧
      (∀ (t : Nat), exec (.epochBoundary t) ⟨dev, rest⟩ = .next ⟨dev.epochBoundary t, rest⟩) ∧
      (exec .holdoverEntry ⟨dev, rest⟩ = .next ⟨dev.holdoverEntry, rest⟩) ∧
      (exec .holdoverExpiry ⟨dev, rest⟩ = .next ⟨dev.holdoverExpiry, rest⟩) ∧
      (∀ (t : Nat), exec (.acquireNoEdge t) ⟨dev, rest⟩ = .next ⟨dev.acquireNoEdge t, rest⟩) ∧
      (exec .acqTimeout ⟨dev, rest⟩ = .next ⟨dev.acqTimeout, rest⟩) ∧
      (∀ (addr : Nat) (wide : Bool) (value : Nat), exec (.shadowBankWrite addr wide value) ⟨dev, rest⟩ = .next ⟨dev.shadowAccess addr wide value, rest⟩) ∧
      (∀ (phase : Fin 65536), exec (.windowOpen phase) ⟨dev, rest⟩ = .next ⟨dev.windowOpens phase, rest⟩) ∧
      (∀ (phase : Fin 65537) (sweeps : Nat), exec (.windowEnd phase sweeps) ⟨dev, rest⟩ = .next ⟨dev.windowEnds phase sweeps, rest⟩) ∧
      (∀ (phase : Fin 65536) (slot : Slot) (die : Fin 128), exec (.eraseSuspendWindow phase slot die) ⟨dev, rest⟩ = .next ⟨(dev.eraseSuspend phase slot die).rawDone slot die, rest⟩)) ∧
    (dev.powered = true → 2 ≤ dev.stage →
      (∀ (domain : Nat) (on : Bool), exec (.domainReq domain on) ⟨dev, rest⟩ = .next ⟨dev.domainReq domain on, rest⟩) ∧
      (exec .reacquire ⟨dev, rest⟩ = .next ⟨dev.reacquire, rest⟩) ∧
      (∀ (v : Fin 4), exec (.sourceSelect v) ⟨dev, rest⟩ = .next ⟨dev.sourceSelect v, rest⟩) ∧
      (∀ (v : BitVec 48), exec (.epochSet v) ⟨dev, rest⟩ = .next ⟨dev.epochSet v.toNat, rest⟩) ∧
      (∀ (next : Bool) (v : BitVec 32), exec (.periodWrite next v) ⟨dev, rest⟩ = .next ⟨dev.periodWrite next v.toNat, rest⟩) ∧
      (exec .arm ⟨dev, rest⟩ = .next ⟨dev.arm, rest⟩) ∧
      (exec .disarm ⟨dev, rest⟩ = .next ⟨dev.disarm, rest⟩))

/-- Completion: the commands of chart banks, loads, options, coupled fields, the rows of the cores and their control engines. On a module
that runs (and, for a register write, is ready), each answers a next state, that of its own operation on the module, and leaves the queue
alone; a command that the module takes without power needs no hypothesis. -/
def Obligations.ChartAndLaneCommandsComplete : Prop :=
  ∀ (dev : Mdl) (rest : List Instr),
    (dev.powered = true →
      (∀ (fail : Bool), exec (.eraseBankDone fail) ⟨dev, rest⟩ = .next ⟨dev.eraseBankDone fail, rest⟩) ∧
      (∀ (fail : Bool), exec (.programBankDone fail) ⟨dev, rest⟩ = .next ⟨dev.programBankDone fail, rest⟩) ∧
      (∀ (d : Die) (c : Cluster), exec (.quiesceTimeout d c) ⟨dev, rest⟩ = .next ⟨(dev.quiesceTimeout d c).sanitizeGoesOn, rest⟩) ∧
      (exec .chartApply ⟨dev, rest⟩ = .next ⟨dev.chartApply, rest⟩) ∧
      (∀ (addr : Nat) (wide : Bool) (value : Nat), exec (.coupledFieldWrite addr wide value) ⟨dev, rest⟩ = .next ⟨dev.coupledAccess addr wide value, rest⟩) ∧
      (∀ (group : Nat), exec (.coupledCommitApply group) ⟨dev, rest⟩ = .next ⟨dev.coupledApply group, rest⟩) ∧
      (exec .couplingHoldTimeout ⟨dev, rest⟩ = .next ⟨dev.holdTimeout, rest⟩) ∧
      (∀ (d : Die) (c : Cluster) (k : CoreNo) (p : Pass) (adv : Nat) (arrived : List Arrival), exec (.passBoundary d c k p adv arrived) ⟨dev, rest⟩ = .next ⟨dev.passBoundary d c k p adv arrived, rest⟩) ∧
      (∀ (d : Die) (c : Cluster) (k : CoreNo) (lane : Lane) (slot : Fin 128) (tag : Bool) (src : WeightSource) (off : Nat) (fmt : Fin 16) (adv : Nat) (arrived : List Arrival), exec (.weightSlotWrite d c k lane slot tag src off fmt adv arrived) ⟨dev, rest⟩ = .next ⟨dev.weightWrite d c k lane slot tag src off fmt adv arrived, rest⟩) ∧
      (∀ (d : Die) (c : Cluster) (k : CoreNo) (q : FreezeCauses) (adv : Nat), exec (.rowFreeze d c k q adv) ⟨dev, rest⟩ = .next ⟨dev.rowFreeze d c k q adv, rest⟩) ∧
      (∀ (d : Die) (c : Cluster) (k : CoreNo), exec (.freezeEnd d c k) ⟨dev, rest⟩ = .next ⟨dev.freezeEnd d c k, rest⟩) ∧
      (∀ (d : Die) (c : Cluster) (k : CoreNo), exec (.dummyRampDown d c k) ⟨dev, rest⟩ = .next ⟨dev.dummyRampDown d c k, rest⟩) ∧
      (∀ (d : Die) (c : Cluster) (k : CoreNo) (adv : Nat), exec (.dummyGapEnd d c k adv) ⟨dev, rest⟩ = .next ⟨dev.dummyGapEnd d c k adv, rest⟩) ∧
      (∀ (d : Die) (c : Cluster) (k : CoreNo) (lane : Fin 64) (adv : Nat) (arrived : List Arrival), exec (.rowTotalWrite d c k lane adv arrived) ⟨dev, rest⟩ = .next ⟨dev.rowTotalWrite d c k lane adv arrived, rest⟩) ∧
      (∀ (d : Die) (c : Cluster) (k : CoreNo) (bank : Fin 2) (adv : Nat), exec (.drainReadRow d c k bank adv) ⟨dev, rest⟩ = .next ⟨dev.drainRead d c k bank adv, rest⟩) ∧
      (∀ (d : Die) (c : Cluster) (k : CoreNo) (batch : Nat) (m : Nat) (n : Nat), exec (.drainWriteRow d c k batch m n) ⟨dev, rest⟩ = .next ⟨dev.drainWrite d c k batch m n, rest⟩) ∧
      (∀ (phase : Fin 65536) (d : Die) (c : Cluster) (k : CoreNo) (ended : Bool) (lane : Option Lane), exec (.selfTestSegment phase d c k ended lane) ⟨dev, rest⟩ = .next ⟨dev.selfTest phase d c k ended (lane.map (·.val)), rest⟩) ∧
      (∀ (d : Die) (c : Cluster) (k : CoreNo) (m : CoreStorage), exec (.coreEccCorrected d c k m) ⟨dev, rest⟩ = .next ⟨dev.coreCorrected d c k m, rest⟩) ∧
      (∀ (d : Die) (c : Cluster) (k : CoreNo) (m : CoreStorage) (lane : Lane) (place : Nat) (reader : Bool) (hard : Bool), exec (.coreEccUncorrectable d c k m lane place reader hard) ⟨dev, rest⟩ = .next ⟨dev.coreUncorrectable d c k m lane place reader hard, rest⟩) ∧
      (∀ (d : Die) (c : Cluster) (k : CoreNo) (cause : CeFault), exec (.controlEngineFault d c k cause) ⟨dev, rest⟩ = .next ⟨dev.controlFault d c k cause, rest⟩) ∧
      (∀ (d : Die) (c : Cluster) (k : CoreNo), exec (.controlEngineWatchdog d c k) ⟨dev, rest⟩ = .next ⟨dev.watchdog d c k, rest⟩)) ∧
    (dev.powered = true → 2 ≤ dev.stage →
      (∀ (bank : Fin 2), exec (.eraseBank bank) ⟨dev, rest⟩ = .next ⟨dev.eraseBank bank, rest⟩) ∧
      (∀ (bank : Fin 2) (data : List Byte), exec (.programBank bank data) ⟨dev, rest⟩ = .next ⟨dev.programBank bank data, rest⟩) ∧
      (∀ (bank : Fin 2), exec (.verifyBank bank) ⟨dev, rest⟩ = .next ⟨dev.verifyBank bank, rest⟩) ∧
      (∀ (bank : Fin 2), exec (.loadFull bank) ⟨dev, rest⟩ = .next ⟨dev.loadFull bank, rest⟩) ∧
      (∀ (ld : Nat) (lc : Nat), exec (.loadPartial ld lc) ⟨dev, rest⟩ = .next ⟨dev.loadPartial ld lc, rest⟩) ∧
      (∀ (record : List Byte) (auth : List Byte), exec (.setOption record auth) ⟨dev, rest⟩ = .next ⟨dev.setOption record auth, rest⟩) ∧
      (exec .chartAbort ⟨dev, rest⟩ = .next ⟨dev.chartAbort, rest⟩) ∧
      (∀ (group : BitVec 16), exec (.cplCommit group) ⟨dev, rest⟩ = .next ⟨dev.cplCommit group.toNat, rest⟩))

/-- Completion: the commands of macro-operations, marks, the Eyepiece, compensated adds, page tiers, models and activation channels. On a
module that runs (and, for a register write, is ready), each answers a next state, that of its own operation on the module, and leaves the
queue alone; a command that the module takes without power needs no hypothesis. -/
def Obligations.MacroAndTierCommandsComplete : Prop :=
  ∀ (dev : Mdl) (rest : List Instr),
    (dev.powered = true →
      (∀ (d : Die) (c : Cluster) (desc : BitVec 1024), exec (.mma d c desc) ⟨dev, rest⟩ = .next ⟨dev.macroOp 0x01 d c desc, rest⟩) ∧
      (∀ (d : Die) (c : Cluster) (desc : BitVec 1024), exec (.mmaChain d c desc) ⟨dev, rest⟩ = .next ⟨dev.macroOp 0x02 d c desc, rest⟩) ∧
      (∀ (d : Die) (c : Cluster) (desc : BitVec 1024), exec (.reduce d c desc) ⟨dev, rest⟩ = .next ⟨dev.macroOp 0x03 d c desc, rest⟩) ∧
      (∀ (d : Die) (c : Cluster) (desc : BitVec 1024), exec (.select d c desc) ⟨dev, rest⟩ = .next ⟨dev.macroOp 0x04 d c desc, rest⟩) ∧
      (∀ (d : Die) (c : Cluster) (desc : BitVec 1024), exec (.scanCodes d c desc) ⟨dev, rest⟩ = .next ⟨dev.macroOp 0x05 d c desc, rest⟩) ∧
      (∀ (d : Die) (c : Cluster) (desc : BitVec 1024), exec (.filter d c desc) ⟨dev, rest⟩ = .next ⟨dev.macroOp 0x06 d c desc, rest⟩) ∧
      (∀ (d : Die) (c : Cluster) (desc : BitVec 1024), exec (.convert d c desc) ⟨dev, rest⟩ = .next ⟨dev.macroOp 0x07 d c desc, rest⟩) ∧
      (∀ (d : Die) (c : Cluster) (desc : BitVec 1024), exec (.copy d c desc) ⟨dev, rest⟩ = .next ⟨dev.macroOp 0x08 d c desc, rest⟩) ∧
      (∀ (d : Die) (c : Cluster) (desc : BitVec 1024), exec (.atomicAdd d c desc) ⟨dev, rest⟩ = .next ⟨dev.macroOp 0x09 d c desc, rest⟩) ∧
      (∀ (d : Die) (c : Cluster) (effects : List GlueEffect), exec (.macroComplete d c effects) ⟨dev, rest⟩ = .next ⟨(dev.macroComplete d c effects).sanitizeGoesOn, rest⟩) ∧
      (∀ (d : Die) (c : Cluster) (code : Nat), exec (.macroFault d c code) ⟨dev, rest⟩ = .next ⟨(dev.macroFault d c code).sanitizeGoesOn, rest⟩) ∧
      (∀ (d : Die) (c : Cluster), exec (.markReached d c) ⟨dev, rest⟩ = .next ⟨(dev.markReached d c).sanitizeGoesOn, rest⟩) ∧
      (∀ (d : Die) (c : Cluster), exec (.contextSaveDone d c) ⟨dev, rest⟩ = .next ⟨(dev.contextSaveDone d c).sanitizeGoesOn, rest⟩) ∧
      (∀ (d : Die) (c : Cluster), exec (.eyeHalted d c) ⟨dev, rest⟩ = .next ⟨dev.eyeHalted d c, rest⟩) ∧
      (∀ (d : Die) (c : Cluster) (lane : Fin 64), exec (.eyeDataRead d c lane) ⟨dev, rest⟩ = .next ⟨dev.busRead ((Reg.EYE_DATA_VALUE d c lane).addr) false, rest⟩) ∧
      (∀ (acct : Account) (addr : Nat) (v : BitVec 32), exec (.compensatedAdd acct addr v) ⟨dev, rest⟩ = .next ⟨dev.compensatedAddAt acct addr v.toNat, rest⟩) ∧
      (∀ (acct : Account) (page : Nat) (cause : Option Die) (layer : Option (Fin 128 × Fin 65536)), exec (.demandPromotion acct page cause layer) ⟨dev, rest⟩ = .next ⟨dev.demandCommand acct page (cause.map (·.val)) (layer.map fun l => (l.1.val, l.2.val)), rest⟩) ∧
      (exec .coudeReadDone ⟨dev, rest⟩ = .next ⟨dev.coudeDone, rest⟩) ∧
      (∀ (acct : Account) (page : Nat), exec (.farPageWrite acct page) ⟨dev, rest⟩ = .next ⟨dev.beginFarWrite acct page, rest⟩) ∧
      (∀ (acct : Account) (page : Nat), exec (.farWriteDone acct page) ⟨dev, rest⟩ = .next ⟨dev.farWriteDone acct page, rest⟩) ∧
      (exec .watermarkSweep ⟨dev, rest⟩ = .next ⟨dev.watermarkSweep, rest⟩) ∧
      (∀ (phase : Fin 65536), exec (.almanacPhaseTrigger phase) ⟨dev, rest⟩ = .next ⟨dev.phaseTrigger phase, rest⟩) ∧
      (∀ (n : Fin 64) (on : Bool), exec (.achEnable n on) ⟨dev, rest⟩ = .next ⟨dev.achEnable n on, rest⟩) ∧
      (∀ (n : Fin 64) (slot : Fin 64), exec (.actSlotArrived n slot) ⟨dev, rest⟩ = .next ⟨dev.actArrived n slot, rest⟩) ∧
      (∀ (n : Fin 64) (slot : Fin 64), exec (.actCredit n slot) ⟨dev, rest⟩ = .next ⟨dev.actCredit n slot, rest⟩)) ∧
    (dev.powered = true → 2 ≤ dev.stage →
      (∀ (d : Die) (c : Cluster), exec (.eyeHalt d c) ⟨dev, rest⟩ = .next ⟨dev.eyeAccess d c fun dev => dev.eyeHalt d c, rest⟩) ∧
      (∀ (d : Die) (c : Cluster), exec (.eyeResume d c) ⟨dev, rest⟩ = .next ⟨dev.eyeAccess d c fun dev => dev.eyeResume d c, rest⟩) ∧
      (∀ (tier : Fin 4) (home : Die) (acct : Account), exec (.map tier home acct) ⟨dev, rest⟩ = .next ⟨dev.tierCommand 1 tier home acct, rest⟩) ∧
      (∀ (tier : Fin 4) (home : Die) (acct : Account), exec (.unmap tier home acct) ⟨dev, rest⟩ = .next ⟨dev.tierCommand 2 tier home acct, rest⟩) ∧
      (∀ (tier : Fin 4) (home : Die) (acct : Account), exec (.pin tier home acct) ⟨dev, rest⟩ = .next ⟨dev.tierCommand 3 tier home acct, rest⟩) ∧
      (∀ (tier : Fin 4) (home : Die) (acct : Account), exec (.unpin tier home acct) ⟨dev, rest⟩ = .next ⟨dev.tierCommand 4 tier home acct, rest⟩) ∧
      (∀ (tier : Fin 4) (home : Die) (acct : Account), exec (.move tier home acct) ⟨dev, rest⟩ = .next ⟨dev.tierCommand 5 tier home acct, rest⟩) ∧
      (∀ (tier : Fin 4) (home : Die) (acct : Account), exec (.setHome tier home acct) ⟨dev, rest⟩ = .next ⟨dev.tierCommand 6 tier home acct, rest⟩) ∧
      (∀ (n : Fin 128), exec (.modelLoad n) ⟨dev, rest⟩ = .next ⟨dev.modelLoad n, rest⟩) ∧
      (∀ (n : Fin 128), exec (.modelUnload n) ⟨dev, rest⟩ = .next ⟨dev.modelUnload n, rest⟩))

/-- Completion: the commands of sequences, jobs, semaphores, catalogues and searches. On a module that runs (and, for a register write, is
ready), each answers a next state, that of its own operation on the module, and leaves the queue alone; a command that the module takes
without power needs no hypothesis. -/
def Obligations.ServingAndCatalogueCommandsComplete : Prop :=
  ∀ (dev : Mdl) (rest : List Instr),
    (dev.powered = true →
      (∀ (entry : Fin 16384), exec (.swapOutDone entry) ⟨dev, rest⟩ = .next ⟨dev.swapOutDone entry, rest⟩) ∧
      (∀ (d : Die) (c : Cluster), exec (.jobDispatch d c) ⟨dev, rest⟩ = .next ⟨dev.dispatch d c, rest⟩) ∧
      (∀ (d : Die) (c : Cluster) (us : Nat), exec (.engineTimeCharge d c us) ⟨dev, rest⟩ = .next ⟨dev.charge d c us, rest⟩) ∧
      (∀ (d : Die) (c : Cluster), exec (.preemptDeferExpiry d c) ⟨dev, rest⟩ = .next ⟨dev.deferExpiry d c, rest⟩) ∧
      (∀ (d : Die) (c : Cluster) (k : CoreNo) (n : Fin 1024), exec (.semAcquire d c k n) ⟨dev, rest⟩ = .next ⟨dev.semAcquire d c k n, rest⟩) ∧
      (∀ (d : Die) (c : Cluster) (k : CoreNo) (n : Fin 1024), exec (.semRelease d c k n) ⟨dev, rest⟩ = .next ⟨dev.semRelease d c k n, rest⟩) ∧
      (∀ (job : Fin 4096), exec (.jobEnd job) ⟨dev, rest⟩ = .next ⟨(dev.batchGoesOn job).jobEnd job, rest⟩) ∧
      (∀ (cat : CatNo), exec (.catalogueAttached cat) ⟨dev, rest⟩ = .next ⟨dev.catAttached cat, rest⟩) ∧
      (∀ (cid : Nat) (ctl : Nat) (set : Nat) (params : List Byte), exec (.searchBatch cid ctl set params) ⟨dev, rest⟩ = .next ⟨dev.submit ⟨cid, ctl, .execute 0x100 set params⟩, rest⟩) ∧
      (∀ (d : Die) (c : Cluster) (receiving : Nat), exec (.sweepStart d c receiving) ⟨dev, rest⟩ = .next ⟨dev.sweepStart d c receiving, rest⟩)) ∧
    (dev.powered = true → 2 ≤ dev.stage →
      (∀ (entry : Fin 16384), exec (.cancel entry) ⟨dev, rest⟩ = .next ⟨dev.cancelSeq entry, rest⟩) ∧
      (∀ (group : GroupNo), exec (.resume group) ⟨dev, rest⟩ = .next ⟨dev.resumeGroup group, rest⟩) ∧
      (∀ (cat : CatNo) (acct : Account), exec (.attach cat acct) ⟨dev, rest⟩ = .next ⟨dev.catCommand 1 cat acct, rest⟩) ∧
      (∀ (cat : CatNo) (acct : Account), exec (.stage cat acct) ⟨dev, rest⟩ = .next ⟨dev.catCommand 2 cat acct, rest⟩) ∧
      (∀ (cat : CatNo) (acct : Account), exec (.unstage cat acct) ⟨dev, rest⟩ = .next ⟨dev.catCommand 3 cat acct, rest⟩) ∧
      (∀ (cat : CatNo) (acct : Account), exec (.detach cat acct) ⟨dev, rest⟩ = .next ⟨dev.catCommand 4 cat acct, rest⟩) ∧
      (∀ (cat : CatNo) (acct : Account), exec (.delete cat acct) ⟨dev, rest⟩ = .next ⟨dev.catCommand 5 cat acct, rest⟩))

/-- Completion: the commands of flash dies, SRAM and HBM errors, scrubs, and the work of the translation layer. On a module that runs (and,
for a register write, is ready), each answers a next state, that of its own operation on the module, and leaves the queue alone; a command
that the module takes without power needs no hypothesis. -/
def Obligations.MediaAndStripeCommandsComplete : Prop :=
  ∀ (dev : Mdl) (rest : List Instr),
    (dev.powered = true →
      (∀ (slot : Slot) (die : Fin 128) (block : Fin 8448) (row : Fin 512) (cws : Nat) (origin : Machine.Origin), exec (.flashRead slot die block row cws origin) ⟨dev, rest⟩ = .next ⟨dev.flashRead ⟨⟨slot, die, block⟩, row, cws, origin⟩, rest⟩) ∧
      (∀ (stripe : Fin 524288) (group : Fin 16) (row : Fin 512) (coude : Bool) (detour : Bool) (cws : List CwRead), exec (.flashReadDone stripe group row coude detour cws) ⟨dev, rest⟩ = .next ⟨dev.flashReadDone stripe group row coude detour cws, rest⟩) ∧
      (∀ (phase : Fin 65536) (stripe : Fin 524288) (group : Fin 16), exec (.flashProgram phase stripe group) ⟨dev, rest⟩ = .next ⟨dev.flashProgram phase stripe group, rest⟩) ∧
      (∀ (slot : Slot) (die : Fin 128) (pass : Bool), exec (.programEnd slot die pass) ⟨dev, rest⟩ = .next ⟨((dev.programEnd slot die pass).rawDone slot die).roomFreed, rest⟩) ∧
      (∀ (phase : Fin 65536) (stripe : Fin 524288) (group : Fin 16), exec (.flashErase phase stripe group) ⟨dev, rest⟩ = .next ⟨(dev.flashErase phase stripe group).roomFreed, rest⟩) ∧
      (∀ (slot : Slot) (die : Fin 128) (pass : Bool), exec (.eraseEnd slot die pass) ⟨dev, rest⟩ = .next ⟨((dev.eraseEnd slot die pass).rawDone slot die).roomFreed, rest⟩) ∧
      (∀ (phase : Fin 65536) (slot : Slot) (die : Fin 128), exec (.eraseResume phase slot die) ⟨dev, rest⟩ = .next ⟨dev.eraseResume phase slot die, rest⟩) ∧
      (∀ (stripe : Fin 524288) (group : Fin 16) (worst : Nat), exec (.erasedStateCheck stripe group worst) ⟨dev, rest⟩ = .next ⟨dev.erasedCheck stripe group worst, rest⟩) ∧
      (∀ (m : SramFault), exec (.sramUncorrectable m) ⟨dev, rest⟩ = .next ⟨dev.sramFault m, rest⟩) ∧
      (∀ (unit : Machine.HbmUnit), exec (.hbmCorrectable unit) ⟨dev, rest⟩ = .next ⟨dev.hbmCorrectable unit, rest⟩) ∧
      (∀ (unit : Machine.HbmUnit), exec (.hbmUncorrectable unit) ⟨dev, rest⟩ = .next ⟨dev.hbmUncorrectable unit, rest⟩) ∧
      (∀ (n : Fin 4) (phase : Fin 65536) (cws : List CwRead), exec (.scrubStripe n phase cws) ⟨dev, rest⟩ = .next ⟨dev.scrubStripe n phase cws, rest⟩) ∧
      (∀ (n : Fin 4) (phase : Fin 65536) (hits : List HbmHit), exec (.scrubHbm n phase hits) ⟨dev, rest⟩ = .next ⟨dev.scrubHbm n phase hits, rest⟩) ∧
      (∀ (unit : Fin 448000), exec (.fillSealTimeout unit) ⟨dev, rest⟩ = .next ⟨dev.fillTimeout unit, rest⟩) ∧
      (∀ (unit : Fin 448000), exec (.merge unit) ⟨dev, rest⟩ = .next ⟨dev.mergeCommand unit, rest⟩) ∧
      (∀ (number : Nat) (fail : Option (Fin 16)), exec (.copyVerifyCommit number fail) ⟨dev, rest⟩ = .next ⟨(dev.copyCommit number (fail.map (·.val))).roomFreed, rest⟩) ∧
      (∀ (slot : Slot), exec (.cartridgeLost slot) ⟨dev, rest⟩ = .next ⟨(dev.cartridgeLost slot).sendLost, rest⟩) ∧
      (exec .migrationStart ⟨dev, rest⟩ = .next ⟨dev.migrationStart, rest⟩) ∧
      (exec .migrationEnd ⟨dev, rest⟩ = .next ⟨dev.migrationEnds, rest⟩) ∧
      (∀ (phase : Fin 65536), exec (.journalBlockWrite phase) ⟨dev, rest⟩ = .next ⟨dev.journalBlock phase, rest⟩) ∧
      (exec .checkpointWrite ⟨dev, rest⟩ = .next ⟨dev.checkpointWrite, rest⟩)) ∧
    (dev.powered = true → 2 ≤ dev.stage →
      (∀ (n : Fin 4) (kind : Fin 2), exec (.scrubStart n kind) ⟨dev, rest⟩ = .next ⟨dev.scrubStart n kind, rest⟩) ∧
      (∀ (n : Fin 4), exec (.scrubStop n) ⟨dev, rest⟩ = .next ⟨dev.scrubStop n, rest⟩) ∧
      (∀ (dmaOk : Bool), exec (.rawRead dmaOk) ⟨dev, rest⟩ = .next ⟨dev.rawRead dmaOk, rest⟩) ∧
      (exec .bringIn ⟨dev, rest⟩ = .next ⟨dev.startMigration, rest⟩))

/-- Completion: the commands of NVMe commands, the host window, security, SPDM, the management endpoint and the CXL mailbox. On a module
that runs (and, for a register write, is ready), each answers a next state, that of its own operation on the module, and leaves the queue
alone; a command that the module takes without power needs no hypothesis. -/
def Obligations.NvmeAndAccessCommandsComplete : Prop :=
  ∀ (dev : Mdl) (rest : List Instr),
    (dev.powered = true →
      (∀ (cid : Nat) (ctl : Nat) (nsid : Nat) (lba : Nat) (n : Nat), exec (.nvmeRead cid ctl nsid lba n) ⟨dev, rest⟩ = .next ⟨dev.submit ⟨cid, ctl, .read nsid lba n⟩, rest⟩) ∧
      (∀ (cid : Nat) (ctl : Nat) (nsid : Nat) (lba : Nat) (data : List Sector), exec (.nvmeWrite cid ctl nsid lba data) ⟨dev, rest⟩ = .next ⟨dev.submit ⟨cid, ctl, .write nsid lba data⟩, rest⟩) ∧
      (∀ (cid : Nat) (ctl : Nat) (nsid : Nat) (lba : Nat) (n : Nat), exec (.writeZeroes cid ctl nsid lba n) ⟨dev, rest⟩ = .next ⟨dev.submit ⟨cid, ctl, .zeroes nsid lba n⟩, rest⟩) ∧
      (∀ (cid : Nat) (ctl : Nat), exec (.flush cid ctl) ⟨dev, rest⟩ = .next ⟨dev.flush cid ctl, rest⟩) ∧
      (∀ (cid : Nat) (ctl : Nat) (nsid : Nat) (ranges : List (Nat × Nat)), exec (.datasetManagement cid ctl nsid ranges) ⟨dev, rest⟩ = .next ⟨dev.submit ⟨cid, ctl, .deallocate nsid ranges⟩, rest⟩) ∧
      (∀ (cid : Nat) (ctl : Nat) (nsid : Nat) (ranges : List (Nat × Nat)), exec (.secureDeallocate cid ctl nsid ranges) ⟨dev, rest⟩ = .next ⟨dev.submit ⟨cid, ctl, .secure nsid ranges⟩, rest⟩) ∧
      (∀ (cid : Nat) (ctl : Nat) (nsid : Nat) (dst : Nat) (ranges : List SrcRange), exec (.nvmeCopy cid ctl nsid dst ranges) ⟨dev, rest⟩ = .next ⟨dev.submit ⟨cid, ctl, .copy nsid dst ranges⟩, rest⟩) ∧
      (∀ (cid : Nat) (ctl : Nat) (nsid : Nat) (zslba : Nat) (data : List Sector), exec (.zoneAppend cid ctl nsid zslba data) ⟨dev, rest⟩ = .next ⟨dev.submit ⟨cid, ctl, .zoneAppend nsid zslba data⟩, rest⟩) ∧
      (∀ (cid : Nat) (ctl : Nat) (nsid : Nat) (zslba : Nat), exec (.zoneOpen cid ctl nsid zslba) ⟨dev, rest⟩ = .next ⟨dev.submit ⟨cid, ctl, .zoneOpen nsid zslba⟩, rest⟩) ∧
      (∀ (cid : Nat) (ctl : Nat) (nsid : Nat) (zslba : Nat), exec (.zoneFinish cid ctl nsid zslba) ⟨dev, rest⟩ = .next ⟨dev.submit ⟨cid, ctl, .zoneFinish nsid zslba⟩, rest⟩) ∧
      (∀ (cid : Nat) (ctl : Nat) (nsid : Nat) (zslba : Nat), exec (.zoneReset cid ctl nsid zslba) ⟨dev, rest⟩ = .next ⟨dev.submit ⟨cid, ctl, .zoneReset nsid zslba⟩, rest⟩) ∧
      (∀ (cid : Nat) (ctl : Nat), exec (.rangeLockRelease cid ctl) ⟨dev, rest⟩ = .next ⟨dev.lockRelease cid ctl, rest⟩) ∧
      (∀ (cid : Nat) (ctl : Nat) (target : Nat) (outstanding : Nat), exec (.abort cid ctl target outstanding) ⟨dev, rest⟩ = .next ⟨dev.abortCmd cid ctl target outstanding, rest⟩) ∧
      (∀ (cid : Nat) (ctl : Nat), exec (.identifyController cid ctl) ⟨dev, rest⟩ = .next ⟨dev.identifyCtl cid ctl, rest⟩) ∧
      (∀ (cid : Nat) (ctl : Nat) (nsid : Nat), exec (.identifyNamespace cid ctl nsid) ⟨dev, rest⟩ = .next ⟨dev.identifyNs cid ctl nsid, rest⟩) ∧
      (∀ (cid : Nat) (ctl : Nat) (spec : NsSpec), exec (.namespaceCreate cid ctl spec) ⟨dev, rest⟩ = .next ⟨dev.createNs cid ctl spec, rest⟩) ∧
      (∀ (cid : Nat) (ctl : Nat) (nsid : Nat), exec (.namespaceDelete cid ctl nsid) ⟨dev, rest⟩ = .next ⟨dev.deleteNs cid ctl nsid, rest⟩) ∧
      (∀ (cid : Nat) (ctl : Nat) (vf : Nat) (interrupts : Bool) (n : Nat), exec (.virtualizationManagement cid ctl vf interrupts n) ⟨dev, rest⟩ = .next ⟨dev.assignResources cid ctl vf interrupts n, rest⟩) ∧
      (∀ (cid : Nat) (ctl : Nat) (program : Nat) (image : PlanImage), exec (.loadProgram cid ctl program image) ⟨dev, rest⟩ = .next ⟨dev.loadProgram cid ctl program image, rest⟩) ∧
      (∀ (cid : Nat) (ctl : Nat) (program : Nat) (on : Bool), exec (.programActivation cid ctl program on) ⟨dev, rest⟩ = .next ⟨dev.activateProgram cid ctl program on, rest⟩) ∧
      (∀ (cid : Nat) (ctl : Nat) (ranges : List MemRange), exec (.createMemoryRangeSet cid ctl ranges) ⟨dev, rest⟩ = .next ⟨dev.createSet cid ctl ranges, rest⟩) ∧
      (∀ (cid : Nat) (ctl : Nat) (program : Nat) (set : Nat) (params : List Byte), exec (.executeProgram cid ctl program set params) ⟨dev, rest⟩ = .next ⟨dev.submit ⟨cid, ctl, .execute program set params⟩, rest⟩) ∧
      (∀ (cid : Nat) (ctl : Nat) (nsid : Nat) (start : Nat) (len : Nat), exec (.memoryRead cid ctl nsid start len) ⟨dev, rest⟩ = .next ⟨dev.submit ⟨cid, ctl, .memRead nsid start len⟩, rest⟩) ∧
      (∀ (cid : Nat) (ctl : Nat) (nsid : Nat) (start : Nat) (data : List Byte), exec (.memoryWrite cid ctl nsid start data) ⟨dev, rest⟩ = .next ⟨dev.submit ⟨cid, ctl, .memWrite nsid start data⟩, rest⟩) ∧
      (∀ (cid : Nat) (ctl : Nat) (nsid : Nat) (dst : Nat) (ranges : List SrcRange), exec (.memoryCopy cid ctl nsid dst ranges) ⟨dev, rest⟩ = .next ⟨dev.submit ⟨cid, ctl, .memCopy nsid dst ranges⟩, rest⟩) ∧
      (∀ (cid : Nat) (ctl : Nat) (nsid : Nat) (ses : Nat), exec (.formatNvm cid ctl nsid ses) ⟨dev, rest⟩ = .next ⟨dev.submit ⟨cid, ctl, .format nsid ses⟩, rest⟩) ∧
      (∀ (cid : Nat) (ctl : Nat) (block : Bool), exec (.sanitize cid ctl block) ⟨dev, rest⟩ = .next ⟨dev.submit ⟨cid, ctl, .sanitize block⟩, rest⟩) ∧
      (∀ (cid : Nat) (ctl : Nat) (page : Nat) (retain : Bool), exec (.getLogPage cid ctl page retain) ⟨dev, rest⟩ = .next ⟨dev.getLogPage cid ctl page retain, rest⟩) ∧
      (∀ (addr : Nat) (n : Nat), exec (.hostWindowRead addr n) ⟨dev, rest⟩ = .next ⟨dev.windowRead addr n, rest⟩) ∧
      (∀ (addr : Nat) (data : List Byte), exec (.hostWindowWrite addr data) ⟨dev, rest⟩ = .next ⟨dev.windowWrite addr data, rest⟩) ∧
      (exec .hostWindowTimeout ⟨dev, rest⟩ = .next ⟨dev.windowTimeout, rest⟩) ∧
      (∀ (cid : Nat) (ctl : Nat), exec (.securityNonce cid ctl) ⟨dev, rest⟩ = .next ⟨dev.securityNonce cid ctl, rest⟩) ∧
      (∀ (cid : Nat) (ctl : Nat) (block : List Byte), exec (.debugUnlock cid ctl block) ⟨dev, rest⟩ = .next ⟨dev.debugUnlock cid ctl block, rest⟩) ∧
      (∀ (cid : Nat) (ctl : Nat), exec (.debugUnlockRelease cid ctl) ⟨dev, rest⟩ = .next ⟨dev.debugRelease cid ctl, rest⟩) ∧
      (∀ (cid : Nat) (ctl : Nat) (block : List Byte), exec (.ownershipRelease cid ctl block) ⟨dev, rest⟩ = .next ⟨dev.ownerRelease cid ctl block, rest⟩) ∧
      (exec .getVersion ⟨dev, rest⟩ = .next ⟨dev.getVersion, rest⟩) ∧
      (exec .getCapabilities ⟨dev, rest⟩ = .next ⟨dev.getCapabilities, rest⟩) ∧
      (exec .negotiateAlgorithms ⟨dev, rest⟩ = .next ⟨dev.negotiate, rest⟩) ∧
      (exec .getDigests ⟨dev, rest⟩ = .next ⟨dev.getDigests, rest⟩) ∧
      (∀ (slot : Nat), exec (.getCertificate slot) ⟨dev, rest⟩ = .next ⟨dev.getCertificate slot, rest⟩) ∧
      (∀ (nonce : Nat), exec (.challenge nonce) ⟨dev, rest⟩ = .next ⟨dev.challenge nonce, rest⟩) ∧
      (∀ (index : Nat), exec (.getMeasurements index) ⟨dev, rest⟩ = .next ⟨dev.getMeasurements index, rest⟩) ∧
      (∀ (session : Nat), exec (.keyExchange session) ⟨dev, rest⟩ = .next ⟨dev.keyExchange session, rest⟩) ∧
      (∀ (session : Nat), exec (.finish session) ⟨dev, rest⟩ = .next ⟨dev.finishSession session, rest⟩) ∧
      (∀ (session : Nat), exec (.endSession session) ⟨dev, rest⟩ = .next ⟨dev.endSession session, rest⟩) ∧
      (exec .identifyMemoryDevice ⟨dev, rest⟩ = .next ⟨dev.cxlIdentify, rest⟩) ∧
      (exec .getHealthInfo ⟨dev, rest⟩ = .next ⟨dev.cxlHealth, rest⟩) ∧
      (exec .getSupportedLogs ⟨dev, rest⟩ = .next ⟨dev.cxlLogs, rest⟩) ∧
      (exec .getLog ⟨dev, rest⟩ = .next ⟨dev.cxlGetLog, rest⟩) ∧
      (exec .getEventRecords ⟨dev, rest⟩ = .next ⟨dev.cxlEvents, rest⟩) ∧
      (∀ (n : Nat), exec (.clearEventRecords n) ⟨dev, rest⟩ = .next ⟨dev.cxlClear n, rest⟩) ∧
      (exec .globalPersistentFlush ⟨dev, rest⟩ = .next ⟨dev.persistentFlush, rest⟩)) ∧
    (
      (∀ (type : Nat), exec (.readNvmeMiDataStructure type) ⟨dev, rest⟩ = .next ⟨dev.miData type, rest⟩) ∧
      (exec .subsystemHealthStatusPoll ⟨dev, rest⟩ = .next ⟨dev.miHealth, rest⟩) ∧
      (∀ (ctl : Nat), exec (.controllerHealthStatusPoll ctl) ⟨dev, rest⟩ = .next ⟨dev.miController ctl, rest⟩) ∧
      (∀ (id : Nat), exec (.configurationGet id) ⟨dev, rest⟩ = .next ⟨dev.miGet id, rest⟩) ∧
      (∀ (id : Nat) (value : Nat), exec (.configurationSet id value) ⟨dev, rest⟩ = .next ⟨dev.miSet id value, rest⟩) ∧
      (∀ (mem : Machine.IdMem) (off : Nat) (n : Nat), exec (.vpdRead mem off n) ⟨dev, rest⟩ = .next ⟨dev.vpdRead mem off n, rest⟩) ∧
      (∀ (command : Tunnel), exec (.tunnelledAdminCommand command) ⟨dev, rest⟩ = .next ⟨dev.tunnelled command, rest⟩))

/-- Completion: the commands of Limuc links, flits and messages, the span directory and twins. On a module that runs (and, for a register
write, is ready), each answers a next state, that of its own operation on the module, and leaves the queue alone; a command that the module
takes without power needs no hypothesis. -/
def Obligations.LinkAndSpanCommandsComplete : Prop :=
  ∀ (dev : Mdl) (rest : List Instr),
    (dev.powered = true →
      (∀ (link : LinkNo) (bad : Nat), exec (.linkDetect link bad) ⟨dev, rest⟩ = .next ⟨dev.linkDetect link bad, rest⟩) ∧
      (∀ (link : LinkNo) (init : InitMsg) (delay : Nat), exec (.linkTrained link init delay) ⟨dev, rest⟩ = .next ⟨dev.linkTrained link init delay, rest⟩) ∧
      (∀ (link : LinkNo), exec (.linkTrainTimeout link) ⟨dev, rest⟩ = .next ⟨dev.linkTrainTimeout link, rest⟩) ∧
      (∀ (link : LinkNo) (lane : Fin 9), exec (.limucLaneRetire link lane) ⟨dev, rest⟩ = .next ⟨dev.limucLaneRetire link lane, rest⟩) ∧
      (∀ (link : LinkNo), exec (.linkReplayLimit link) ⟨dev, rest⟩ = .next ⟨dev.replayLimit link, rest⟩) ∧
      (∀ (link : LinkNo), exec (.linkRecovered link) ⟨dev, rest⟩ = .next ⟨dev.linkRecovered link, rest⟩) ∧
      (∀ (link : LinkNo), exec (.linkRecoverTimeout link) ⟨dev, rest⟩ = .next ⟨dev.recoverTimeout link, rest⟩) ∧
      (∀ (link : LinkNo), exec (.linkDisable link) ⟨dev, rest⟩ = .next ⟨dev.linkDisable link, rest⟩) ∧
      (∀ (link : LinkNo), exec (.linkAckCreditTimer link) ⟨dev, rest⟩ = .next ⟨dev.ackTimer link, rest⟩) ∧
      (∀ (link : LinkNo) (f : Flit) (t : Nat) (ns : Nat), exec (.flitReceive link f t ns) ⟨dev, rest⟩ = .next ⟨dev.flitIn link f t ns, rest⟩) ∧
      (∀ (link : LinkNo) (ack : Nat), exec (.nakReceive link ack) ⟨dev, rest⟩ = .next ⟨dev.nakReceive link ack, rest⟩) ∧
      (∀ (link : LinkNo) (t : Nat), exec (.probeSend link t) ⟨dev, rest⟩ = .next ⟨dev.probeSend link t, rest⟩) ∧
      (∀ (link : LinkNo) (m : LMsg) (t : Nat), exec (.probe link m t) ⟨dev, rest⟩ = .next ⟨dev.deliver link (typed 0x0B m) t 0, rest⟩) ∧
      (∀ (link : LinkNo) (m : LMsg), exec (.credit link m) ⟨dev, rest⟩ = .next ⟨dev.deliver link (typed 0x09 m) 0 0, rest⟩) ∧
      (∀ (link : LinkNo) (m : LMsg), exec (.read64 link m) ⟨dev, rest⟩ = .next ⟨dev.deliver link (typed 0x01 m) 0 0, rest⟩) ∧
      (∀ (link : LinkNo) (m : LMsg), exec (.write64 link m) ⟨dev, rest⟩ = .next ⟨dev.deliver link (typed 0x02 m) 0 0, rest⟩) ∧
      (∀ (link : LinkNo) (m : LMsg), exec (.cadd link m) ⟨dev, rest⟩ = .next ⟨dev.deliver link (typed 0x03 m) 0 0, rest⟩) ∧
      (∀ (link : LinkNo) (m : LMsg), exec (.bulk link m) ⟨dev, rest⟩ = .next ⟨dev.deliver link (typed 0x04 m) 0 0, rest⟩) ∧
      (∀ (link : LinkNo) (m : LMsg), exec (.act link m) ⟨dev, rest⟩ = .next ⟨dev.deliver link (typed 0x05 m) 0 0, rest⟩) ∧
      (∀ (link : LinkNo) (m : LMsg), exec (.dir link m) ⟨dev, rest⟩ = .next ⟨dev.deliver link (typed 0x07 m) 0 0, rest⟩) ∧
      (∀ (link : LinkNo) (m : LMsg), exec (.dirBcast link m) ⟨dev, rest⟩ = .next ⟨dev.deliver link (typed 0x08 m) 0 0, rest⟩) ∧
      (∀ (link : LinkNo) (m : LMsg), exec (.rdata link m) ⟨dev, rest⟩ = .next ⟨dev.answerIn link (typed 0x81 m), rest⟩) ∧
      (∀ (link : LinkNo) (m : LMsg), exec (.wack link m) ⟨dev, rest⟩ = .next ⟨dev.deliver link (typed 0x82 m) 0 0, rest⟩) ∧
      (∀ (link : LinkNo) (m : LMsg), exec (.back link m) ⟨dev, rest⟩ = .next ⟨dev.deliver link (typed 0x84 m) 0 0, rest⟩) ∧
      (∀ (link : LinkNo) (m : LMsg), exec (.aack link m) ⟨dev, rest⟩ = .next ⟨dev.deliver link (typed 0x85 m) 0 0, rest⟩) ∧
      (∀ (link : LinkNo) (m : LMsg), exec (.dirr link m) ⟨dev, rest⟩ = .next ⟨dev.deliver link (typed 0x87 m) 0 0, rest⟩) ∧
      (∀ (link : LinkNo) (m : LMsg) (ns : Nat), exec (.twack link m ns) ⟨dev, rest⟩ = .next ⟨dev.deliver link (typed 0x90 m) 0 ns, rest⟩) ∧
      (∀ (link : LinkNo) (m : LMsg), exec (.tcrsp link m) ⟨dev, rest⟩ = .next ⟨dev.deliver link (typed 0x95 m) 0 0, rest⟩) ∧
      (∀ (tag : Nat), exec (.notReadyRetry tag) ⟨dev, rest⟩ = .next ⟨(dev.notReadyRetry tag).answersGoOn, rest⟩) ∧
      (∀ (tag : Nat), exec (.spanRequestTimeout tag) ⟨dev, rest⟩ = .next ⟨(dev.requestTimeout tag).answersGoOn, rest⟩) ∧
      (∀ (link : LinkNo), exec (.flitHoldDiscard link) ⟨dev, rest⟩ = .next ⟨dev.holdDiscard link, rest⟩) ∧
      (∀ (link : LinkNo) (m : LMsg), exec (.join link m) ⟨dev, rest⟩ = .next ⟨dev.deliver link (opTyped 0x07 0x01 m) 0 0, rest⟩) ∧
      (∀ (link : LinkNo) (m : LMsg), exec (.alive link m) ⟨dev, rest⟩ = .next ⟨dev.deliver link (opTyped 0x07 0x02 m) 0 0, rest⟩) ∧
      (exec .heartbeatSend ⟨dev, rest⟩ = .next ⟨dev.heartbeat, rest⟩) ∧
      (∀ (link : LinkNo) (m : LMsg), exec (.peerState link m) ⟨dev, rest⟩ = .next ⟨dev.answerIn link (opTyped 0x08 0x03 m), rest⟩) ∧
      (∀ (module : ModuleNo), exec (.memberHeartbeatMiss module) ⟨dev, rest⟩ = .next ⟨dev.memberLost module, rest⟩) ∧
      (∀ (link : LinkNo) (m : LMsg), exec (.masterChange link m) ⟨dev, rest⟩ = .next ⟨dev.deliver link (opTyped 0x08 0x04 m) 0 0, rest⟩) ∧
      (∀ (link : LinkNo) (m : LMsg), exec (.dirSync link m) ⟨dev, rest⟩ = .next ⟨dev.deliver link (opTyped 0x07 0x05 m) 0 0, rest⟩) ∧
      (∀ (link : LinkNo) (m : LMsg), exec (.mapReq link m) ⟨dev, rest⟩ = .next ⟨dev.deliver link (opTyped 0x07 0x10 m) 0 0, rest⟩) ∧
      (∀ (link : LinkNo) (m : LMsg), exec (.partnerQuery link m) ⟨dev, rest⟩ = .next ⟨dev.deliver link (opTyped 0x07 0x11 m) 0 0, rest⟩) ∧
      (exec .masterHeartbeatMiss ⟨dev, rest⟩ = .next ⟨dev.masterMiss, rest⟩) ∧
      (∀ (link : LinkNo) (m : LMsg), exec (.twinWrite link m) ⟨dev, rest⟩ = .next ⟨dev.deliver link (typed 0x10 m) 0 0, rest⟩) ∧
      (∀ (link : LinkNo) (m : LMsg), exec (.twinOp link m) ⟨dev, rest⟩ = .next ⟨dev.deliver link (typed 0x11 m) 0 0, rest⟩) ∧
      (∀ (link : LinkNo) (m : LMsg), exec (.twinCkpt link m) ⟨dev, rest⟩ = .next ⟨dev.deliver link (typed 0x12 m) 0 0, rest⟩) ∧
      (∀ (link : LinkNo) (m : LMsg), exec (.twinCopy link m) ⟨dev, rest⟩ = .next ⟨dev.deliver link (typed 0x13 m) 0 0, rest⟩) ∧
      (∀ (link : LinkNo) (m : LMsg), exec (.twinMap link m) ⟨dev, rest⟩ = .next ⟨dev.deliver link (typed 0x14 m) 0 0, rest⟩) ∧
      (∀ (link : LinkNo) (m : LMsg), exec (.hello link m) ⟨dev, rest⟩ = .next ⟨dev.deliver link (opTyped 0x15 0x01 m) 0 0, rest⟩) ∧
      (∀ (link : LinkNo) (m : LMsg), exec (.twinDetachNotice link m) ⟨dev, rest⟩ = .next ⟨dev.deliver link (opTyped 0x15 0x02 m) 0 0, rest⟩) ∧
      (∀ (link : LinkNo) (m : LMsg), exec (.resyncDone link m) ⟨dev, rest⟩ = .next ⟨dev.deliver link (opTyped 0x15 0x03 m) 0 0, rest⟩) ∧
      (∀ (link : LinkNo) (m : LMsg), exec (.pairedNotice link m) ⟨dev, rest⟩ = .next ⟨dev.deliver link (opTyped 0x15 0x04 m) 0 0, rest⟩) ∧
      (∀ (link : LinkNo) (m : LMsg), exec (.picked link m) ⟨dev, rest⟩ = .next ⟨dev.deliver link (opTyped 0x15 0x05 m) 0 0, rest⟩) ∧
      (∀ (unit : Fin 448000) (first : Fin 122880) (n : Nat), exec (.resyncCopy unit first n) ⟨dev, rest⟩ = .next ⟨dev.resyncCopy unit first n, rest⟩) ∧
      (exec .twackTimeout ⟨dev, rest⟩ = .next ⟨dev.twackTimeout, rest⟩) ∧
      (exec .noHello ⟨dev, rest⟩ = .next ⟨dev.noHello, rest⟩)) ∧
    (dev.powered = true → 2 ≤ dev.stage →
      (exec .takeover ⟨dev, rest⟩ = .next ⟨dev.takeOver, rest⟩) ∧
      (exec .twinDetach ⟨dev, rest⟩ = .next ⟨dev.twinDetach, rest⟩) ∧
      (exec .rejoin ⟨dev, rest⟩ = .next ⟨dev.rejoin, rest⟩) ∧
      (exec .forceSolo ⟨dev, rest⟩ = .next ⟨dev.forceSolo, rest⟩) ∧
      (exec .pick ⟨dev, rest⟩ = .next ⟨dev.pick, rest⟩))

/-! ### The step -/

/-- A step runs exec on the command at the front of the queue, with the queue's rest; with no command waiting time passes: what runs on its
own in a module with power goes on, and the queue stays empty (the second is the model's choice, assumption log entry 1). -/
def Obligations.StepRunsTheCommandInFront : Prop :=
  ∀ (m : Mdl), (∀ (c : Instr) (q : List Instr), step ⟨m, c :: q⟩ = exec c ⟨m, q⟩) ∧
    (m.powered = true → step ⟨m, []⟩ = .next ⟨m.tick, []⟩) ∧ (m.powered = false → step ⟨m, []⟩ = .next ⟨m, []⟩)

/-- Every command answers a next state, whatever the module's state, and leaves the queue alone: there is no stop anywhere. -/
def Obligations.EveryCommandAnswersANextState : Prop :=
  ∀ (c : Instr) (m : Mdl) (q : List Instr), ∃ t : Mdl, exec c ⟨m, q⟩ = .next ⟨t, q⟩

/-- State.reset: no power, no command waiting, memory and the log book empty, no answers; and the reset values that field maps of the spec
give for registers of every block. The cores, clusters, catalogues, jobs, sequences and semaphores are at their initial values, none of them
at work. -/
def Obligations.ResetLeavesTheSpecsValues : Prop :=
  State.reset.powered = false ∧ State.reset.pending = [] ∧ State.reset.mem = [] ∧ State.reset.out = [] ∧ State.reset.svc.logBook = [] ∧
  State.reset.cores = [] ∧ State.reset.clusters = [] ∧ State.reset.cats = [] ∧ State.reset.sch.jobs = [] ∧ State.reset.sch.seqs = [] ∧ State.reset.sch.sems = [] ∧
  (∀ f : Fld, State.reset.reg f = f.reset) ∧
  State.reset.epoch = 0 ∧ State.reset.drive = freeRun ∧ State.reset.reg Reg.TRN_PERIOD_PERIOD = 10000000 ∧
  State.reset.reg Reg.TRN_DEFAULT_PERIOD_DEFAULT_PERIOD = 10000000 ∧ State.reset.stage = 0 ∧
  State.reset.reg Reg.SVC_HIER_FAULT_VALID = 0 ∧ State.reset.reg Reg.SVC_LOCK_LOCK = 0 ∧ State.reset.reg Reg.EPH_STATUS_ARMED = 0 ∧
  State.reset.reg Reg.CHT_STATUS_BUSY = 0 ∧ State.reset.reg Reg.TIR_CMD_STATUS_BUSY = 0 ∧ State.reset.reg Reg.CAT_CMD_STATUS_BUSY = 0 ∧
  (∀ n, State.reset.reg (Reg.SPN_LINK_STATE n) = 0) ∧ State.reset.reg Reg.TWN_STATUS_STATE = 0 ∧ State.reset.reg Reg.PWR_CAP_CAP_W = 1250

/-- A module without power keeps the whole of its state, but for the answers of its management endpoint, whatever command comes, unless it
is one of those that a module answers to without power. That a module without power does nothing is the model's choice (assumption log entry
33). -/
def Obligations.WithoutPowerNothingHappens : Prop :=
  ∀ (c : Instr) (m : Mdl) (q : List Instr), m.powered = false → wakes c = false → exec c ⟨m, q⟩ = .next ⟨m, q⟩

/-- An invariant of every step: a module that has not started, with no POWER_UP among its waiting commands, stays so, whatever those
commands are: no insertion, charge, loss of input, management command or register write starts it (Table 14-1, and assumption log entry 33).
And of all it holds, only the service state, the host's state, its answers and the index of free values can change, and of the register
fields only PWR_DOMAIN_STATUS.ON and SVC_UPTIME: not a byte of memory, nothing of the flash, the maps, the clock drive, the cores, the span
or the twin. -/
def Obligations.OnlyPowerUpStartsTheModule : Prop :=
  ∀ s s' : State, s.offForGood → step s = .next s' →
    s'.offForGood ∧ s.keepsRegs s'.toMdl [Reg.PWR_DOMAIN_STATUS_ON, Reg.SVC_UPTIME_MS] ∧
      s'.toMdl = { s.toMdl with regs := s'.regs, svc := s'.svc, host := s'.host, out := s'.out, free := s'.free }

/-- The state after reset satisfies that invariant. -/
def Obligations.ResetIsWithoutPower : Prop := State.reset.offForGood

/-- R662, Table 14-2, BAR2: until the module is ready, register writes are ignored, but those of SVC_RESET: the commands that are writes of
one register, and REGISTER_WRITE, SHADOW_BANK_WRITE and COUPLED_FIELD_WRITE of any address but SVC_RESET's. -/
def Obligations.WritesAreIgnoredUntilReady : Prop :=
  ∀ (m : Mdl) (q : List Instr), m.stage < 2 →
    (∀ c, isBusWrite c = true → exec c ⟨m, q⟩ = .next ⟨m, q⟩) ∧
    (∀ a wide v, a ≠ Reg.SVC_RESET_KEY.addr → ¬ (wide = true ∧ a + 4 = Reg.SVC_RESET_KEY.addr) →
      exec (.registerWrite a wide v) ⟨m, q⟩ = .next ⟨m, q⟩ ∧ exec (.shadowBankWrite a wide v) ⟨m, q⟩ = .next ⟨m, q⟩ ∧
      exec (.coupledFieldWrite a wide v) ⟨m, q⟩ = .next ⟨m, q⟩)

/-! ### BAR2 -/

/-- R11: an access of another width or alignment completes without effect, and a read of that kind returns all ones: BAR2_BAD_ACCESS of any
number of bytes, and register accesses of 32 and 64 bits that are not aligned. -/
def Obligations.BadWidthOrAlignmentHasNoEffect : Prop :=
  ∀ (m : Mdl) (q : List Instr), m.powered = true →
    (∀ n, exec (.bar2BadAccess n true) ⟨m, q⟩ = .next ⟨m, q⟩) ∧
    (∀ n, exec (.bar2BadAccess n false) ⟨m, q⟩ = .next ⟨{ m with out := .read (2 ^ (8 * n) - 1) n :: m.out }, q⟩) ∧
    (∀ a v, a % 4 ≠ 0 → exec (.registerWrite a false v) ⟨m, q⟩ = .next ⟨m, q⟩) ∧
    (∀ a v, a % 8 ≠ 0 → exec (.registerWrite a true v) ⟨m, q⟩ = .next ⟨m, q⟩) ∧
    (∀ a, a % 4 ≠ 0 → exec (.readClearRegisterRead a false) ⟨m, q⟩ = .next ⟨{ m with out := .read 0xFFFFFFFF 4 :: m.out }, q⟩) ∧
    (∀ a, a % 8 ≠ 0 → exec (.readClearRegisterRead a true) ⟨m, q⟩ = .next ⟨{ m with out := .read 0xFFFFFFFFFFFFFFFF 8 :: m.out }, q⟩)

/-- R6, Table 0-4: a 32-bit write of a word of plain fields (in service, not coupled, no effect of its own) changes register fields alone,
and of them only fields of that word: a read-only, read-to-clear or write-only field keeps its value, and so does a field that SVC_LOCK
locks while it is set; a read-write field takes the bits written, unless its description has the value ignored; a bit written 1 of a
write-1-to-clear field is 0 afterwards and its other bits are as before. -/
def Obligations.AccessTypesGovernPlainWrites : Prop :=
  ∀ (m : Mdl) (q : List Instr) (a v : Nat), m.powered = true → 2 ≤ m.stage → a % 4 = 0 → v < 2 ^ 32 → (∀ f ∈ fieldsAt a, f.key ≠ Reg.SVC_LOCK_LOCK.key) →
    m.deadWindow a = false → m.spareWindow a = false → coupledAt a = none → m.writeClock a v = none → m.writeBlock a v = none →
    ∃ t : Mdl, exec (.registerWrite a false v) ⟨m, q⟩ = .next ⟨t, q⟩ ∧ m.onlyRegs t (fieldsAt a) ∧
      (∀ f ∈ fieldsAt a, f.acc = .ro ∨ f.acc = .rc ∨ f.acc = .wo → t.reg f = m.reg f) ∧
      (∀ f ∈ fieldsAt a, f.acc = .rwl → m.reg Reg.SVC_LOCK_LOCK = 1 → t.reg f = m.reg f) ∧
      (∀ f ∈ fieldsAt a, f.acc = .rw ∨ f.acc = .rws → (∀ x : Mdl, x.ignored f (f.merge a (m.reg f) v) = false) →
        t.reg f = f.merge a (m.reg f) v % 2 ^ f.width) ∧
      (∀ f ∈ fieldsAt a, f.acc = .rw1c → m.reg f < 2 ^ f.width →
        t.reg f = m.reg f - Nat.land (m.reg f) (bits v (f.span a).2.2 (f.span a).2.1 * 2 ^ (f.span a).1))

/-! ### Power, start-up and the button -/

/-- SVC_LOCK_SET sets LOCK and changes nothing else. -/
def Obligations.LockIsSet : Prop :=
  ∀ (m : Mdl) (q : List Instr), m.powered = true → 2 ≤ m.stage →
    ∃ t : Mdl, exec .svcLockSet ⟨m, q⟩ = .next ⟨t, q⟩ ∧ t.reg Reg.SVC_LOCK_LOCK = 1 ∧ m.onlyRegs t [Reg.SVC_LOCK_LOCK]

/-- R668: a press released before 2 s toggles SVC_CTRL.LOCATE; one released later has no effect. -/
def Obligations.ShortPressTogglesLocate : Prop :=
  ∀ (m : Mdl) (q : List Instr) (ms : Nat), m.powered = true →
    (2000 ≤ ms → exec (.attnPressRelease ms) ⟨m, q⟩ = .next ⟨m, q⟩) ∧
    (ms < 2000 → ∃ t : Mdl, exec (.attnPressRelease ms) ⟨m, q⟩ = .next ⟨t, q⟩ ∧ m.onlyRegs t [Reg.SVC_CTRL_LOCATE] ∧
      (m.reg Reg.SVC_CTRL_LOCATE = 0 → t.reg Reg.SVC_CTRL_LOCATE = 1) ∧ (m.reg Reg.SVC_CTRL_LOCATE = 1 → t.reg Reg.SVC_CTRL_LOCATE = 0))

/-- R22, R54: an inserted module has the always-on domains 28 and 29, and nothing else, on; when the input leaves its range only domain 29
runs on, and the module has no power (R19). -/
def Obligations.InputPowerGovernsTheAlwaysOnDomains : Prop :=
  ∀ (m : Mdl) (q : List Instr),
    (m.svc.p54 = false → ∃ t : Mdl, exec .moduleInsert ⟨m, q⟩ = .next ⟨t, q⟩ ∧ t.svc.p54 = true ∧ t.svc.charged = false ∧
      t.reg Reg.PWR_DOMAIN_STATUS_ON = 0x30000000 ∧ m.keepsRegs t [Reg.PWR_DOMAIN_STATUS_ON] ∧ t.mem = m.mem ∧ t.med = m.med ∧ t.ftl = m.ftl) ∧
    (m.svc.p54 = true → ∀ used, ∃ t : Mdl, exec (.inputOutOfRange used) ⟨m, q⟩ = .next ⟨t, q⟩ ∧ t.svc.p54 = false ∧ t.powered = false ∧
      t.svc.charged = false ∧ t.reg Reg.PWR_DOMAIN_STATUS_ON = 0x20000000)

/-- R21: a measurement sets ENERGY, and LOW exactly when it falls below 16 J (the field counts 10 mJ); the power-on hours rise by the 24
hours between two measurements. Nothing but the service state and these two fields changes. -/
def Obligations.HoldupMeasurementSetsLow : Prop :=
  ∀ (m : Mdl) (q : List Instr) (energy wh : Nat), m.powered = true → energy < 2 ^ 16 →
    ∃ t : Mdl, exec (.holdupMeasure energy wh) ⟨m, q⟩ = .next ⟨t, q⟩ ∧ t.reg Reg.PWR_HOLDUP_ENERGY = energy ∧
      t.reg Reg.PWR_HOLDUP_LOW = (if energy < 1600 then 1 else 0) ∧ m.keepsRegs t [Reg.PWR_HOLDUP_ENERGY, Reg.PWR_HOLDUP_LOW] ∧
      t.svc.poh = m.svc.poh + 24 ∧ t = { m with regs := t.regs, svc := t.svc }

/-- R694: the load switch of a slot. Outside slots 0 to 8, or with no cartridge: error 2. Off with an active cartridge: error 1. Each of
these changes the error code alone. Else the switch takes the state asked for, and a parked spare that is switched off is a spare no more,
with a CARTRIDGE record. -/
def Obligations.SlotSwitchFollowsTheRole : Prop :=
  ∀ (m : Mdl) (q : List Instr) (slot : Nat), m.powered = true → 2 ≤ m.stage →
    (∀ on, 9 ≤ slot ∨ m.reg (Reg.MED_SLOT_STATUS_PRESENT slot) ≠ 1 → ∃ t : Mdl, exec (.slotPower slot on) ⟨m, q⟩ = .next ⟨t, q⟩ ∧
      t.reg Reg.PWR_DOMAIN_STATUS_SLOT_ERR = 2 ∧ m.onlyRegs t [Reg.PWR_DOMAIN_STATUS_SLOT_ERR]) ∧
    (slot < 9 → m.reg (Reg.MED_SLOT_STATUS_PRESENT slot) = 1 →
      (∃ t : Mdl, exec (.slotPower slot true) ⟨m, q⟩ = .next ⟨t, q⟩ ∧ t.reg (Reg.MED_SLOT_STATUS_POWERED slot) = 1 ∧
        t.reg Reg.PWR_DOMAIN_STATUS_SLOT_ERR = 0 ∧ m.onlyRegs t [Reg.MED_SLOT_STATUS_POWERED slot, Reg.PWR_DOMAIN_STATUS_SLOT_ERR]) ∧
      (m.reg (Reg.MED_SLOT_STATUS_ROLE slot) = 1 → ∃ t : Mdl, exec (.slotPower slot false) ⟨m, q⟩ = .next ⟨t, q⟩ ∧
        t.reg Reg.PWR_DOMAIN_STATUS_SLOT_ERR = 1 ∧ m.onlyRegs t [Reg.PWR_DOMAIN_STATUS_SLOT_ERR]) ∧
      (m.reg (Reg.MED_SLOT_STATUS_ROLE slot) ≠ 1 → ∃ t : Mdl, exec (.slotPower slot false) ⟨m, q⟩ = .next ⟨t, q⟩ ∧
        t.reg (Reg.MED_SLOT_STATUS_POWERED slot) = 0 ∧ t.reg Reg.PWR_DOMAIN_STATUS_SLOT_ERR = 0 ∧ t = { m with regs := t.regs, svc := t.svc } ∧
        m.keepsRegs t [Reg.MED_SLOT_STATUS_POWERED slot, Reg.MED_SLOT_STATUS_ROLE slot, Reg.PWR_DOMAIN_STATUS_SLOT_ERR] ∧
        (m.reg (Reg.MED_SLOT_STATUS_ROLE slot) = 2 → t.reg (Reg.MED_SLOT_STATUS_ROLE slot) = 0 ∧
          (t.svc.logBook.head?.map (·.kind)) = some 0x0A) ∧
        (m.reg (Reg.MED_SLOT_STATUS_ROLE slot) ≠ 2 → t.reg (Reg.MED_SLOT_STATUS_ROLE slot) = m.reg (Reg.MED_SLOT_STATUS_ROLE slot) ∧ t.svc = m.svc)))

/-- R704, R705: BEGIN is accepted exactly when OWNER_STATE is 0, the module is not twinned or is detached, no job exists and every catalogue
is DETACHED; RETEST and END need a refurbishment (error 2) and no RETEST under way (error 3), and a refusal changes the error code alone. A
RETEST that begins is busy, and powers the retired dies alone (R43). -/
def Obligations.RefurbishmentRunsInOrder : Prop :=
  ∀ (m : Mdl) (q : List Instr), m.powered = true → 2 ≤ m.stage →
    (m.reg Reg.SVC_REFURB_ACTIVE ≠ 1 → m.cht.opt.ownerState = 0 → m.reg Reg.TWN_STATUS_STATE = 0 ∨ m.reg Reg.TWN_STATUS_STATE = 6 →
      (∀ p ∈ m.sch.jobs, p.2 = none) → (∀ p ∈ m.cats, p.2.state = .detached) →
      ∃ t : Mdl, exec .refurbBegin ⟨m, q⟩ = .next ⟨t, q⟩ ∧ t.reg Reg.SVC_REFURB_ACTIVE = 1 ∧ t.reg Reg.SVC_REFURB_ERR = 0 ∧ t.stage = 6 ∧
        t = { m with regs := t.regs, svc := t.svc } ∧
        m.keepsRegs t [Reg.SVC_REFURB_ACTIVE, Reg.SVC_REFURB_ERR, Reg.SVC_REFURB_CLEARED, Reg.SVC_STATUS_STAGE]) ∧
    (m.reg Reg.SVC_REFURB_ACTIVE ≠ 1 → (m.cht.opt.ownerState ≠ 0 ∨ (m.reg Reg.TWN_STATUS_STATE ≠ 0 ∧ m.reg Reg.TWN_STATUS_STATE ≠ 6) ∨
        (∃ p ∈ m.sch.jobs, p.2 ≠ none) ∨ ∃ p ∈ m.cats, p.2.state ≠ .detached) →
      ∃ t : Mdl, exec .refurbBegin ⟨m, q⟩ = .next ⟨t, q⟩ ∧ t.reg Reg.SVC_REFURB_ERR = 1 ∧ m.onlyRegs t [Reg.SVC_REFURB_ERR]) ∧
    (m.reg Reg.SVC_REFURB_ACTIVE ≠ 1 → ∀ c, c = .retest ∨ c = .refurbEnd →
      ∃ t : Mdl, exec c ⟨m, q⟩ = .next ⟨t, q⟩ ∧ t.reg Reg.SVC_REFURB_ERR = 2 ∧ m.onlyRegs t [Reg.SVC_REFURB_ERR]) ∧
    (m.reg Reg.SVC_REFURB_ACTIVE = 1 → m.reg Reg.SVC_REFURB_BUSY ≠ 1 →
      ∃ t : Mdl, exec .retest ⟨m, q⟩ = .next ⟨t, q⟩ ∧ t.reg Reg.SVC_REFURB_BUSY = 1 ∧ t.reg Reg.SVC_REFURB_ERR = 0 ∧
        (∀ d, m.svc.retiredDie d = false → d < 4 → ∀ i, i < 6 → t.domainOn (6 * d + i) = m.domainOn (6 * d + i)) ∧
        ((∀ d, d < 4 → m.svc.retiredDie d = false) → t.reg Reg.PWR_DOMAIN_STATUS_ON = m.reg Reg.PWR_DOMAIN_STATUS_ON) ∧
        m.onlyRegs t [Reg.SVC_REFURB_BUSY, Reg.SVC_REFURB_ERR, Reg.PWR_DOMAIN_STATUS_ON]) ∧
    (m.reg Reg.SVC_REFURB_ACTIVE = 1 → m.reg Reg.SVC_REFURB_BUSY = 1 → ∀ c, c = .retest ∨ c = .refurbEnd ∨ c = .refurbBegin →
      ∃ t : Mdl, exec c ⟨m, q⟩ = .next ⟨t, q⟩ ∧ t.reg Reg.SVC_REFURB_ERR = 3 ∧ m.onlyRegs t [Reg.SVC_REFURB_ERR])

/-! ### Faults of the six levels and power domains -/

/-- R52: while VALID is 1 a further fault sets OVERFLOW and leaves the record, and every other register field, unchanged; it still reaches
the log page and the log book. So for the operation that records every fault, and for a failed link of the package. -/
def Obligations.FurtherFaultKeepsTheRecord : Prop :=
  ∀ m : Mdl, m.reg Reg.SVC_HIER_FAULT_VALID = 1 →
    (∀ u kind action, (m.hierRecord u kind action).reg Reg.SVC_HIER_FAULT_OVERFLOW = 1 ∧
      m.keepsRegs (m.hierRecord u kind action) [Reg.SVC_HIER_FAULT_OVERFLOW] ∧
      (m.hierRecord u kind action).svc.hierLog.head? = some ⟨u, kind, action, m.epoch, m.svc.hierTotal + 1⟩ ∧
      ((m.hierRecord u kind action).svc.logBook.head?.map fun r => (r.kind, r.data)) = some (0x05, hierWord u kind action % 2 ^ 80)) ∧
    ∀ (q : List Instr) (n : Nat), m.powered = true → ∃ t : Mdl, exec (.inPackageLinkFailure n) ⟨m, q⟩ = .next ⟨t, q⟩ ∧
      t.reg Reg.SVC_HIER_FAULT_OVERFLOW = 1 ∧ m.keepsRegs t [Reg.SVC_HIER_FAULT_OVERFLOW] ∧ t.svc.failedLinks.contains n = true

/-- R51: a fault found while VALID is 0 is written into SVC_HIER_FAULT and SVC_HIER_FAULT_EPOCH, for every unit in range. -/
def Obligations.FirstFaultIsRecorded : Prop :=
  ∀ (m : Mdl) (u : UnitAddr) (kind action : Nat), m.reg Reg.SVC_HIER_FAULT_VALID ≠ 1 → u.die < 4 → u.cluster < 26 → u.core < 9 → u.lane < 66 →
    kind < 256 → action < 256 → m.epoch < 2 ^ 48 →
    let t := m.hierRecord u kind action
    t.reg Reg.SVC_HIER_FAULT_VALID = 1 ∧ t.reg Reg.SVC_HIER_FAULT_LEVEL = u.level.code ∧ t.reg Reg.SVC_HIER_FAULT_DIE = u.die ∧
    t.reg Reg.SVC_HIER_FAULT_CLUSTER = u.cluster ∧ t.reg Reg.SVC_HIER_FAULT_CORE = u.core ∧ t.reg Reg.SVC_HIER_FAULT_LANE = u.lane ∧
    t.reg Reg.SVC_HIER_FAULT_KIND = kind ∧ t.reg Reg.SVC_HIER_FAULT_ACTION = action ∧ t.reg Reg.SVC_HIER_FAULT_EPOCH_EPOCH = m.epoch ∧
    m.keepsRegs t faultRecord ∧ t = { m with regs := t.regs, svc := t.svc, out := t.out }

/-- R45: the standby service processor takes over once: SVC_STATUS.SP reads 1, a fault of the package with KIND 0x0E is recorded, and no
cluster, core, controller or byte of memory is touched. A second takeover changes nothing. -/
def Obligations.StandbyServiceProcessorTakesOver : Prop :=
  ∀ (m : Mdl) (q : List Instr), m.powered = true →
    (m.reg Reg.SVC_STATUS_SP = 1 → exec .serviceProcessorTakeover ⟨m, q⟩ = .next ⟨m, q⟩) ∧
    (m.reg Reg.SVC_STATUS_SP ≠ 1 → m.reg Reg.SVC_HIER_FAULT_VALID ≠ 1 → ∃ t : Mdl, exec .serviceProcessorTakeover ⟨m, q⟩ = .next ⟨t, q⟩ ∧
      t.reg Reg.SVC_STATUS_SP = 1 ∧ t.reg Reg.SVC_HIER_FAULT_VALID = 1 ∧ t.reg Reg.SVC_HIER_FAULT_LEVEL = 4 ∧
      t.reg Reg.SVC_HIER_FAULT_KIND = 0x0E ∧ m.keepsRegs t (Reg.SVC_STATUS_SP :: faultRecord) ∧
      t = { m with regs := t.regs, svc := t.svc, out := t.out })

/-- A fault of a unit that has been retired already is recorded with ACTION 0 (Table 1-12) and does nothing else: a lane, a core, a cluster,
a die, and the die of an HBM stack; a lane that still waits to be bypassed ends what has a pass in its row besides (R211). -/
def Obligations.FaultOfARetiredUnitIsOnlyRecorded : Prop :=
  ∀ (m : Mdl) (q : List Instr) (d : Fin 4) (c : Fin 26) (k : Fin 9) (l : Fin 66) (kind : Nat), m.powered = true →
    (m.svc.retiredLane d c k l = true → (m.core d c k).waiting.contains l.val = false →
      exec (.laneDatapathFault d c k l kind) ⟨m, q⟩ = .next ⟨m.hierRecord ⟨.engine, d, c, k, l⟩ kind 0, q⟩) ∧
    (m.svc.retiredLane d c k l = true → (m.core d c k).waiting.contains l.val = true → m.packageDown = false →
      exec (.laneDatapathFault d c k l kind) ⟨m, q⟩ = .next ⟨(m.hierRecord ⟨.engine, d, c, k, l⟩ kind 0).endOnCore d c k, q⟩) ∧
    (m.svc.retiredCore d c k = true → exec (.coreClusterFault d c (some k) kind) ⟨m, q⟩ = .next ⟨m.hierRecord ⟨.core, d, c, k, 0⟩ kind 0, q⟩) ∧
    (m.svc.retiredCluster d c = true → exec (.coreClusterFault d c none kind) ⟨m, q⟩ = .next ⟨m.hierRecord ⟨.cluster, d, c, 0, 0⟩ kind 0, q⟩) ∧
    (m.svc.retiredDie d = true → exec (.dieFault d kind) ⟨m, q⟩ = .next ⟨m.hierRecord ⟨.die, d, 0, 0, 0⟩ kind 0, q⟩) ∧
    (∀ stack : Fin 8, m.svc.retiredDie (stack / 2) = true →
      exec (.hbmStackFailure stack) ⟨m, q⟩ = .next ⟨m.hierRecord ⟨.die, stack / 2, 0, 0, 0⟩ 0x09 0, q⟩)

/-- R687, R718: a request for a domain that cannot be switched is refused with error 5, and one for a domain whose switching is under way
with error 6; a refusal changes the error code alone. A request that is accepted makes the domain busy, and asks nothing of a domain in the
state asked for. -/
def Obligations.BusyDomainRefusesARequest : Prop :=
  ∀ (m : Mdl) (q : List Instr) (n : Nat) (on : Bool), m.powered = true → 2 ≤ m.stage →
    ∃ t : Mdl, exec (.domainReq n on) ⟨m, q⟩ = .next ⟨t, q⟩ ∧ m.keepsRegs t [Reg.PWR_DOMAIN_STATUS_ERR] ∧
      (30 ≤ n ∨ n = 24 ∨ n = 25 ∨ n = 28 ∨ n = 29 ∨ (on = true ∧ n < 24 ∧ m.svc.retiredDie (n / 6) = true) →
        t.reg Reg.PWR_DOMAIN_STATUS_ERR = 5 ∧ t = { m with regs := t.regs }) ∧
      (n < 24 ∨ n = 26 ∨ n = 27 → ¬ (on = true ∧ n < 24 ∧ m.svc.retiredDie (n / 6) = true) → (∃ b ∈ m.svc.busy, b.1 = n) →
        t.reg Reg.PWR_DOMAIN_STATUS_ERR = 6 ∧ t = { m with regs := t.regs }) ∧
      (m.domainErr n on = 0 → m.domainOn n ≠ on →
        t.reg Reg.PWR_DOMAIN_STATUS_ERR = 0 ∧ t = { m with regs := t.regs, svc := { m.svc with busy := m.svc.busy ++ [(n, on)] } }) ∧
      (m.domainErr n on = 0 → m.domainOn n = on → t.reg Reg.PWR_DOMAIN_STATUS_ERR = 0 ∧ t = { m with regs := t.regs })

/-! ### The clock drive and the Ephemeris -/

/-- R90: EPOCH_SET. With the in-band source, or for a value not greater than the current epoch number, it sets EPOCH_REFUSED and numbers
nothing. Else the value numbers the epoch that begins at the next boundary, and EPOCH_STEP is set when it is more than one greater. -/
def Obligations.EpochSetNumbersTheNextEpoch : Prop :=
  ∀ (m : Mdl) (q : List Instr) (v : BitVec 48), m.powered = true → 2 ≤ m.stage →
    ∃ t : Mdl, exec (.epochSet v) ⟨m, q⟩ = .next ⟨t, q⟩ ∧ t = { m with regs := t.regs, trn := t.trn, svc := t.svc } ∧ t.epoch = m.epoch ∧
      (m.reg Reg.TRN_STATUS_SOURCE_USED = 2 ∨ v.toNat ≤ m.epoch →
        t.reg Reg.TRN_STATUS_EPOCH_REFUSED = 1 ∧ m.keepsRegs t [Reg.TRN_STATUS_EPOCH_REFUSED] ∧ t.trn = m.trn) ∧
      (m.reg Reg.TRN_STATUS_SOURCE_USED ≠ 2 → m.epoch < v.toNat →
        (∀ τ, (t.driveBoundary τ).epoch = v.toNat) ∧ t.trn = { m.trn with nextNumber := some v.toNat } ∧ m.keepsRegs t [Reg.TRN_STATUS_EPOCH_STEP] ∧
        t.reg Reg.TRN_STATUS_EPOCH_STEP = if m.epoch + 1 < v.toNat then 1 else m.reg Reg.TRN_STATUS_EPOCH_STEP)

/-- R89 and Table 2-12: a period below 250,000 ns or above 100,000,000 ns is ignored and sets PERIOD_REFUSED, in either register and with
any source, but for the 0 in TRN_NEXT_PERIOD that announces nothing; a period in range is stored, in FREE_RUN as the tracked period too
(Table 2-3). With the in-band source TRN_NEXT_PERIOD takes no other write. Nothing else changes. -/
def Obligations.PeriodOutOfRangeIsRefused : Prop :=
  ∀ (m : Mdl) (q : List Instr) (v : BitVec 32), m.powered = true → 2 ≤ m.stage →
    ((v.toNat < 250000 ∨ 100000000 < v.toNat) → ∀ next, (next = true → v.toNat ≠ 0) →
      ∃ t : Mdl, exec (.periodWrite next v) ⟨m, q⟩ = .next ⟨t, q⟩ ∧ t.reg Reg.TRN_STATUS_PERIOD_REFUSED = 1 ∧
        m.onlyRegs t [Reg.TRN_STATUS_PERIOD_REFUSED]) ∧
    (250000 ≤ v.toNat → v.toNat ≤ 100000000 → ∃ t : Mdl, exec (.periodWrite false v) ⟨m, q⟩ = .next ⟨t, q⟩ ∧
      t.reg Reg.TRN_DEFAULT_PERIOD_DEFAULT_PERIOD = v.toNat ∧ m.keepsRegs t [Reg.TRN_DEFAULT_PERIOD_DEFAULT_PERIOD] ∧
      t = { m with regs := t.regs, trn := if m.drive = freeRun then { m.trn with tracked := v.toNat } else m.trn }) ∧
    (m.reg Reg.TRN_STATUS_SOURCE_USED ≠ 2 → v.toNat = 0 ∨ (250000 ≤ v.toNat ∧ v.toNat ≤ 100000000) →
      ∃ t : Mdl, exec (.periodWrite true v) ⟨m, q⟩ = .next ⟨t, q⟩ ∧ t.reg Reg.TRN_NEXT_PERIOD_NEXT_PERIOD = v.toNat ∧
        m.onlyRegs t [Reg.TRN_NEXT_PERIOD_NEXT_PERIOD]) ∧
    (m.reg Reg.TRN_STATUS_SOURCE_USED = 2 → v.toNat = 0 ∨ (250000 ≤ v.toNat ∧ v.toNat ≤ 100000000) →
      exec (.periodWrite true v) ⟨m, q⟩ = .next ⟨m, q⟩)

/-- R67, R66, R86: what a boundary does to the clock drive, for the operation that EPOCH_BOUNDARY runs first. The epoch number takes the
number set for it, or rises by one, in 48 bits; a period announced for that epoch becomes the tracked period and its announcement is
cleared; the phase starts at 0. -/
def Obligations.BoundaryNumbersTheEpoch : Prop :=
  ∀ (m : Mdl) (τ : Nat),
    let t := m.driveBoundary τ
    t.epoch = (match m.trn.nextNumber with | some n => n | none => m.epoch + 1) % 2 ^ 48 ∧
    t.trn.start = τ ∧ t.trn.nextNumber = none ∧ t.reg Reg.TRN_PHASE_PHASE = 0 ∧
    (m.reg Reg.TRN_NEXT_PERIOD_NEXT_PERIOD ≠ 0 → t.epoch = m.reg Reg.TRN_NEXT_EPOCH_NEXT_EPOCH →
      t.trn.tracked = m.reg Reg.TRN_NEXT_PERIOD_NEXT_PERIOD ∧ t.reg Reg.TRN_NEXT_PERIOD_NEXT_PERIOD = 0 ∧ t.drive = m.drive) ∧
    (m.trn.nextNumber = none → m.epoch + 1 < 2 ^ 48 → t.epoch = m.epoch + 1) ∧
    m.keepsRegs t [Reg.TRN_EPOCH_EPOCH, Reg.TRN_NEXT_PERIOD_NEXT_PERIOD, Reg.TRN_PERIOD_PERIOD, Reg.TRN_PHASE_PHASE, Reg.TRN_STATUS_HOLDOVER_EPOCHS] ∧
    t = { m with regs := t.regs, trn := t.trn }

/-- R70: the input filter rejects every pulse shorter than 50 ns: nothing changes, but that from 5 ms on the pin is the source of a module
that has no other (R68). A pulse of 100 ns or more changes nothing else when it is not the edge that marks, or when the pin is not the
source in use. -/
def Obligations.ShortPulseIsRejected : Prop :=
  ∀ (m : Mdl) (q : List Instr) (t w : Nat) (rising : Bool), m.powered = true →
    let s := m.sourceTime t
    m.onlyRegs s [Reg.TRN_STATUS_SOURCE_USED] ∧ (m.reg Reg.TRN_STATUS_SOURCE_USED ≠ 3 → s = m) ∧
    (w < 50 → exec (.transitEdge t rising w) ⟨m, q⟩ = .next ⟨s, q⟩) ∧
    (100 ≤ w → s.reg Reg.TRN_STATUS_SOURCE_USED ≠ 1 ∨ (rising = true ↔ m.reg Reg.TRN_CTRL_EDGE = 1) →
      exec (.transitEdge t rising w) ⟨m, q⟩ = .next ⟨s, q⟩)

/-- Table 2-3: LOCKED with no accepted edge in the epoch goes to HOLDOVER, at the tracked period, with LOST_LOCK; HOLDOVER that has lasted
64 epochs goes to FREE_RUN at TRN_DEFAULT_PERIOD (R83); the eighth accepted edge in ACQUIRE without lock sets ACQ_TIMEOUT and starts the
count of edges again. In any other state each of the three changes nothing (the model's choice for events whose condition does not hold,
assumption log entry 39). -/
def Obligations.HoldoverAndTimeoutsFollowTheClockTable : Prop :=
  ∀ (m : Mdl) (q : List Instr), m.powered = true →
    (m.drive = locked → m.trn.accepted = false → ∃ t : Mdl, exec .holdoverEntry ⟨m, q⟩ = .next ⟨t, q⟩ ∧ t.drive = holdover ∧
      t.reg Reg.TRN_STATUS_LOST_LOCK = 1 ∧ t.reg Reg.TRN_STATUS_HOLDOVER_EPOCHS = 1 ∧ t.reg Reg.TRN_PERIOD_PERIOD = m.trn.tracked % 2 ^ 32 ∧ t.trn = m.trn ∧
      m.keepsRegs t [Reg.TRN_STATUS_LOST_LOCK, Reg.TRN_STATUS_STATE, Reg.TRN_STATUS_HOLDOVER_EPOCHS, Reg.TRN_PERIOD_PERIOD]) ∧
    (m.drive ≠ locked ∨ m.trn.accepted = true → exec .holdoverEntry ⟨m, q⟩ = .next ⟨m, q⟩) ∧
    (m.drive = holdover → 64 ≤ m.reg Reg.TRN_STATUS_HOLDOVER_EPOCHS → ∃ t : Mdl, exec .holdoverExpiry ⟨m, q⟩ = .next ⟨t, q⟩ ∧ t.drive = freeRun ∧
      t.trn.tracked = m.reg Reg.TRN_DEFAULT_PERIOD_DEFAULT_PERIOD ∧ t.reg Reg.TRN_PERIOD_PERIOD = m.reg Reg.TRN_DEFAULT_PERIOD_DEFAULT_PERIOD % 2 ^ 32 ∧
      m.keepsRegs t [Reg.TRN_STATUS_STATE, Reg.TRN_PERIOD_PERIOD]) ∧
    (m.drive ≠ holdover ∨ m.reg Reg.TRN_STATUS_HOLDOVER_EPOCHS < 64 → exec .holdoverExpiry ⟨m, q⟩ = .next ⟨m, q⟩) ∧
    (m.drive = acquire → 8 ≤ m.trn.edges → ∃ t : Mdl, exec .acqTimeout ⟨m, q⟩ = .next ⟨t, q⟩ ∧ t.reg Reg.TRN_STATUS_ACQ_TIMEOUT = 1 ∧ t.trn.edges = 0 ∧
      m.keepsRegs t [Reg.TRN_STATUS_ACQ_TIMEOUT]) ∧
    (m.drive ≠ acquire ∨ m.trn.edges < 8 → exec .acqTimeout ⟨m, q⟩ = .next ⟨m, q⟩)

/-- R106: while a swap is armed, writes of either width to the shadow bank, to SHADOW_LEN and to SWAP_EPOCH are ignored, and each sets
WRITE_WHILE_ARMED: nothing else changes. DISARM ends the protection, and leaves both banks unchanged (R110). -/
def Obligations.ArmedSwapIsProtected : Prop :=
  ∀ (m : Mdl) (q : List Instr), m.powered = true → 2 ≤ m.stage →
    (m.reg Reg.EPH_STATUS_ARMED = 1 → ∀ a wide v, a % (if wide then 8 else 4) = 0 →
      (0x16000 ≤ a ∧ a < 0x18000) ∨ a / 8 * 8 = Reg.EPH_SWAP_EPOCH_SWAP_EPOCH.addr ∨ a = Reg.EPH_CYCLE_SHADOW_LEN.addr →
      ∃ t : Mdl, exec (.shadowBankWrite a wide v) ⟨m, q⟩ = .next ⟨t, q⟩ ∧ t.reg Reg.EPH_STATUS_WRITE_WHILE_ARMED = 1 ∧
        m.onlyRegs t [Reg.EPH_STATUS_WRITE_WHILE_ARMED]) ∧
    ∃ t : Mdl, exec .disarm ⟨m, q⟩ = .next ⟨t, q⟩ ∧ t.reg Reg.EPH_STATUS_ARMED = 0 ∧ m.onlyRegs t [Reg.EPH_STATUS_ARMED] ∧
      ∀ a v, 0x16000 ≤ a → a < 0x18000 → a % 4 = 0 → exec (.shadowBankWrite a false v) ⟨t, q⟩ =
        .next ⟨{ t with eph := t.eph.setBank (1 - t.activeBank) (Table.set 0 t.shadowTable ((a - 0x16000) / 8)
          (Table.get 0 t.shadowTable ((a - 0x16000) / 8) - bits (Table.get 0 t.shadowTable ((a - 0x16000) / 8)) (8 * (a % 8)) 32 * 2 ^ (8 * (a % 8))
            + v % 2 ^ 32 * 2 ^ (8 * (a % 8)))) }, q⟩

/-- R107: ARM while a swap is armed gives ARM_ERR 0x5 and leaves the armed swap as it is. Else the checks of Table 2-18 are made in their
order, 0x1 to 0x3, and a failure leaves the swap unarmed; only an ARM that ends with ARM_ERR 0 arms. Nothing but fields of EPH_STATUS
changes. -/
def Obligations.ArmChecksInOrder : Prop :=
  ∀ (m : Mdl) (q : List Instr), m.powered = true → 2 ≤ m.stage →
    (m.reg Reg.EPH_STATUS_ARMED = 1 → ∃ t : Mdl, exec .arm ⟨m, q⟩ = .next ⟨t, q⟩ ∧ t.reg Reg.EPH_STATUS_ARM_ERR = 5 ∧ m.onlyRegs t [Reg.EPH_STATUS_ARM_ERR]) ∧
    (m.reg Reg.EPH_STATUS_ARMED ≠ 1 → ∃ t : Mdl, exec .arm ⟨m, q⟩ = .next ⟨t, q⟩ ∧
      let len := m.reg Reg.EPH_CYCLE_SHADOW_LEN
      let bad := Eph.firstBad len 0 (Eph.entries m.shadowTable)
      let swap := m.reg Reg.EPH_SWAP_EPOCH_SWAP_EPOCH
      t = { m with regs := t.regs } ∧
      (∀ i, bad = some i → i < 1024 → t.reg Reg.EPH_STATUS_ARM_ERR = 1 ∧ t.reg Reg.EPH_STATUS_BAD_ENTRY = i) ∧
      (bad = none → len < 1 ∨ 64 < len → t.reg Reg.EPH_STATUS_ARM_ERR = 2) ∧
      (bad = none → 1 ≤ len → len ≤ 64 → swap ≠ 0 → swap ≤ m.epoch → t.reg Reg.EPH_STATUS_ARM_ERR = 3) ∧
      (t.reg Reg.EPH_STATUS_ARM_ERR ≠ 0 → t.reg Reg.EPH_STATUS_ARMED = m.reg Reg.EPH_STATUS_ARMED) ∧
      (t.reg Reg.EPH_STATUS_ARM_ERR = 0 → t.reg Reg.EPH_STATUS_ARMED = 1))

/-! ### Chart banks -/


/-- R149: while a command runs, a new command is refused with error 0x0C and the running one continues: the erase, program, verification,
partial load and option commands, and a full load while an erase, a program or another full load runs. Only the fields that report a
command's end change. -/
def Obligations.RunningChartCommandRefusesOthers : Prop :=
  ∀ (m : Mdl) (q : List Instr), m.powered = true → 2 ≤ m.stage → m.reg Reg.CHT_STATUS_BUSY = 1 →
    (∀ c, (∃ b, c = .eraseBank b) ∨ (∃ b d, c = .programBank b d) ∨ (∃ b, c = .verifyBank b) ∨ (∃ d k, c = .loadPartial d k) ∨ (∃ r a, c = .setOption r a) ∨
        ((m.cht.op ≠ none ∨ m.cht.next ≠ none ∨ m.cht.nextBuiltin = true) ∧ ∃ b, c = .loadFull b) →
      ∃ t : Mdl, exec c ⟨m, q⟩ = .next ⟨t, q⟩ ∧ t.reg Reg.CHT_STATUS_ERR = 0x0C ∧ t.reg Reg.CHT_STATUS_BUSY = 1 ∧ t.reg Reg.CHT_STATUS_DONE = 1 ∧
        m.onlyRegs t chartEndFields)

/-- R712: an ERASE_BANK of a bank that no load holds sets its state to 1 when it begins and to 0 when it completes, the bank then empty and
no command running. A failure of the configuration flash ends it with error 0x0E and state 1. -/
def Obligations.EraseBankRunsAndCompletes : Prop :=
  ∀ (m : Mdl) (q : List Instr) (b : Fin 2), m.powered = true → 2 ≤ m.stage → m.reg Reg.CHT_STATUS_BUSY ≠ 1 → m.bankHeld b = false →
    let st := if b = 0 then Reg.CHT_BANK_STATE_STATE_A else Reg.CHT_BANK_STATE_STATE_B
    ∃ t u f : Mdl, exec (.eraseBank b) ⟨m, q⟩ = .next ⟨t, q⟩ ∧ exec (.eraseBankDone false) ⟨t, q⟩ = .next ⟨u, q⟩ ∧
      exec (.eraseBankDone true) ⟨t, q⟩ = .next ⟨f, q⟩ ∧
      t.reg st = 1 ∧ t.reg Reg.CHT_STATUS_BUSY = 1 ∧ t.reg Reg.CHT_STATUS_STAGE = 5 ∧ t.cht = { m.cht with op := some (.erase b 0) } ∧
      m.keepsRegs t [st, Reg.CHT_STATUS_BUSY, Reg.CHT_STATUS_STAGE] ∧
      u.reg st = 0 ∧ u.reg Reg.CHT_STATUS_BUSY = 0 ∧ u.reg Reg.CHT_STATUS_ERR = 0 ∧ u.cht.bank b = .init ∧ u.cht.op = none ∧
      u.reg Reg.CHT_NEXT_OFFSET_OFFSET = 0 ∧ u.cht.bank (1 - b) = m.cht.bank (1 - b) ∧
      f.reg st = 1 ∧ f.reg Reg.CHT_STATUS_BUSY = 0 ∧ f.reg Reg.CHT_STATUS_ERR = 0x0E ∧ f.cht.op = none ∧
      t = { m with regs := t.regs, cht := t.cht } ∧ u = { m with regs := u.regs, cht := u.cht } ∧ f = { m with regs := f.regs, cht := f.cht }

/-- R134: ERASE_BANK and PROGRAM_BANK of the bank in force, or of one a load reads (while it is verified, and until its chart is in force),
are refused with error 0x0C. -/
def Obligations.HeldBankIsNotErasedOrProgrammed : Prop :=
  ∀ (m : Mdl) (q : List Instr) (b : Fin 2), m.powered = true → 2 ≤ m.stage →
    (m.cht.chart ≠ none ∧ m.reg Reg.CHT_STATUS_IN_FORCE_BANK = b) ∨ (∃ c, m.cht.next = some (c, b.val)) ∨
      (m.reg Reg.CHT_STATUS_BUSY = 1 ∧ m.cht.op = some (.verify b true)) →
    ∀ c, c = .eraseBank b ∨ (∃ d, c = .programBank b d) → ∃ t : Mdl, exec c ⟨m, q⟩ = .next ⟨t, q⟩ ∧ t.reg Reg.CHT_STATUS_ERR = 0x0C ∧
      m.onlyRegs t chartEndFields

/-- R712, R144: a verification sets its bank's state to 2 or 3 when it ends: that of VERIFY_BANK, and that of a full load. VERIFY_BANK and
LOAD_FULL begin one, with the stage 1 and no bank's state changed; its end, the next moment of the chart engine, sets the state, and the
other bank's stays. A bank that a broken erase or program left fails: state 3, and error 1. -/
def Obligations.VerificationSetsTheBankState : Prop :=
  ∀ (m : Mdl) (q : List Instr) (b : Fin 2) (load : Bool), m.powered = true → 2 ≤ m.stage → m.reg Reg.CHT_STATUS_BUSY ≠ 1 → m.cht.op = none → m.cht.next = none →
    m.cht.nextBuiltin = false →
    let st := fun n : Fin 2 => if n = 0 then Reg.CHT_BANK_STATE_STATE_A else Reg.CHT_BANK_STATE_STATE_B
    ∃ t : Mdl, exec (if load then .loadFull b else .verifyBank b) ⟨m, q⟩ = .next ⟨t, q⟩ ∧ t.cht = { m.cht with op := some (.verify b load) } ∧
      t.reg Reg.CHT_STATUS_BUSY = 1 ∧ t.reg Reg.CHT_STATUS_STAGE = 1 ∧ m.onlyRegs { t with cht := m.cht } [Reg.CHT_STATUS_BUSY, Reg.CHT_STATUS_STAGE] ∧
      (load = false → (t.chartTick.reg (st b) = 2 ∧ t.chartTick.reg Reg.CHT_STATUS_ERR = 0 ∨ t.chartTick.reg (st b) = 3) ∧
        t.chartTick.reg (st (1 - b)) = m.reg (st (1 - b)) ∧ t.chartTick.cht.op = none) ∧
      ((m.cht.bank b).broken = true → t.chartTick.reg (st b) = 3 ∧ t.chartTick.reg Reg.CHT_STATUS_ERR = 1 ∧ t.chartTick.reg (st (1 - b)) = m.reg (st (1 - b)) ∧
        t.chartTick.cht = m.cht)

/-! ### Rows, lanes and core storage -/

/-- R191, R194, R226: the weight port writes a slot for the next generation of operands of the tag that uses the slot, of those in the row
or the one to come, only once the slot is released for it, and in ascending order within a lane; until then the row only advances by the
cycles that pass, and the partition takes the bytes that arrive. Then the slot takes the 32 bytes that stand at the offset in the partition
(6-bit elements widened to one byte each), and its scale bytes; what it held stays for the beats that have passed it. Every other slot, and
everything outside the core, stays. -/
def Obligations.WeightSlotIsWrittenOncePerPass : Prop :=
  ∀ (m : Mdl) (q : List Instr) (d : Die) (c : Cluster) (k : CoreNo) (lane : Lane) (slot : Fin 128) (tag : Bool) (src : WeightSource) (off : Nat) (fmt : Fin 16)
    (adv : Nat) (arrived : List Arrival), m.powered = true →
    let s := (m.rowAdvance d c k adv).staged d c k (weightUse src) arrived
    let x := s.core d c k
    let old := (x.slot lane slot).now
    let fits := fun g => old.gen < g ∧ bit g 0 = tag ∧ (g = x.gen + 1 ∨ ∃ r ∈ x.passes, r.gen = g ∧ r.dummy = false ∧ slot.val < r.pass.slots)
    let key := lane.val * 128 + slot.val
    let f := (Fmt.ofCode fmt.val).getD .none
    let byte := fun i => s.partByte d c k (weightUse src) (off + i)
    ((∀ g, fits g → x.gen + 1 < g) → exec (.weightSlotWrite d c k lane slot tag src off fmt adv arrived) ⟨m, q⟩ = .next ⟨s, q⟩) ∧
    ∀ g, fits g → g ≤ x.gen + 1 → (∀ h, fits h → g ≤ h) →
    (x.released g lane slot = false ∨ (∃ n, slot.val ≤ n ∧ n < 128 ∧ (x.slot lane n).now.gen = g) →
      exec (.weightSlotWrite d c k lane slot tag src off fmt adv arrived) ⟨m, q⟩ = .next ⟨s, q⟩) ∧
    (x.released g lane slot = true → (∀ n, slot.val ≤ n → n < 128 → (x.slot lane n).now.gen ≠ g) →
      ∃ t : Mdl, exec (.weightSlotWrite d c k lane slot tag src off fmt adv arrived) ⟨m, q⟩ = .next ⟨t, q⟩ ∧
        ((t.core d c k).slot lane slot).now.gen = g ∧
        ((∃ r ∈ x.passes, r.gen = old.gen ∧ r.over = false) → old ∈ ((t.core d c k).slot lane slot).old) ∧
        leBytes 32 ((t.core d c k).slot lane slot).now.data.toNat = ((List.range 32).map fun i => if f.width = 6 then BitVec.ofNat 8 (f.raw byte 0 i) else byte i) ∧
        ((t.core d c k).slot lane slot).now.scale0 = (if src = .staging ∧ f.isMx = true then (byte 32).toNat else 127) ∧
        (∀ n, n ≠ key → Table.get WSlot.init (t.core d c k).slots n = Table.get WSlot.init x.slots n) ∧
        t.core d c k = { x with slots := (t.core d c k).slots } ∧
        t = { s with cores := t.cores } ∧ ∀ n, n ≠ coreKey d c k → Table.get CoreSt.init t.cores n = Table.get CoreSt.init s.cores n)

/-- R207: which bank a FIRST_K pass gets, a compare-exchange pass apart, which needs none (Table 4-3). A narrow one takes a free bank, its
own first; with both banks in ACCUM it does not enter and the row reports an overflow; else it waits for a drain. A wide one needs both: it
takes them when both are free, overflows when either is in ACCUM, and else waits for a drain. -/
def Obligations.FirstPassNeedsAFreeBank : Prop :=
  ∀ (x : CoreSt) (p : Pass), (p.mode.val = 1 → x.entry p = .take p.bank.val) ∧ (p.mode.val ≠ 1 → p.firstK = true →
    (p.wide = false → (x.bank p.bank.val).state = .free → x.entry p = .take p.bank.val) ∧
    (p.wide = false → (x.bank p.bank.val).state ≠ .free → (x.bank (1 - p.bank.val)).state = .free → x.entry p = .take (1 - p.bank.val)) ∧
    (p.wide = false → x.bank0.state = .accum → x.bank1.state = .accum → x.entry p = .overflow) ∧
    (p.wide = false → x.bank0.state ≠ .free → x.bank1.state ≠ .free → x.bank0.state = .drain ∨ x.bank1.state = .drain → x.entry p = .drain) ∧
    (p.wide = true → x.bank0.state = .free → x.bank1.state = .free → x.entry p = .take 0) ∧
    (p.wide = true → x.bank0.state = .accum ∨ x.bank1.state = .accum → x.entry p = .overflow) ∧
    (p.wide = true → x.bank0.state = .drain ∨ x.bank1.state = .drain → x.bank0.state ≠ .accum → x.bank1.state ≠ .accum → x.entry p = .drain))

/-- R208, R209, Table 4-10: the drain reads the rows of a bank in DRAIN in ascending order, each only once the drain alignment count of 68 +
S advancing cycles after the row's last LAST_K beat has passed and every lane has written it, and only while the drain-output partition has
room; the bank is FREE after its last row. Until then, and with no pass that drains into the bank, only the cycles that pass advance the
row. A wide pass has one row band over both banks. -/
def Obligations.DrainReadsRowsInOrder : Prop :=
  ∀ (m : Mdl) (q : List Instr) (d : Die) (c : Cluster) (k : CoreNo) (bank : Fin 2) (adv : Nat), m.powered = true →
    let s := m.rowAdvance d c k adv
    let x := s.core d c k
    let n := if x.wide then 0 else bank.val
    let b := x.bank n
    let run := x.passes.find? fun r => r.pass.lastK && !r.dummy && r.bank == n && r.pass.mode.val != 1
    (b.state ≠ .drain ∨ run = none → exec (.drainReadRow d c k bank adv) ⟨m, q⟩ = .next ⟨s, q⟩) ∧
    ∀ r, run = some r → b.state = .drain →
      let bytes := x.drained.foldl (fun n w => n + w.bytes) (outBytes r.pass.mode.val (Macro.of r.entry.desc) b.lanes)
      (x.cycle < r.start + (b.next + 1) * r.pass.chunks - 1 + (68 + s.reg (Reg.SEQ_CORE_STATUS_SPARE_IN_USE d c k)) →
        1 ≤ (b.next + 1) * r.pass.chunks → exec (.drainReadRow d c k bank adv) ⟨m, q⟩ = .next ⟨s, q⟩) ∧
      (r.start + (b.next + 1) * r.pass.chunks + 67 + s.reg (Reg.SEQ_CORE_STATUS_SPARE_IN_USE d c k) ≤ x.cycle →
        (∀ l, l < b.lanes → b.next < Table.get 0 r.done l) → x.outUsed + bytes ≤ partBytes (s.coreParts d c k) 3 →
        ∃ t : Mdl, exec (.drainReadRow d c k bank adv) ⟨m, q⟩ = .next ⟨t, q⟩ ∧
          ((t.core d c k).drained.map (·.row)) = x.drained.map (·.row) ++ [b.next] ∧
          (b.next + 1 < b.rows → (t.core d c k).bank n = { b with next := b.next + 1 }) ∧
          (b.rows ≤ b.next + 1 → ((t.core d c k).bank n).state = .free) ∧
          (x.wide = false → (t.core d c k).bank (1 - n) = x.bank (1 - n)) ∧
          (x.wide = true → b.rows ≤ b.next + 1 → (t.core d c k).bank1.state = .free ∧ (t.core d c k).wide = false) ∧
          (t.core d c k).acc = x.acc ∧ (t.core d c k).slots = x.slots ∧ (t.core d c k).plates = x.plates ∧
          s.keepsRegs t [Reg.SEQ_CORE_STATUS_BANK0 d c k, Reg.SEQ_CORE_STATUS_BANK1 d c k] ∧ t = { s with regs := t.regs, cores := t.cores })

/-- R214: a corrected error of core storage is counted in SEQ_CORE_ECC, in the field of its storage, which stops at its greatest value;
nothing else changes. -/
def Obligations.CorrectedCoreErrorsSaturate : Prop :=
  ∀ (m : Mdl) (q : List Instr) (d : Die) (c : Cluster) (k : CoreNo) (x : CoreStorage), m.powered = true →
    let f := match x with
      | .plates => Reg.SEQ_CORE_ECC_PLATES_CORR d c k
      | .weight => Reg.SEQ_CORE_ECC_WREG_CORR d c k
      | .accumulator => Reg.SEQ_CORE_ECC_ACC_CORR d c k
    ∃ t : Mdl, exec (.coreEccCorrected d c k x) ⟨m, q⟩ = .next ⟨t, q⟩ ∧ t.reg f = min (m.reg f + 1) 65535 ∧ m.onlyRegs t [f]

/-- R193, R196, R199, R200: a freeze ends, and the row runs again with no freeze cause, only when every lane that holds a beat is busy and
no beat due would meet a slot with the old tag; before that FREEZE_END changes nothing. -/
def Obligations.FreezeEndsWhenTheLanesAreBusy : Prop :=
  ∀ (m : Mdl) (q : List Instr) (d : Die) (c : Cluster) (k : CoreNo), m.powered = true →
    ((m.core d c k).frozen = 0 ∨ (m.core d c k).dummy ≠ (m.core d c k).holding ∨ (m.core d c k).stale (m.lanePlaces d c k) = true →
      exec (.freezeEnd d c k) ⟨m, q⟩ = .next ⟨m, q⟩) ∧
    ((m.core d c k).frozen ≠ 0 → (m.core d c k).dummy = (m.core d c k).holding → (m.core d c k).stale (m.lanePlaces d c k) = false →
      ∃ t : Mdl, exec (.freezeEnd d c k) ⟨m, q⟩ = .next ⟨t, q⟩ ∧
      t.core d c k = { m.core d c k with frozen := 0, dummy := 0, holding := 0, fallen := 0 } ∧ t.reg (Reg.SEQ_CORE_STATUS_STATE d c k) = 1 ∧
      t.reg (Reg.SEQ_CORE_STATUS_FREEZE_CAUSE d c k) = 0 ∧ m.keepsRegs t [Reg.SEQ_CORE_STATUS_STATE d c k, Reg.SEQ_CORE_STATUS_FREEZE_CAUSE d c k] ∧
      t = { m with regs := t.regs, cores := t.cores })

/-! ### Macro-operations, the Eyepiece and near-memory adds -/

/-- R279, R280, R282: a write of HALT without EYE_EN or without a debug unlock is ignored and sets REFUSED; with both, HALT takes the value
written. A read of EYE_DATA while the cluster is not halted returns all ones and sets REFUSED. (Of a cluster in service: R62, R63.) -/
def Obligations.EyepieceNeedsEnableAndUnlock : Prop :=
  ∀ (m : Mdl) (q : List Instr) (d : Die) (c : Cluster), m.powered = true → 2 ≤ m.stage →
    m.deadWindow (Reg.EYE_CTRL_HALT d c).addr = false → m.spareWindow (Reg.EYE_CTRL_HALT d c).addr = false →
    (m.reg (Reg.EYE_STATUS_ENABLED d c) ≠ 1 ∨ m.reg Reg.SVC_STATUS_DEBUG ≠ 1 → ∀ x, x = .eyeHalt d c ∨ x = .eyeResume d c →
      ∃ t : Mdl, exec x ⟨m, q⟩ = .next ⟨t, q⟩ ∧ t.reg (Reg.EYE_STATUS_REFUSED d c) = 1 ∧ m.onlyRegs t [Reg.EYE_STATUS_REFUSED d c]) ∧
    (m.reg (Reg.EYE_STATUS_ENABLED d c) = 1 → m.reg Reg.SVC_STATUS_DEBUG = 1 →
      (∃ t : Mdl, exec (.eyeHalt d c) ⟨m, q⟩ = .next ⟨t, q⟩ ∧ t.reg (Reg.EYE_CTRL_HALT d c) = 1 ∧ m.onlyRegs t [Reg.EYE_CTRL_HALT d c]) ∧
      (∃ t : Mdl, exec (.eyeResume d c) ⟨m, q⟩ = .next ⟨t, q⟩ ∧ t.reg (Reg.EYE_CTRL_HALT d c) = 0 ∧ t.reg (Reg.EYE_STATUS_HALTED d c) = 0 ∧
        t = { m with regs := t.regs })) ∧
    (m.reg (Reg.EYE_STATUS_HALTED d c) ≠ 1 ∨ m.reg (Reg.EYE_STATUS_ENABLED d c) ≠ 1 ∨ m.reg Reg.SVC_STATUS_DEBUG ≠ 1 → ∀ lane, m.eyeRead d c lane = (2 ^ 32 - 1, m.setReg (Reg.EYE_STATUS_REFUSED d c) 1))

/-- R320: a compensated add to a pair in an HBM page computes the sum and the error of R320, writes them to the pair's 8 bytes, and leaves
every other byte of device memory alone. -/
def Obligations.CompensatedAddWritesOnePair : Prop :=
  ∀ (m : Mdl) (q : List Instr) (acct : Account) (addr : Nat) (v : BitVec 32), m.powered = true → addr + 8 ≤ 2 ^ 47 →
    (∀ p ∈ pagesOf addr 8, (m.page acct p).state = .hbm) →
    let r := compensatedAdd (f32Of (m.memNat acct addr 4)) (f32Of (m.memNat acct (addr + 4) 4)) v
    ∃ t : Mdl, exec (.compensatedAdd acct addr v) ⟨m, q⟩ = .next ⟨t, q⟩ ∧
      t.memNat acct addr 4 = r.1.toNat ∧ t.memNat acct (addr + 4) 4 = r.2.toNat ∧
      (∀ k, k < memKey acct addr ∨ memKey acct addr + 8 ≤ k → t.mem.read k = m.mem.read k)

/-! ### Device memory, page tiers -/

/-- R325: a byte of an account's range reads as last written, and a write leaves every byte outside its range alone, of this and of every
other account: for the operation through which every command writes device memory. -/
def Obligations.MemoryReadsWhatWasWritten : Prop :=
  ∀ (m : Mdl) (acct addr : Nat) (l : List Byte), addr + l.length ≤ 2 ^ 47 →
    (m.memWrite acct addr l).memRead acct addr l.length = l ∧
    (∀ b a, a < 2 ^ 47 → b ≠ acct ∨ a < addr ∨ addr + l.length ≤ a → (m.memWrite acct addr l).mem.read (memKey b a) = m.mem.read (memKey b a)) ∧
    (m.mem.wf = true → (m.memWrite acct addr l).mem.wf = true) ∧ (m.memWrite acct addr l).regs = m.regs

/-- R350, Table 7-4: each of the six tier commands, while one is running, is refused with error 5, the running one untouched; with a
misaligned address, account 0xFFFF or an address from 2^47 on it ends at once with error 4 and no page done; with a COUNT of 0 it completes
without access. -/
def Obligations.TierCommandChecksItsArguments : Prop :=
  ∀ (m : Mdl) (q : List Instr) (tier : Fin 4) (home : Die) (acct : Account), m.powered = true → 2 ≤ m.stage →
    let addr := m.reg Reg.TIR_CMD_ADDR_ADDR
    let count := m.reg Reg.TIR_CMD_ARG_COUNT
    let ends := [Reg.TIR_CMD_STATUS_BUSY, Reg.TIR_CMD_STATUS_DONE, Reg.TIR_CMD_STATUS_ERR, Reg.TIR_CMD_STATUS_PAGES_DONE]
    ∀ c, c = .map tier home acct ∨ c = .unmap tier home acct ∨ c = .pin tier home acct ∨ c = .unpin tier home acct ∨ c = .move tier home acct ∨
        c = .setHome tier home acct →
      ∃ t : Mdl, exec c ⟨m, q⟩ = .next ⟨t, q⟩ ∧
        (m.reg Reg.TIR_CMD_STATUS_BUSY = 1 → t.reg Reg.TIR_CMD_STATUS_ERR = 5 ∧ m.onlyRegs t [Reg.TIR_CMD_STATUS_ERR]) ∧
        (m.reg Reg.TIR_CMD_STATUS_BUSY ≠ 1 → acct.val = 0xFFFF ∨ addr % pageBytes ≠ 0 ∨ 2 ^ 47 ≤ addr →
          t.reg Reg.TIR_CMD_STATUS_ERR = 4 ∧ t.reg Reg.TIR_CMD_STATUS_PAGES_DONE = 0 ∧ t.reg Reg.TIR_CMD_STATUS_DONE = 1 ∧ m.keepsRegs t ends ∧
          t.tir.map = m.tir.map ∧ t.mem = m.mem) ∧
        (m.reg Reg.TIR_CMD_STATUS_BUSY ≠ 1 → acct.val ≠ 0xFFFF → addr % pageBytes = 0 → addr < 2 ^ 47 → count = 0 → tier.val ≤ 2 →
          t.reg Reg.TIR_CMD_STATUS_ERR = 0 ∧ t.reg Reg.TIR_CMD_STATUS_PAGES_DONE = 0 ∧ t.reg Reg.TIR_CMD_STATUS_DONE = 1 ∧
          t.reg Reg.TIR_CMD_STATUS_BUSY = 0 ∧ m.keepsRegs t ends ∧ t.tir.map = m.tir.map ∧ t.mem = m.mem)

/-! ### Sequences, jobs and semaphores -/

/-- R400, R376 and Table 8-9: CANCEL marks an entry and does nothing else, and one of a FREE or LEAVING entry is ignored; RESUME clears a
group's failure count and runs a halted group again, or, where the group is closing, lets it go on closing. -/
def Obligations.CancelMarksAndResumeRuns : Prop :=
  ∀ (m : Mdl) (q : List Instr), m.powered = true → 2 ≤ m.stage →
    (∀ i : Fin 16384, ((m.seq i).state = .free ∨ (m.seq i).state = .leaving → exec (.cancel i) ⟨m, q⟩ = .next ⟨m, q⟩) ∧
      ((m.seq i).state ≠ .free → (m.seq i).state ≠ .leaving → ∃ t : Mdl, exec (.cancel i) ⟨m, q⟩ = .next ⟨t, q⟩ ∧
        t.seq i = { m.seq i with cancel := true } ∧ (∀ j, j ≠ i.val → t.seq j = m.seq j) ∧ t = { m with sch := { m.sch with seqs := t.sch.seqs } })) ∧
    ∀ g : GroupNo, ∃ t : Mdl, exec (.resume g) ⟨m, q⟩ = .next ⟨t, q⟩ ∧ t.reg (Reg.SQT_GRP_STATUS_FAILS g) = 0 ∧
      t.reg (Reg.SQT_GRP_STATUS_STATE g) = (if m.reg (Reg.SQT_GRP_STATUS_STATE g) = 2 then (if m.closing g then 3 else 1) else m.reg (Reg.SQT_GRP_STATUS_STATE g)) ∧
      m.onlyRegs t [Reg.SQT_GRP_STATUS_FAILS g, Reg.SQT_GRP_STATUS_STATE g]

/-- R415 to R417: a job that acquires a semaphore nobody owns owns it; one that acquires a semaphore of another job waits behind the earlier
waiters; an acquire by the owner, and a release by another job, end the macro-operation with Compute Program Fault (code 0x21). A release by
the owner gives the semaphore to the first waiter, or to nobody. A core that waits for an acquire retires no instruction: it neither
acquires nor releases. -/
def Obligations.SemaphoresGrantInRequestOrder : Prop :=
  ∀ (m : Mdl) (q : List Instr) (d : Die) (c : Cluster) (k : CoreNo) (n : Fin 1024) (j : Nat), m.powered = true → (m.cluster d c).job = some j →
    (m.coreWaits d c k = true → exec (.semAcquire d c k n) ⟨m, q⟩ = .next ⟨m, q⟩ ∧ exec (.semRelease d c k n) ⟨m, q⟩ = .next ⟨m, q⟩) ∧
    (m.coreWaits d c k = false →
      ((m.sem n).owner = none → ∃ t : Mdl, exec (.semAcquire d c k n) ⟨m, q⟩ = .next ⟨t, q⟩ ∧ t.sem n = ⟨some j, (m.sem n).waiters⟩ ∧
        t.reg (Reg.SCH_SEM_HELD n) = 1 ∧ (∀ i, i ≠ n.val → t.sem i = m.sem i) ∧
        m.keepsRegs t [Reg.SCH_SEM_HELD n, Reg.SCH_SEM_WAITERS n, Reg.SCH_SEM_OWNER n] ∧
        t = { m with regs := t.regs, sch := { m.sch with sems := t.sch.sems } }) ∧
      (∀ o, (m.sem n).owner = some o → o ≠ j →
        ∃ t : Mdl, exec (.semAcquire d c k n) ⟨m, q⟩ = .next ⟨t, q⟩ ∧ t.sem n = ⟨some o, (m.sem n).waiters ++ [⟨j, coreKey d c k⟩]⟩ ∧
          t.reg (Reg.SCH_SEM_WAITERS n) = 1 ∧ (∀ i, i ≠ n.val → t.sem i = m.sem i) ∧ t = { m with regs := t.regs, sch := { m.sch with sems := t.sch.sems } }) ∧
      ((m.sem n).owner = some j → exec (.semAcquire d c k n) ⟨m, q⟩ = .next ⟨m.faultGlue d c .computeProgramFault 0x21, q⟩) ∧
      ((m.sem n).owner ≠ some j → exec (.semRelease d c k n) ⟨m, q⟩ = .next ⟨m.faultGlue d c .computeProgramFault 0x21, q⟩) ∧
      ((m.sem n).owner = some j → ∃ t : Mdl, exec (.semRelease d c k n) ⟨m, q⟩ = .next ⟨t, q⟩ ∧
        t.sem n = (match (m.sem n).waiters with
          | [] => ⟨none, []⟩
          | w :: rest => ⟨some w.job, rest⟩) ∧ ∀ i, i ≠ n.val → t.sem i = m.sem i))

/-- R408: engine time of a cluster is charged to the account of its job: the balance falls by 256 and SCH_ACCT_TIME rises by 256 a
microsecond. Other accounts keep theirs, and a cluster without a job charges nobody. -/
def Obligations.EngineTimeIsCharged : Prop :=
  ∀ (m : Mdl) (q : List Instr) (d : Die) (c : Cluster) (us : Nat), m.powered = true →
    ((m.cluster d c).job = none → exec (.engineTimeCharge d c us) ⟨m, q⟩ = .next ⟨m, q⟩) ∧
    (∀ j x, (m.cluster d c).job = some j → m.job j = some x → ∃ t : Mdl, exec (.engineTimeCharge d c us) ⟨m, q⟩ = .next ⟨t, q⟩ ∧
      t.balance x.acct = m.balance x.acct - 256 * us ∧ Table.get 0 t.sch.times x.acct = (Table.get 0 m.sch.times x.acct + 256 * us) % 2 ^ 64 ∧
      t.job j = some { x with charged := x.charged + us } ∧
      (∀ a, a ≠ x.acct → t.balance a = m.balance a ∧ Table.get 0 t.sch.times a = Table.get 0 m.sch.times a) ∧
      (∀ i, i ≠ j → t.job i = m.job i) ∧ t.mem = m.mem ∧ t.cores = m.cores ∧ t.clusters = m.clusters)

/-! ### Catalogues -/

/-- Table 9-16: each of the five catalogue commands, while one is running, is refused with error 0x0D; nothing but the error code changes.
-/
def Obligations.BusyCatalogueEngineRefuses : Prop :=
  ∀ (m : Mdl) (q : List Instr) (n : CatNo) (acct : Account), m.powered = true → 2 ≤ m.stage → m.reg Reg.CAT_CMD_STATUS_BUSY = 1 →
    ∀ c, c = .attach n acct ∨ c = .stage n acct ∨ c = .unstage n acct ∨ c = .detach n acct ∨ c = .delete n acct →
      ∃ t : Mdl, exec c ⟨m, q⟩ = .next ⟨t, q⟩ ∧ t.reg Reg.CAT_CMD_STATUS_ERR = 0x0D ∧ m.onlyRegs t [Reg.CAT_CMD_STATUS_ERR]

/-! ### Flash, scrubs, HBM and the journal -/

/-- R503, R504: START of an idle context with a range inside its kind's bounds clears its summary and runs it, or, with a COUNT of 0,
completes at once; one of a busy context, or with a range out of bounds, is refused and starts nothing. STOP of a busy context ends it with
STOPPED and DONE. A scrub that runs, or is stopped, is work of its target in the cycle (R105). -/
def Obligations.ScrubStartsAndStops : Prop :=
  ∀ (m : Mdl) (q : List Instr) (n : Fin 4) (kind : Fin 2), m.powered = true → 2 ≤ m.stage →
    let last := m.reg (Reg.SCB_START_FIRST n) + m.reg (Reg.SCB_COUNT_COUNT n)
    let limit := if kind = 0 then 524288 else 23552 * m.logDies.length
    let word := [Reg.SCB_CMD_OP n, Reg.SCB_CMD_KIND n]
    (m.reg (Reg.SCB_STATUS_BUSY n) ≠ 1 → last ≤ limit → ∃ t : Mdl, exec (.scrubStart n kind) ⟨m, q⟩ = .next ⟨t, q⟩ ∧
      t.reg (Reg.SCB_STATUS_ERR n) = 0 ∧ t.reg (Reg.SCB_STATUS_BUSY n) = (if m.reg (Reg.SCB_COUNT_COUNT n) = 0 then 0 else 1) ∧
      t.reg (Reg.SCB_STATUS_DONE n) = (if m.reg (Reg.SCB_COUNT_COUNT n) = 0 then 1 else 0) ∧ t.reg (Reg.SCB_SUM0_CLEAN n) = 0 ∧
      t.reg (Reg.SCB_SUM1_CORRECTED n) = 0 ∧ t.reg (Reg.SCB_SUM1_UNCORR n) = 0 ∧ t.reg (Reg.SCB_SUM0_MAX_BITS n) = 0 ∧
      t.reg (Reg.SCB_SUM2_EPOCHS n) = 0 ∧ t.reg (Reg.SCB_SUM2_SKIPPED n) = 0 ∧
      (m.reg (Reg.SCB_COUNT_COUNT n) ≠ 0 → t.eph.wanted.contains (4, t.scrubTarget n) = true) ∧
      t = { m with regs := t.regs, med := { m.med with scrubs := t.med.scrubs }, eph := { m.eph with wanted := t.eph.wanted } }) ∧
    (m.reg (Reg.SCB_STATUS_BUSY n) = 1 ∨ limit < last → ∃ t : Mdl, exec (.scrubStart n kind) ⟨m, q⟩ = .next ⟨t, q⟩ ∧
      t.reg (Reg.SCB_STATUS_ERR n) = (if m.reg (Reg.SCB_STATUS_BUSY n) = 1 then 2 else 1) ∧ m.onlyRegs t (Reg.SCB_STATUS_ERR n :: word)) ∧
    (m.reg (Reg.SCB_STATUS_BUSY n) = 1 → ∃ t : Mdl, exec (.scrubStop n) ⟨m, q⟩ = .next ⟨t, q⟩ ∧ t.reg (Reg.SCB_STATUS_BUSY n) = 0 ∧
      t.reg (Reg.SCB_STATUS_STOPPED n) = 1 ∧ t.reg (Reg.SCB_STATUS_DONE n) = 1 ∧
      m.keepsRegs t [Reg.SCB_CMD_OP n, Reg.SCB_STATUS_BUSY n, Reg.SCB_STATUS_STOPPED n, Reg.SCB_STATUS_DONE n] ∧
      t = { m with regs := t.regs, eph := { m.eph with wanted := t.eph.wanted } })

/-- R474: a read of a row that the write buffer still holds changes nothing. R479, Table 10-4: any other read of an IDLE die, or of another
block of a die whose erase is suspended, is direct, where the die-block has not failed (R478): a host or Coudé read then joins the queue of
its channel (R364), any other changes nothing. A background read is made in the GC window of its slot alone (R100); within it, one of a die
that programs or erases waits at the die, behind those that wait already, and changes nothing else; outside it, it only counts as work that
waits for its window (R105). R493: a corrected error of HBM below the threshold is counted for its stack and its unit, and changes nothing
else. -/
def Obligations.FlashReadMeetsItsDie : Prop :=
  ∀ (m : Mdl) (q : List Instr) (slot : Slot) (die : Fin 128) (block : Fin 8448) (row : Fin 512) (cws : Nat) (o : Origin), m.powered = true →
    let r : DieRead := ⟨⟨slot, die, block⟩, row, cws, o⟩
    let held := m.rowBuffered r.blk row = true
    let good := m.rowBuffered r.blk row = false ∧ (m.blk r.blk).failed = false
    let ready := good ∧ (m.die slot die = .idle ∨ ∃ b, m.die slot die = .suspended b none ∧ b ≠ block.val)
    (held → o ≠ .background ∨ m.windowOpen 3 slot = true → exec (.flashRead slot die block row cws o) ⟨m, q⟩ = .next ⟨m, q⟩) ∧
    (o = .background → m.windowOpen 3 slot = false → ∃ t : Mdl, exec (.flashRead slot die block row cws o) ⟨m, q⟩ = .next ⟨t, q⟩ ∧
      t.eph.wanted.contains (3, slot.val) = true ∧ t = { m with eph := { m.eph with wanted := t.eph.wanted } }) ∧
    (ready → o = .foreground ∨ (o = .background ∧ m.windowOpen 3 slot = true) → exec (.flashRead slot die block row cws o) ⟨m, q⟩ = .next ⟨m, q⟩) ∧
    (ready → o = .host ∨ o = .coude → ∃ t : Mdl, exec (.flashRead slot die block row cws o) ⟨m, q⟩ = .next ⟨t, q⟩ ∧
      (Table.get .init t.med.channels r.blk.chan).queue = (Table.get .init m.med.channels r.blk.chan).queue ++ [r] ∧
      (∀ n, n ≠ r.blk.chan → Table.get .init t.med.channels n = Table.get .init m.med.channels n) ∧
      t = { m with med := { m.med with channels := t.med.channels } }) ∧
    (o = .background → m.windowOpen 3 slot = true → good →
      (∃ b n, m.die slot die = .programming b n) ∨ (∃ b, m.die slot die = .erasing b) ∨ (∃ x, m.die slot die = .suspended block.val x) →
      exec (.flashRead slot die block row cws o) ⟨m, q⟩ = .next ⟨{ m with med := { m.med with waiting := m.med.waiting ++ [r] } }, q⟩) ∧
    ∀ u : HbmUnit, m.med.errorsOf u + 1 < m.reg Reg.MED_HBM_RETIRE_THRESHOLD → ∃ t : Mdl, exec (.hbmCorrectable u) ⟨m, q⟩ = .next ⟨t, q⟩ ∧
      t.med.errorsOf u = m.med.errorsOf u + 1 ∧ m.keepsRegs t [Reg.MED_HBM_CORRECTED u.stack] ∧ t.med.hbmRetired = m.med.hbmRetired ∧
      t = { m with regs := t.regs, med := { m.med with hbmErrors := t.med.hbmErrors } }

/-- R98, R556: a journal block takes up to 255 records, the oldest of the buffer, and each block is programmed on two active cartridges that
have a program window open for it: two sectors programmed. With nothing to write, or fewer than two such cartridges, nothing but the phase
reached changes. -/
def Obligations.JournalBlockTakesTheOldestRecords : Prop :=
  ∀ (m : Mdl) (q : List Instr) (phase : Fin 65536), m.powered = true →
    let s := m.atPhase phase
    (s.ftl.buffer = [] ∨ s.programSlots.length < 2 → exec (.journalBlockWrite phase) ⟨m, q⟩ = .next ⟨s, q⟩) ∧
    (s.ftl.buffer ≠ [] → 2 ≤ s.programSlots.length → ∃ t : Mdl, exec (.journalBlockWrite phase) ⟨m, q⟩ = .next ⟨t, q⟩ ∧
      t.ftl.buffer = m.ftl.buffer.take (m.ftl.buffer.length - 255) ∧ t.ftl = { m.ftl with buffer := t.ftl.buffer } ∧
      t.reg Reg.FTL_PROGRAMMED_SECTORS = (m.reg Reg.FTL_PROGRAMMED_SECTORS + 2) % 2 ^ Reg.FTL_PROGRAMMED_SECTORS.width ∧
      m.keepsRegs t [Reg.FTL_PROGRAMMED_SECTORS, Reg.TRN_PHASE_PHASE] ∧ t = { m with regs := t.regs, ftl := t.ftl })

/-! ### The host interface -/

/-- R570, R583: a controller that is not enabled, not ready, shut down or in fatal state takes no command: nothing changes. One that takes
commands completes Flush with Success, and an Abort beyond the 16 outstanding with Abort Command Limit Exceeded; an Abort of a command that
is neither waiting nor a job completes with Dword 0 bit 0 set. -/
def Obligations.OnlyReadyControllersTakeCommands : Prop :=
  ∀ (m : Mdl) (q : List Instr) (cid ctl : Nat), m.powered = true →
    (m.ctlOk ctl = false → ∀ c, (∃ n l k, c = .nvmeRead cid ctl n l k) ∨ (∃ n l d, c = .nvmeWrite cid ctl n l d) ∨ (∃ n l k, c = .writeZeroes cid ctl n l k) ∨
        c = .flush cid ctl ∨ (∃ a b, c = .abort cid ctl a b) ∨ c = .identifyController cid ctl ∨ (∃ n, c = .identifyNamespace cid ctl n) ∨
        (∃ p s a, c = .executeProgram cid ctl p s a) ∨ (∃ n b k, c = .memoryRead cid ctl n b k) ∨ (∃ n b d, c = .memoryWrite cid ctl n b d) ∨
        (∃ b, c = .sanitize cid ctl b) ∨ (∃ p r, c = .getLogPage cid ctl p r) ∨ c = .securityNonce cid ctl ∨ (∃ b, c = .debugUnlock cid ctl b) →
      exec c ⟨m, q⟩ = .next ⟨m, q⟩) ∧
    (m.ctlOk ctl = true →
      exec (.flush cid ctl) ⟨m, q⟩ = .next ⟨{ m with out := .completion cid ctl .success 0 0 0 :: m.out }, q⟩ ∧
      (∀ target n, 16 ≤ n → exec (.abort cid ctl target n) ⟨m, q⟩ = .next ⟨{ m with out := .completion cid ctl .abortLimitExceeded 0 0 0 :: m.out }, q⟩) ∧
      (∀ target n, n < 16 → m.fetchedAt target ctl = none → (∀ p ∈ m.jobList, p.2.cid ≠ some (target, ctl)) →
        exec (.abort cid ctl target n) ⟨m, q⟩ = .next ⟨{ m with out := .completion cid ctl .success 0 1 0 :: m.out }, q⟩))

/-- R607 and R609, and the order of an SPDM connection: GET_VERSION starts it afresh; a request that comes before the connection has got to
it is answered with an error and changes nothing else; FINISH and END_SESSION need the session they name. A mailbox command of the CXL
device answers in personality 2 and is silent in another. (The response codes are PRESUMED, assumption log entry 29.) -/
def Obligations.SessionsRunInTheirOrder : Prop :=
  ∀ (m : Mdl) (q : List Instr), m.powered = true →
    (∃ t : Mdl, exec .getVersion ⟨m, q⟩ = .next ⟨t, q⟩ ∧ t.host = { m.host with spdm := .version, session := none, handshake := none } ∧
      t = { m with host := t.host, out := .answer 0x04 [0x13] :: m.out }) ∧
    (m.host.spdm ≠ .negotiated → ∀ c, c = .getDigests ∨ (∃ n, c = .getCertificate n) ∨ (∃ n, c = .challenge n) ∨ (∃ n, c = .keyExchange n) →
      exec c ⟨m, q⟩ = .next ⟨{ m with out := .answer 0x7F [4] :: m.out }, q⟩) ∧
    (∀ id, m.host.handshake ≠ some id → exec (.finish id) ⟨m, q⟩ = .next ⟨{ m with out := .answer 0x7F [4] :: m.out }, q⟩) ∧
    (∀ id, m.host.session = some id → exec (.endSession id) ⟨m, q⟩ =
      .next ⟨{ m with host := { m.host with session := none }, out := .answer 0x6C [id] :: m.out }, q⟩) ∧
    (m.personality ≠ 2 → ∀ c, c = .identifyMemoryDevice ∨ c = .getHealthInfo ∨ c = .getSupportedLogs ∨ c = .getLog ∨ c = .getEventRecords ∨
      (∃ n, c = .clearEventRecords n) ∨ c = .globalPersistentFlush → exec c ⟨m, q⟩ = .next ⟨m, q⟩) ∧
    (m.personality = 2 → ∀ n, exec (.clearEventRecords n) ⟨m, q⟩ =
      .next ⟨{ m with host := { m.host with cxlEvents := m.host.cxlEvents.drop n }, out := .answer 0x0101 [] :: m.out }, q⟩)

/-! ### The span and twins -/

/-- R615, Table 13-2: a link that is not ACTIVE takes nothing: flits, messages, probes and acknowledgements on it change nothing, for every
message type. Training that times out returns a link in TRAIN to DETECT, and nothing else changes. -/
def Obligations.OnlyActiveLinksCarryMessages : Prop :=
  ∀ (m : Mdl) (q : List Instr) (n : LinkNo), m.powered = true →
    (m.reg (Reg.SPN_LINK_STATE n) ≠ 3 →
      (∀ c, (∃ f t ns, c = .flitReceive n f t ns) ∨ (∃ a, c = .nakReceive n a) ∨ (∃ t, c = .probeSend n t) ∨ c = .linkAckCreditTimer n ∨
        (∃ s x t, c = .transitMessage n s x t) ∨ (∃ x t, c = .probe n x t) ∨ (∃ x ns, c = .twack n x ns) → exec c ⟨m, q⟩ = .next ⟨m, q⟩) ∧
      (∀ x : LMsg, ∀ c, c = .credit n x ∨ c = .read64 n x ∨ c = .write64 n x ∨ c = .cadd n x ∨ c = .bulk n x ∨ c = .act n x ∨ c = .dir n x ∨ c = .dirBcast n x ∨
        c = .rdata n x ∨ c = .wack n x ∨ c = .back n x ∨ c = .aack n x ∨ c = .dirr n x ∨ c = .tcrsp n x ∨ c = .join n x ∨ c = .alive n x ∨
        c = .peerState n x ∨ c = .masterChange n x ∨ c = .dirSync n x ∨ c = .mapReq n x ∨ c = .partnerQuery n x ∨ c = .twinWrite n x ∨ c = .twinOp n x ∨
        c = .twinCkpt n x ∨ c = .twinCopy n x ∨ c = .twinMap n x ∨ c = .hello n x ∨ c = .twinDetachNotice n x ∨ c = .resyncDone n x ∨ c = .pairedNotice n x ∨
        c = .picked n x → exec c ⟨m, q⟩ = .next ⟨m, q⟩)) ∧
    (m.reg (Reg.SPN_LINK_STATE n) = 2 → ∃ t : Mdl, exec (.linkTrainTimeout n) ⟨m, q⟩ = .next ⟨t, q⟩ ∧ t.reg (Reg.SPN_LINK_STATE n) = 1 ∧
      m.onlyRegs t [Reg.SPN_LINK_STATE n])

/-- R644: TAKEOVER on a module that is not the standby does nothing; on the standby it raises TERM by one and makes the module span master.
-/
def Obligations.StandbyTakesTheSpanOver : Prop :=
  ∀ (m : Mdl) (q : List Instr), m.powered = true → 2 ≤ m.stage →
    (m.reg Reg.SPN_STATUS_ROLE_NOW ≠ 3 → exec .takeover ⟨m, q⟩ = .next ⟨m, q⟩) ∧
    (m.reg Reg.SPN_STATUS_ROLE_NOW = 3 → ∃ t : Mdl, exec .takeover ⟨m, q⟩ = .next ⟨t, q⟩ ∧ t.reg Reg.SPN_STATUS_ROLE_NOW = 2 ∧
      t.reg Reg.SPN_STATUS_TERM = (m.reg Reg.SPN_STATUS_TERM + 1) % 2 ^ 16 ∧ t.reg Reg.SPN_STATUS_MASTER = m.myModule % 2 ^ 12 ∧ t.reg Reg.SPN_STATUS_STATE = 2 ∧
      t.epoch = m.epoch ∧ t.mem = m.mem ∧ t.ftl = m.ftl ∧ t.twn = m.twn ∧ t.cores = m.cores)

/-- Tables 13-11 and 13-24: a twin command is refused while one runs (nothing changes), with error 3 on a module whose chart does not twin
it, and with error 1 in a state that has no row for it: DETACH outside PAIRED, REJOIN outside DETACHED, FORCE_SOLO outside SEEKING and HELD,
PICK outside SPLIT. -/
def Obligations.TwinCommandsFollowTheTwinTable : Prop :=
  ∀ (m : Mdl) (q : List Instr), m.powered = true → 2 ≤ m.stage →
    let ends := [Reg.TWN_CMD_STATUS_BUSY, Reg.TWN_CMD_STATUS_DONE, Reg.TWN_CMD_STATUS_ERR]
    let refused := fun (c : Instr) (e : Nat) => ∃ t : Mdl, exec c ⟨m, q⟩ = .next ⟨t, q⟩ ∧ t.reg Reg.TWN_CMD_STATUS_ERR = e ∧ t.reg Reg.TWN_CMD_STATUS_DONE = 1 ∧ m.onlyRegs t ends
    (m.reg Reg.TWN_CMD_STATUS_BUSY = 1 → ∀ c, c = .twinDetach ∨ c = .rejoin ∨ c = .forceSolo ∨ c = .pick → exec c ⟨m, q⟩ = .next ⟨m, q⟩) ∧
    (m.reg Reg.TWN_CMD_STATUS_BUSY ≠ 1 → m.spanCfg.twin = false → ∀ c, c = .twinDetach ∨ c = .rejoin ∨ c = .forceSolo ∨ c = .pick → refused c 3) ∧
    (m.reg Reg.TWN_CMD_STATUS_BUSY ≠ 1 → m.spanCfg.twin = true →
      (m.reg Reg.TWN_STATUS_STATE ≠ 4 → refused .twinDetach 1) ∧ (m.reg Reg.TWN_STATUS_STATE ≠ 6 → refused .rejoin 1) ∧
      (m.reg Reg.TWN_STATUS_STATE ≠ 1 → m.reg Reg.TWN_STATUS_STATE ≠ 2 → refused .forceSolo 1) ∧ (m.reg Reg.TWN_STATUS_STATE ≠ 7 → refused .pick 1))
end

