-- ==== Sys2Proof/Laws/Table.lean ====
section
/-! SUPPORT. Sparse tables: what every table reads as after a write, and the canonical form that writes keep. -/
namespace Sys2Proof.Machine

/-! ### Reads after writes, of any table -/

theorem Table.get_drop_same {β : Type} (d : β) (k : Nat) : ∀ t : Table β, Table.get d (Table.drop k t) k = d
  | [] => rfl
  | (a, x) :: t => by
    have ih := Table.get_drop_same d k t
    simp only [Table.drop, List.filter_cons, bne_iff_ne, ne_eq] at ih ⊢
    split
    · rename_i h
      have h' : ¬ k = a := fun e => h e.symm
      simpa [Table.get, h'] using ih
    · exact ih

theorem Table.get_drop_other {β : Type} (d : β) {j k : Nat} (hj : j ≠ k) : ∀ t : Table β, Table.get d (Table.drop k t) j = Table.get d t j
  | [] => rfl
  | (a, x) :: t => by
    have ih := Table.get_drop_other d hj t
    simp only [Table.drop, List.filter_cons, bne_iff_ne, ne_eq] at ih ⊢
    split
    · simp only [Table.get, ih]
    · rename_i h
      have h' : ¬ j = a := fun e => hj (e.trans (not_not.mp h))
      simp only [Table.get, h', if_false, ih]

theorem Table.get_insert_same {β : Type} (d : β) (k : Nat) (v : β) : ∀ t : Table β, (∀ p ∈ t, p.1 ≠ k) →
    Table.get d (Table.insert k v t) k = v
  | [], _ => by simp [Table.insert, Table.get]
  | (a, x) :: t, h => by
    have ha : ¬ k = a := fun e => h (a, x) List.mem_cons_self e.symm
    have ih := Table.get_insert_same d k v t (fun p hp => h p (List.mem_cons_of_mem _ hp))
    by_cases h1 : k < a
    · simp [Table.insert, h1, Table.get]
    · simp [Table.insert, h1, Table.get, ha, ih]

theorem Table.get_insert_other {β : Type} (d : β) {j k : Nat} (v : β) (hj : j ≠ k) : ∀ t : Table β,
    Table.get d (Table.insert k v t) j = Table.get d t j
  | [] => by simp [Table.insert, Table.get, hj]
  | (a, x) :: t => by
    have ih := Table.get_insert_other d v hj t
    by_cases h1 : k < a
    · simp [Table.insert, h1, Table.get, hj]
    · simp [Table.insert, h1, Table.get, ih]

variable {α : Type} [DecidableEq α]

/-- A read after a write of the same key gives the value written. -/
@[simp] theorem Table.get_set_same (d : α) (t : Table α) (k : Nat) (v : α) : Table.get d (Table.set d t k v) k = v := by
  unfold Table.set
  split
  · rename_i h; rw [Table.get_drop_same, h]
  · refine Table.get_insert_same d k v _ fun p hp => ?_
    simp only [Table.drop, List.mem_filter, bne_iff_ne] at hp
    exact hp.2

/-- A write leaves every other key as it was. -/
theorem Table.get_set_other (d : α) (t : Table α) {j k : Nat} (v : α) (hj : j ≠ k) : Table.get d (Table.set d t k v) j = Table.get d t j := by
  unfold Table.set
  split
  · exact Table.get_drop_other d hj t
  · rw [Table.get_insert_other d v hj, Table.get_drop_other d hj]

/-! ### The canonical form -/

theorem Table.sortedAbove_none_of_some {β : Type} {t : Table β} {b : Nat} (h : Table.sortedAbove (some b) t = true) :
    Table.sortedAbove none t = true := by
  cases t with
  | nil => rfl
  | cons p t => obtain ⟨a, x⟩ := p; simp only [Table.sortedAbove, Bool.and_eq_true] at h ⊢; exact h.2

theorem Table.sortedAbove_mono {β : Type} {t : Table β} {b c : Nat} (hcb : c ≤ b) (h : Table.sortedAbove (some b) t = true) :
    Table.sortedAbove (some c) t = true := by
  cases t with
  | nil => rfl
  | cons p t =>
    obtain ⟨a, x⟩ := p
    simp only [Table.sortedAbove, Bool.and_eq_true, decide_eq_true_eq] at h ⊢
    exact ⟨by omega, h.2⟩

theorem Table.filter_sortedAbove {β : Type} (q : Nat × β → Bool) : ∀ (t : Table β) (b : Option Nat), Table.sortedAbove b t = true →
    Table.sortedAbove b (t.filter q) = true
  | [], b, h => by cases b <;> exact h
  | (a, x) :: t, b, h => by
    have ht : Table.sortedAbove (some a) t = true := by
      cases b with
      | none => exact h
      | some b => simp only [Table.sortedAbove, Bool.and_eq_true] at h; exact h.2
    have ih := Table.filter_sortedAbove q t (some a) ht
    by_cases hq : q (a, x) = true
    · cases b with
      | none => simpa [List.filter, hq, Table.sortedAbove] using ih
      | some b =>
        simp only [Table.sortedAbove, Bool.and_eq_true, decide_eq_true_eq] at h
        simp [List.filter, hq, Table.sortedAbove, ih, h.1]
    · simp only [Bool.not_eq_true] at hq
      cases b with
      | none => simpa [List.filter, hq] using Table.sortedAbove_none_of_some ih
      | some b =>
        simp only [Table.sortedAbove, Bool.and_eq_true, decide_eq_true_eq] at h
        simpa [List.filter, hq] using Table.sortedAbove_mono (by omega) ih

/-- Dropping entries keeps the canonical form. -/
theorem Table.filter_wf (d : α) (q : Nat × α → Bool) {t : Table α} (h : Table.wf d t = true) : Table.wf d (t.filter q) = true := by
  simp only [Table.wf, Bool.and_eq_true] at h ⊢
  refine ⟨Table.filter_sortedAbove q t none h.1, ?_⟩
  rw [List.all_eq_true] at h ⊢
  exact fun p hp => h.2 p (List.mem_of_mem_filter hp)

theorem Table.insert_sortedAbove {β : Type} (k : Nat) (v : β) : ∀ (t : Table β) (b : Option Nat), (∀ x, b = some x → x < k) →
    (∀ p ∈ t, p.1 ≠ k) → Table.sortedAbove b t = true → Table.sortedAbove b (Table.insert k v t) = true
  | [], b, hb, _, _ => by
    cases b with
    | none => rfl
    | some b => simp [Table.insert, Table.sortedAbove, hb b rfl]
  | (a, x) :: t, b, hb, hk, h => by
    have ht : Table.sortedAbove (some a) t = true := by
      cases b with
      | none => exact h
      | some b => simp only [Table.sortedAbove, Bool.and_eq_true] at h; exact h.2
    have ha : a ≠ k := hk (a, x) List.mem_cons_self
    by_cases h1 : k < a
    · cases b with
      | none => simp [Table.insert, h1, Table.sortedAbove, ht]
      | some b => simp [Table.insert, h1, Table.sortedAbove, ht, hb b rfl]
    · have ih := Table.insert_sortedAbove k v t (some a) (fun y hy => by cases hy; omega)
        (fun p hp => hk p (List.mem_cons_of_mem _ hp)) ht
      cases b with
      | none => simp [Table.insert, h1, Table.sortedAbove, ih]
      | some b =>
        simp only [Table.sortedAbove, Bool.and_eq_true, decide_eq_true_eq] at h
        simp [Table.insert, h1, Table.sortedAbove, ih, h.1]

theorem Table.mem_insert {β : Type} {k : Nat} {v : β} {q : Nat × β} : ∀ {t : Table β}, q ∈ Table.insert k v t → q = (k, v) ∨ q ∈ t
  | [], h => by simpa [Table.insert] using h
  | (a, x) :: t, h => by
    by_cases h1 : k < a
    · simpa [Table.insert, h1] using h
    · simp only [Table.insert, h1, if_false, List.mem_cons] at h
      rcases h with h | h
      · exact .inr (by simp [h])
      · rcases Table.mem_insert h with h | h
        · exact .inl h
        · exact .inr (List.mem_cons_of_mem _ h)

/-- A write keeps the canonical form. -/
theorem Table.set_wf (d : α) {t : Table α} (k : Nat) (v : α) (h : Table.wf d t = true) : Table.wf d (Table.set d t k v) = true := by
  have hd : Table.wf d (Table.drop k t) = true := Table.filter_wf d _ h
  unfold Table.set
  split
  · exact hd
  · rename_i hv
    simp only [Table.wf, Bool.and_eq_true, List.all_eq_true, decide_eq_true_eq] at hd ⊢
    refine ⟨Table.insert_sortedAbove k v _ none (by simp) (fun p hp => ?_) hd.1, fun p hp => ?_⟩
    · simp only [Table.drop, List.mem_filter, bne_iff_ne] at hp
      exact hp.2
    · rcases Table.mem_insert hp with rfl | hp
      · exact hv
      · exact hd.2 p hp

end Sys2Proof.Machine
end

