-- ==== Sys2Proof/Laws/Memory.lean ====
section
/-! SUPPORT. Device memory: a byte reads as last written, a write leaves every other byte alone, and every memory operation keeps
the canonical form. -/
namespace Sys2Proof.Machine

theorem Memory.wf_nil : Memory.wf [] = true := rfl

/-- Writing a byte keeps the canonical form. -/
theorem Memory.write_wf {m : Memory} (k : Nat) (v : BitVec 8) (h : m.wf = true) : (m.write k v).wf = true := Table.set_wf _ _ _ h

/-- Clearing bytes keeps the canonical form. -/
theorem Memory.clear_wf {m : Memory} (k n : Nat) (h : m.wf = true) : (m.clear k n).wf = true := Table.filter_wf _ _ h

/-- A byte reads as last written. -/
@[simp] theorem Memory.read_write_same (m : Memory) (k : Nat) (v : BitVec 8) : (m.write k v).read k = v := Table.get_set_same _ _ _ _

/-- A write of one byte leaves every other byte alone. -/
theorem Memory.read_write_other (m : Memory) {k j : Nat} (v : BitVec 8) (hj : j ≠ k) : (m.write k v).read j = m.read j :=
  Table.get_set_other _ _ _ hj

/-- Writing bytes keeps the canonical form. -/
theorem Memory.writeBytes_wf : ∀ (l : List (BitVec 8)) (m : Memory) (k : Nat), m.wf = true → (m.writeBytes k l).wf = true
  | [], _, _, h => h
  | b :: t, m, k, h => Memory.writeBytes_wf t (m.write k b) (k + 1) (Memory.write_wf k b h)

/-- Writing bytes from `k` leaves every byte outside them alone. -/
theorem Memory.read_writeBytes_other : ∀ (l : List (BitVec 8)) (m : Memory) (k j : Nat), (j < k ∨ k + l.length ≤ j) →
    (m.writeBytes k l).read j = m.read j
  | [], _, _, _, _ => rfl
  | b :: t, m, k, j, hj => by
    simp only [List.length_cons] at hj
    have ih := Memory.read_writeBytes_other t (m.write k b) (k + 1) j (by omega)
    simp only [Memory.writeBytes, ih]
    exact Memory.read_write_other m b (by omega)

/-- A byte written among others reads as written. -/
theorem Memory.read_writeBytes_at : ∀ (l : List (BitVec 8)) (m : Memory) (k i : Nat) (hi : i < l.length),
    (m.writeBytes k l).read (k + i) = l[i]
  | b :: t, m, k, 0, _ => by
    simp only [Memory.writeBytes, Nat.add_zero, List.getElem_cons_zero]
    rw [Memory.read_writeBytes_other t _ (k + 1) k (by omega)]
    exact Memory.read_write_same m k b
  | b :: t, m, k, i + 1, hi => by
    have hi' : i < t.length := by simpa using hi
    have ih := Memory.read_writeBytes_at t (m.write k b) (k + 1) i hi'
    simp only [Memory.writeBytes, List.getElem_cons_succ]
    rw [show k + (i + 1) = k + 1 + i by omega]
    exact ih

theorem Memory.readBytes_length : ∀ (n : Nat) (m : Memory) (k : Nat), (m.readBytes k n).length = n
  | 0, _, _ => rfl
  | n + 1, m, k => by simp [Memory.readBytes, Memory.readBytes_length n m (k + 1)]

theorem Memory.getElem_readBytes : ∀ (n : Nat) (m : Memory) (k i : Nat) (hi : i < (m.readBytes k n).length),
    (m.readBytes k n)[i] = m.read (k + i)
  | 0, _, _, _, hi => absurd hi (Nat.not_lt_zero _)
  | n + 1, m, k, 0, _ => rfl
  | n + 1, m, k, i + 1, hi => by
    have hi' : i < (m.readBytes (k + 1) n).length := by simpa [Memory.readBytes] using hi
    have ih := Memory.getElem_readBytes n m (k + 1) i hi'
    simp only [Memory.readBytes, List.getElem_cons_succ, ih]
    rw [show k + 1 + i = k + (i + 1) by omega]

/-- Bytes read where bytes have just been written are those bytes. -/
theorem Memory.readBytes_writeBytes (m : Memory) (k : Nat) (l : List (BitVec 8)) : (m.writeBytes k l).readBytes k l.length = l := by
  apply List.ext_getElem (Memory.readBytes_length _ _ _)
  intro i h1 h2
  rw [Memory.getElem_readBytes]
  exact Memory.read_writeBytes_at l m k i h2

/-- A read of an account's range after a write there gives the bytes written. -/
theorem Mdl.memRead_memWrite (s : Mdl) (a p : Nat) (l : List Byte) : (s.memWrite a p l).memRead a p l.length = l :=
  Memory.readBytes_writeBytes _ _ _

/-- A write to an account's range leaves every other byte of device memory alone. -/
theorem Mdl.memWrite_read_other (s : Mdl) (a p : Nat) (l : List Byte) {j : Nat} (hj : j < memKey a p ∨ memKey a p + l.length ≤ j) :
    (s.memWrite a p l).mem.read j = s.mem.read j := Memory.read_writeBytes_other l _ _ _ hj

/-- A write keeps device memory canonical. -/
theorem Mdl.memWrite_wf (s : Mdl) (a p : Nat) (l : List Byte) (h : s.mem.wf = true) : (s.memWrite a p l).mem.wf = true :=
  Memory.writeBytes_wf _ _ _ h

end Sys2Proof.Machine
end

