-- ==== Sys2Proof/Laws/State.lean ====
section
/-! SUPPORT. What each shared update of the module leaves as it was, field by field: later proofs unfold no record update. -/
namespace Sys2Proof.Machine

variable (s : Mdl)

/-! setReg -/
@[simp] theorem Mdl.setReg_svc (f : Fld) (v : Nat) : (s.setReg f v).svc = s.svc := rfl
@[simp] theorem Mdl.setReg_trn (f : Fld) (v : Nat) : (s.setReg f v).trn = s.trn := rfl
@[simp] theorem Mdl.setReg_eph (f : Fld) (v : Nat) : (s.setReg f v).eph = s.eph := rfl
@[simp] theorem Mdl.setReg_cht (f : Fld) (v : Nat) : (s.setReg f v).cht = s.cht := rfl
@[simp] theorem Mdl.setReg_cores (f : Fld) (v : Nat) : (s.setReg f v).cores = s.cores := rfl
@[simp] theorem Mdl.setReg_clusters (f : Fld) (v : Nat) : (s.setReg f v).clusters = s.clusters := rfl
@[simp] theorem Mdl.setReg_tir (f : Fld) (v : Nat) : (s.setReg f v).tir = s.tir := rfl
@[simp] theorem Mdl.setReg_mem (f : Fld) (v : Nat) : (s.setReg f v).mem = s.mem := rfl
@[simp] theorem Mdl.setReg_sch (f : Fld) (v : Nat) : (s.setReg f v).sch = s.sch := rfl
@[simp] theorem Mdl.setReg_cats (f : Fld) (v : Nat) : (s.setReg f v).cats = s.cats := rfl
@[simp] theorem Mdl.setReg_med (f : Fld) (v : Nat) : (s.setReg f v).med = s.med := rfl
@[simp] theorem Mdl.setReg_ftl (f : Fld) (v : Nat) : (s.setReg f v).ftl = s.ftl := rfl
@[simp] theorem Mdl.setReg_host (f : Fld) (v : Nat) : (s.setReg f v).host = s.host := rfl
@[simp] theorem Mdl.setReg_spn (f : Fld) (v : Nat) : (s.setReg f v).spn = s.spn := rfl
@[simp] theorem Mdl.setReg_twn (f : Fld) (v : Nat) : (s.setReg f v).twn = s.twn := rfl
@[simp] theorem Mdl.setReg_out (f : Fld) (v : Nat) : (s.setReg f v).out = s.out := rfl
@[simp] theorem Mdl.setReg_free (f : Fld) (v : Nat) : (s.setReg f v).free = s.free := rfl

/-! setBit -/
@[simp] theorem Mdl.setBit_svc (f : Fld) (b : Bool) : (s.setBit f b).svc = s.svc := rfl
@[simp] theorem Mdl.setBit_trn (f : Fld) (b : Bool) : (s.setBit f b).trn = s.trn := rfl
@[simp] theorem Mdl.setBit_eph (f : Fld) (b : Bool) : (s.setBit f b).eph = s.eph := rfl
@[simp] theorem Mdl.setBit_cht (f : Fld) (b : Bool) : (s.setBit f b).cht = s.cht := rfl
@[simp] theorem Mdl.setBit_cores (f : Fld) (b : Bool) : (s.setBit f b).cores = s.cores := rfl
@[simp] theorem Mdl.setBit_clusters (f : Fld) (b : Bool) : (s.setBit f b).clusters = s.clusters := rfl
@[simp] theorem Mdl.setBit_tir (f : Fld) (b : Bool) : (s.setBit f b).tir = s.tir := rfl
@[simp] theorem Mdl.setBit_mem (f : Fld) (b : Bool) : (s.setBit f b).mem = s.mem := rfl
@[simp] theorem Mdl.setBit_sch (f : Fld) (b : Bool) : (s.setBit f b).sch = s.sch := rfl
@[simp] theorem Mdl.setBit_cats (f : Fld) (b : Bool) : (s.setBit f b).cats = s.cats := rfl
@[simp] theorem Mdl.setBit_med (f : Fld) (b : Bool) : (s.setBit f b).med = s.med := rfl
@[simp] theorem Mdl.setBit_ftl (f : Fld) (b : Bool) : (s.setBit f b).ftl = s.ftl := rfl
@[simp] theorem Mdl.setBit_host (f : Fld) (b : Bool) : (s.setBit f b).host = s.host := rfl
@[simp] theorem Mdl.setBit_spn (f : Fld) (b : Bool) : (s.setBit f b).spn = s.spn := rfl
@[simp] theorem Mdl.setBit_twn (f : Fld) (b : Bool) : (s.setBit f b).twn = s.twn := rfl
@[simp] theorem Mdl.setBit_out (f : Fld) (b : Bool) : (s.setBit f b).out = s.out := rfl
@[simp] theorem Mdl.setBit_free (f : Fld) (b : Bool) : (s.setBit f b).free = s.free := rfl

/-! count -/
@[simp] theorem Mdl.count_svc (f : Fld) (n : Nat) : (s.count f n).svc = s.svc := rfl
@[simp] theorem Mdl.count_trn (f : Fld) (n : Nat) : (s.count f n).trn = s.trn := rfl
@[simp] theorem Mdl.count_eph (f : Fld) (n : Nat) : (s.count f n).eph = s.eph := rfl
@[simp] theorem Mdl.count_cht (f : Fld) (n : Nat) : (s.count f n).cht = s.cht := rfl
@[simp] theorem Mdl.count_cores (f : Fld) (n : Nat) : (s.count f n).cores = s.cores := rfl
@[simp] theorem Mdl.count_clusters (f : Fld) (n : Nat) : (s.count f n).clusters = s.clusters := rfl
@[simp] theorem Mdl.count_tir (f : Fld) (n : Nat) : (s.count f n).tir = s.tir := rfl
@[simp] theorem Mdl.count_mem (f : Fld) (n : Nat) : (s.count f n).mem = s.mem := rfl
@[simp] theorem Mdl.count_sch (f : Fld) (n : Nat) : (s.count f n).sch = s.sch := rfl
@[simp] theorem Mdl.count_cats (f : Fld) (n : Nat) : (s.count f n).cats = s.cats := rfl
@[simp] theorem Mdl.count_med (f : Fld) (n : Nat) : (s.count f n).med = s.med := rfl
@[simp] theorem Mdl.count_ftl (f : Fld) (n : Nat) : (s.count f n).ftl = s.ftl := rfl
@[simp] theorem Mdl.count_host (f : Fld) (n : Nat) : (s.count f n).host = s.host := rfl
@[simp] theorem Mdl.count_spn (f : Fld) (n : Nat) : (s.count f n).spn = s.spn := rfl
@[simp] theorem Mdl.count_twn (f : Fld) (n : Nat) : (s.count f n).twn = s.twn := rfl
@[simp] theorem Mdl.count_out (f : Fld) (n : Nat) : (s.count f n).out = s.out := rfl
@[simp] theorem Mdl.count_free (f : Fld) (n : Nat) : (s.count f n).free = s.free := rfl

/-! countSat -/
@[simp] theorem Mdl.countSat_svc (f : Fld) (n : Nat) : (s.countSat f n).svc = s.svc := rfl
@[simp] theorem Mdl.countSat_trn (f : Fld) (n : Nat) : (s.countSat f n).trn = s.trn := rfl
@[simp] theorem Mdl.countSat_eph (f : Fld) (n : Nat) : (s.countSat f n).eph = s.eph := rfl
@[simp] theorem Mdl.countSat_cht (f : Fld) (n : Nat) : (s.countSat f n).cht = s.cht := rfl
@[simp] theorem Mdl.countSat_cores (f : Fld) (n : Nat) : (s.countSat f n).cores = s.cores := rfl
@[simp] theorem Mdl.countSat_clusters (f : Fld) (n : Nat) : (s.countSat f n).clusters = s.clusters := rfl
@[simp] theorem Mdl.countSat_tir (f : Fld) (n : Nat) : (s.countSat f n).tir = s.tir := rfl
@[simp] theorem Mdl.countSat_mem (f : Fld) (n : Nat) : (s.countSat f n).mem = s.mem := rfl
@[simp] theorem Mdl.countSat_sch (f : Fld) (n : Nat) : (s.countSat f n).sch = s.sch := rfl
@[simp] theorem Mdl.countSat_cats (f : Fld) (n : Nat) : (s.countSat f n).cats = s.cats := rfl
@[simp] theorem Mdl.countSat_med (f : Fld) (n : Nat) : (s.countSat f n).med = s.med := rfl
@[simp] theorem Mdl.countSat_ftl (f : Fld) (n : Nat) : (s.countSat f n).ftl = s.ftl := rfl
@[simp] theorem Mdl.countSat_host (f : Fld) (n : Nat) : (s.countSat f n).host = s.host := rfl
@[simp] theorem Mdl.countSat_spn (f : Fld) (n : Nat) : (s.countSat f n).spn = s.spn := rfl
@[simp] theorem Mdl.countSat_twn (f : Fld) (n : Nat) : (s.countSat f n).twn = s.twn := rfl
@[simp] theorem Mdl.countSat_out (f : Fld) (n : Nat) : (s.countSat f n).out = s.out := rfl
@[simp] theorem Mdl.countSat_free (f : Fld) (n : Nat) : (s.countSat f n).free = s.free := rfl

/-! resetReg -/
@[simp] theorem Mdl.resetReg_svc (f : Fld) : (s.resetReg f).svc = s.svc := rfl
@[simp] theorem Mdl.resetReg_trn (f : Fld) : (s.resetReg f).trn = s.trn := rfl
@[simp] theorem Mdl.resetReg_eph (f : Fld) : (s.resetReg f).eph = s.eph := rfl
@[simp] theorem Mdl.resetReg_cht (f : Fld) : (s.resetReg f).cht = s.cht := rfl
@[simp] theorem Mdl.resetReg_cores (f : Fld) : (s.resetReg f).cores = s.cores := rfl
@[simp] theorem Mdl.resetReg_clusters (f : Fld) : (s.resetReg f).clusters = s.clusters := rfl
@[simp] theorem Mdl.resetReg_tir (f : Fld) : (s.resetReg f).tir = s.tir := rfl
@[simp] theorem Mdl.resetReg_mem (f : Fld) : (s.resetReg f).mem = s.mem := rfl
@[simp] theorem Mdl.resetReg_sch (f : Fld) : (s.resetReg f).sch = s.sch := rfl
@[simp] theorem Mdl.resetReg_cats (f : Fld) : (s.resetReg f).cats = s.cats := rfl
@[simp] theorem Mdl.resetReg_med (f : Fld) : (s.resetReg f).med = s.med := rfl
@[simp] theorem Mdl.resetReg_ftl (f : Fld) : (s.resetReg f).ftl = s.ftl := rfl
@[simp] theorem Mdl.resetReg_host (f : Fld) : (s.resetReg f).host = s.host := rfl
@[simp] theorem Mdl.resetReg_spn (f : Fld) : (s.resetReg f).spn = s.spn := rfl
@[simp] theorem Mdl.resetReg_twn (f : Fld) : (s.resetReg f).twn = s.twn := rfl
@[simp] theorem Mdl.resetReg_out (f : Fld) : (s.resetReg f).out = s.out := rfl
@[simp] theorem Mdl.resetReg_free (f : Fld) : (s.resetReg f).free = s.free := rfl

/-! setCluster -/
@[simp] theorem Mdl.setCluster_regs (d c : Nat) (v : ClusterSt) : (s.setCluster d c v).regs = s.regs := rfl
@[simp] theorem Mdl.setCluster_svc (d c : Nat) (v : ClusterSt) : (s.setCluster d c v).svc = s.svc := rfl
@[simp] theorem Mdl.setCluster_trn (d c : Nat) (v : ClusterSt) : (s.setCluster d c v).trn = s.trn := rfl
@[simp] theorem Mdl.setCluster_eph (d c : Nat) (v : ClusterSt) : (s.setCluster d c v).eph = s.eph := rfl
@[simp] theorem Mdl.setCluster_cht (d c : Nat) (v : ClusterSt) : (s.setCluster d c v).cht = s.cht := rfl
@[simp] theorem Mdl.setCluster_cores (d c : Nat) (v : ClusterSt) : (s.setCluster d c v).cores = s.cores := rfl
@[simp] theorem Mdl.setCluster_tir (d c : Nat) (v : ClusterSt) : (s.setCluster d c v).tir = s.tir := rfl
@[simp] theorem Mdl.setCluster_mem (d c : Nat) (v : ClusterSt) : (s.setCluster d c v).mem = s.mem := rfl
@[simp] theorem Mdl.setCluster_sch (d c : Nat) (v : ClusterSt) : (s.setCluster d c v).sch = s.sch := rfl
@[simp] theorem Mdl.setCluster_cats (d c : Nat) (v : ClusterSt) : (s.setCluster d c v).cats = s.cats := rfl
@[simp] theorem Mdl.setCluster_med (d c : Nat) (v : ClusterSt) : (s.setCluster d c v).med = s.med := rfl
@[simp] theorem Mdl.setCluster_ftl (d c : Nat) (v : ClusterSt) : (s.setCluster d c v).ftl = s.ftl := rfl
@[simp] theorem Mdl.setCluster_host (d c : Nat) (v : ClusterSt) : (s.setCluster d c v).host = s.host := rfl
@[simp] theorem Mdl.setCluster_spn (d c : Nat) (v : ClusterSt) : (s.setCluster d c v).spn = s.spn := rfl
@[simp] theorem Mdl.setCluster_twn (d c : Nat) (v : ClusterSt) : (s.setCluster d c v).twn = s.twn := rfl
@[simp] theorem Mdl.setCluster_out (d c : Nat) (v : ClusterSt) : (s.setCluster d c v).out = s.out := rfl
@[simp] theorem Mdl.setCluster_free (d c : Nat) (v : ClusterSt) : (s.setCluster d c v).free = s.free := rfl

/-! setCore -/
@[simp] theorem Mdl.setCore_regs (d c k : Nat) (v : CoreSt) : (s.setCore d c k v).regs = s.regs := rfl
@[simp] theorem Mdl.setCore_svc (d c k : Nat) (v : CoreSt) : (s.setCore d c k v).svc = s.svc := rfl
@[simp] theorem Mdl.setCore_trn (d c k : Nat) (v : CoreSt) : (s.setCore d c k v).trn = s.trn := rfl
@[simp] theorem Mdl.setCore_eph (d c k : Nat) (v : CoreSt) : (s.setCore d c k v).eph = s.eph := rfl
@[simp] theorem Mdl.setCore_cht (d c k : Nat) (v : CoreSt) : (s.setCore d c k v).cht = s.cht := rfl
@[simp] theorem Mdl.setCore_clusters (d c k : Nat) (v : CoreSt) : (s.setCore d c k v).clusters = s.clusters := rfl
@[simp] theorem Mdl.setCore_tir (d c k : Nat) (v : CoreSt) : (s.setCore d c k v).tir = s.tir := rfl
@[simp] theorem Mdl.setCore_mem (d c k : Nat) (v : CoreSt) : (s.setCore d c k v).mem = s.mem := rfl
@[simp] theorem Mdl.setCore_sch (d c k : Nat) (v : CoreSt) : (s.setCore d c k v).sch = s.sch := rfl
@[simp] theorem Mdl.setCore_cats (d c k : Nat) (v : CoreSt) : (s.setCore d c k v).cats = s.cats := rfl
@[simp] theorem Mdl.setCore_med (d c k : Nat) (v : CoreSt) : (s.setCore d c k v).med = s.med := rfl
@[simp] theorem Mdl.setCore_ftl (d c k : Nat) (v : CoreSt) : (s.setCore d c k v).ftl = s.ftl := rfl
@[simp] theorem Mdl.setCore_host (d c k : Nat) (v : CoreSt) : (s.setCore d c k v).host = s.host := rfl
@[simp] theorem Mdl.setCore_spn (d c k : Nat) (v : CoreSt) : (s.setCore d c k v).spn = s.spn := rfl
@[simp] theorem Mdl.setCore_twn (d c k : Nat) (v : CoreSt) : (s.setCore d c k v).twn = s.twn := rfl
@[simp] theorem Mdl.setCore_out (d c k : Nat) (v : CoreSt) : (s.setCore d c k v).out = s.out := rfl
@[simp] theorem Mdl.setCore_free (d c k : Nat) (v : CoreSt) : (s.setCore d c k v).free = s.free := rfl

/-! memWrite -/
@[simp] theorem Mdl.memWrite_regs (a p : Nat) (l : List Byte) : (s.memWrite a p l).regs = s.regs := rfl
@[simp] theorem Mdl.memWrite_svc (a p : Nat) (l : List Byte) : (s.memWrite a p l).svc = s.svc := rfl
@[simp] theorem Mdl.memWrite_trn (a p : Nat) (l : List Byte) : (s.memWrite a p l).trn = s.trn := rfl
@[simp] theorem Mdl.memWrite_eph (a p : Nat) (l : List Byte) : (s.memWrite a p l).eph = s.eph := rfl
@[simp] theorem Mdl.memWrite_cht (a p : Nat) (l : List Byte) : (s.memWrite a p l).cht = s.cht := rfl
@[simp] theorem Mdl.memWrite_cores (a p : Nat) (l : List Byte) : (s.memWrite a p l).cores = s.cores := rfl
@[simp] theorem Mdl.memWrite_clusters (a p : Nat) (l : List Byte) : (s.memWrite a p l).clusters = s.clusters := rfl
@[simp] theorem Mdl.memWrite_tir (a p : Nat) (l : List Byte) : (s.memWrite a p l).tir = s.tir := rfl
@[simp] theorem Mdl.memWrite_sch (a p : Nat) (l : List Byte) : (s.memWrite a p l).sch = s.sch := rfl
@[simp] theorem Mdl.memWrite_cats (a p : Nat) (l : List Byte) : (s.memWrite a p l).cats = s.cats := rfl
@[simp] theorem Mdl.memWrite_med (a p : Nat) (l : List Byte) : (s.memWrite a p l).med = s.med := rfl
@[simp] theorem Mdl.memWrite_ftl (a p : Nat) (l : List Byte) : (s.memWrite a p l).ftl = s.ftl := rfl
@[simp] theorem Mdl.memWrite_host (a p : Nat) (l : List Byte) : (s.memWrite a p l).host = s.host := rfl
@[simp] theorem Mdl.memWrite_spn (a p : Nat) (l : List Byte) : (s.memWrite a p l).spn = s.spn := rfl
@[simp] theorem Mdl.memWrite_twn (a p : Nat) (l : List Byte) : (s.memWrite a p l).twn = s.twn := rfl
@[simp] theorem Mdl.memWrite_out (a p : Nat) (l : List Byte) : (s.memWrite a p l).out = s.out := rfl
@[simp] theorem Mdl.memWrite_free (a p : Nat) (l : List Byte) : (s.memWrite a p l).free = s.free := rfl

/-! emit -/
@[simp] theorem Mdl.emit_regs (o : Out) : (s.emit o).regs = s.regs := rfl
@[simp] theorem Mdl.emit_svc (o : Out) : (s.emit o).svc = s.svc := rfl
@[simp] theorem Mdl.emit_trn (o : Out) : (s.emit o).trn = s.trn := rfl
@[simp] theorem Mdl.emit_eph (o : Out) : (s.emit o).eph = s.eph := rfl
@[simp] theorem Mdl.emit_cht (o : Out) : (s.emit o).cht = s.cht := rfl
@[simp] theorem Mdl.emit_cores (o : Out) : (s.emit o).cores = s.cores := rfl
@[simp] theorem Mdl.emit_clusters (o : Out) : (s.emit o).clusters = s.clusters := rfl
@[simp] theorem Mdl.emit_tir (o : Out) : (s.emit o).tir = s.tir := rfl
@[simp] theorem Mdl.emit_mem (o : Out) : (s.emit o).mem = s.mem := rfl
@[simp] theorem Mdl.emit_sch (o : Out) : (s.emit o).sch = s.sch := rfl
@[simp] theorem Mdl.emit_cats (o : Out) : (s.emit o).cats = s.cats := rfl
@[simp] theorem Mdl.emit_med (o : Out) : (s.emit o).med = s.med := rfl
@[simp] theorem Mdl.emit_ftl (o : Out) : (s.emit o).ftl = s.ftl := rfl
@[simp] theorem Mdl.emit_host (o : Out) : (s.emit o).host = s.host := rfl
@[simp] theorem Mdl.emit_spn (o : Out) : (s.emit o).spn = s.spn := rfl
@[simp] theorem Mdl.emit_twn (o : Out) : (s.emit o).twn = s.twn := rfl
@[simp] theorem Mdl.emit_free (o : Out) : (s.emit o).free = s.free := rfl

/-! complete -/
@[simp] theorem Mdl.complete_regs (i c : Nat) (e : Status) (x y : Nat) : (s.complete i c e x y).regs = s.regs := rfl
@[simp] theorem Mdl.complete_svc (i c : Nat) (e : Status) (x y : Nat) : (s.complete i c e x y).svc = s.svc := rfl
@[simp] theorem Mdl.complete_trn (i c : Nat) (e : Status) (x y : Nat) : (s.complete i c e x y).trn = s.trn := rfl
@[simp] theorem Mdl.complete_eph (i c : Nat) (e : Status) (x y : Nat) : (s.complete i c e x y).eph = s.eph := rfl
@[simp] theorem Mdl.complete_cht (i c : Nat) (e : Status) (x y : Nat) : (s.complete i c e x y).cht = s.cht := rfl
@[simp] theorem Mdl.complete_cores (i c : Nat) (e : Status) (x y : Nat) : (s.complete i c e x y).cores = s.cores := rfl
@[simp] theorem Mdl.complete_clusters (i c : Nat) (e : Status) (x y : Nat) : (s.complete i c e x y).clusters = s.clusters := rfl
@[simp] theorem Mdl.complete_tir (i c : Nat) (e : Status) (x y : Nat) : (s.complete i c e x y).tir = s.tir := rfl
@[simp] theorem Mdl.complete_mem (i c : Nat) (e : Status) (x y : Nat) : (s.complete i c e x y).mem = s.mem := rfl
@[simp] theorem Mdl.complete_sch (i c : Nat) (e : Status) (x y : Nat) : (s.complete i c e x y).sch = s.sch := rfl
@[simp] theorem Mdl.complete_cats (i c : Nat) (e : Status) (x y : Nat) : (s.complete i c e x y).cats = s.cats := rfl
@[simp] theorem Mdl.complete_med (i c : Nat) (e : Status) (x y : Nat) : (s.complete i c e x y).med = s.med := rfl
@[simp] theorem Mdl.complete_ftl (i c : Nat) (e : Status) (x y : Nat) : (s.complete i c e x y).ftl = s.ftl := rfl
@[simp] theorem Mdl.complete_host (i c : Nat) (e : Status) (x y : Nat) : (s.complete i c e x y).host = s.host := rfl
@[simp] theorem Mdl.complete_spn (i c : Nat) (e : Status) (x y : Nat) : (s.complete i c e x y).spn = s.spn := rfl
@[simp] theorem Mdl.complete_twn (i c : Nat) (e : Status) (x y : Nat) : (s.complete i c e x y).twn = s.twn := rfl
@[simp] theorem Mdl.complete_free (i c : Nat) (e : Status) (x y : Nat) : (s.complete i c e x y).free = s.free := rfl

/-! logBook -/
@[simp] theorem Mdl.logBook_regs (k x : Nat) : (s.logBook k x).regs = s.regs := rfl
@[simp] theorem Mdl.logBook_trn (k x : Nat) : (s.logBook k x).trn = s.trn := rfl
@[simp] theorem Mdl.logBook_eph (k x : Nat) : (s.logBook k x).eph = s.eph := rfl
@[simp] theorem Mdl.logBook_cht (k x : Nat) : (s.logBook k x).cht = s.cht := rfl
@[simp] theorem Mdl.logBook_cores (k x : Nat) : (s.logBook k x).cores = s.cores := rfl
@[simp] theorem Mdl.logBook_clusters (k x : Nat) : (s.logBook k x).clusters = s.clusters := rfl
@[simp] theorem Mdl.logBook_tir (k x : Nat) : (s.logBook k x).tir = s.tir := rfl
@[simp] theorem Mdl.logBook_mem (k x : Nat) : (s.logBook k x).mem = s.mem := rfl
@[simp] theorem Mdl.logBook_sch (k x : Nat) : (s.logBook k x).sch = s.sch := rfl
@[simp] theorem Mdl.logBook_cats (k x : Nat) : (s.logBook k x).cats = s.cats := rfl
@[simp] theorem Mdl.logBook_med (k x : Nat) : (s.logBook k x).med = s.med := rfl
@[simp] theorem Mdl.logBook_ftl (k x : Nat) : (s.logBook k x).ftl = s.ftl := rfl
@[simp] theorem Mdl.logBook_host (k x : Nat) : (s.logBook k x).host = s.host := rfl
@[simp] theorem Mdl.logBook_spn (k x : Nat) : (s.logBook k x).spn = s.spn := rfl
@[simp] theorem Mdl.logBook_twn (k x : Nat) : (s.logBook k x).twn = s.twn := rfl
@[simp] theorem Mdl.logBook_out (k x : Nat) : (s.logBook k x).out = s.out := rfl
@[simp] theorem Mdl.logBook_free (k x : Nat) : (s.logBook k x).free = s.free := rfl

/-! total -/
@[simp] theorem Mdl.total_regs (t : Total) (n : Nat) : (s.total t n).regs = s.regs := rfl
@[simp] theorem Mdl.total_trn (t : Total) (n : Nat) : (s.total t n).trn = s.trn := rfl
@[simp] theorem Mdl.total_eph (t : Total) (n : Nat) : (s.total t n).eph = s.eph := rfl
@[simp] theorem Mdl.total_cht (t : Total) (n : Nat) : (s.total t n).cht = s.cht := rfl
@[simp] theorem Mdl.total_cores (t : Total) (n : Nat) : (s.total t n).cores = s.cores := rfl
@[simp] theorem Mdl.total_clusters (t : Total) (n : Nat) : (s.total t n).clusters = s.clusters := rfl
@[simp] theorem Mdl.total_tir (t : Total) (n : Nat) : (s.total t n).tir = s.tir := rfl
@[simp] theorem Mdl.total_mem (t : Total) (n : Nat) : (s.total t n).mem = s.mem := rfl
@[simp] theorem Mdl.total_sch (t : Total) (n : Nat) : (s.total t n).sch = s.sch := rfl
@[simp] theorem Mdl.total_cats (t : Total) (n : Nat) : (s.total t n).cats = s.cats := rfl
@[simp] theorem Mdl.total_med (t : Total) (n : Nat) : (s.total t n).med = s.med := rfl
@[simp] theorem Mdl.total_ftl (t : Total) (n : Nat) : (s.total t n).ftl = s.ftl := rfl
@[simp] theorem Mdl.total_host (t : Total) (n : Nat) : (s.total t n).host = s.host := rfl
@[simp] theorem Mdl.total_spn (t : Total) (n : Nat) : (s.total t n).spn = s.spn := rfl
@[simp] theorem Mdl.total_twn (t : Total) (n : Nat) : (s.total t n).twn = s.twn := rfl
@[simp] theorem Mdl.total_out (t : Total) (n : Nat) : (s.total t n).out = s.out := rfl
@[simp] theorem Mdl.total_free (t : Total) (n : Nat) : (s.total t n).free = s.free := rfl

/-! trnRecord -/
@[simp] theorem Mdl.trnRecord_regs (e c : Nat) : (s.trnRecord e c).regs = s.regs := rfl
@[simp] theorem Mdl.trnRecord_trn (e c : Nat) : (s.trnRecord e c).trn = s.trn := rfl
@[simp] theorem Mdl.trnRecord_eph (e c : Nat) : (s.trnRecord e c).eph = s.eph := rfl
@[simp] theorem Mdl.trnRecord_cht (e c : Nat) : (s.trnRecord e c).cht = s.cht := rfl
@[simp] theorem Mdl.trnRecord_cores (e c : Nat) : (s.trnRecord e c).cores = s.cores := rfl
@[simp] theorem Mdl.trnRecord_clusters (e c : Nat) : (s.trnRecord e c).clusters = s.clusters := rfl
@[simp] theorem Mdl.trnRecord_tir (e c : Nat) : (s.trnRecord e c).tir = s.tir := rfl
@[simp] theorem Mdl.trnRecord_mem (e c : Nat) : (s.trnRecord e c).mem = s.mem := rfl
@[simp] theorem Mdl.trnRecord_sch (e c : Nat) : (s.trnRecord e c).sch = s.sch := rfl
@[simp] theorem Mdl.trnRecord_cats (e c : Nat) : (s.trnRecord e c).cats = s.cats := rfl
@[simp] theorem Mdl.trnRecord_med (e c : Nat) : (s.trnRecord e c).med = s.med := rfl
@[simp] theorem Mdl.trnRecord_ftl (e c : Nat) : (s.trnRecord e c).ftl = s.ftl := rfl
@[simp] theorem Mdl.trnRecord_host (e c : Nat) : (s.trnRecord e c).host = s.host := rfl
@[simp] theorem Mdl.trnRecord_spn (e c : Nat) : (s.trnRecord e c).spn = s.spn := rfl
@[simp] theorem Mdl.trnRecord_twn (e c : Nat) : (s.trnRecord e c).twn = s.twn := rfl
@[simp] theorem Mdl.trnRecord_out (e c : Nat) : (s.trnRecord e c).out = s.out := rfl
@[simp] theorem Mdl.trnRecord_free (e c : Nat) : (s.trnRecord e c).free = s.free := rfl

/-! setRegs -/
@[simp] theorem Mdl.setRegs_svc (l : List (Fld × Nat)) : (s.setRegs l).svc = s.svc := by
  induction l generalizing s with
  | nil => rfl
  | cons a t ih => exact ih _
@[simp] theorem Mdl.setRegs_trn (l : List (Fld × Nat)) : (s.setRegs l).trn = s.trn := by
  induction l generalizing s with
  | nil => rfl
  | cons a t ih => exact ih _
@[simp] theorem Mdl.setRegs_eph (l : List (Fld × Nat)) : (s.setRegs l).eph = s.eph := by
  induction l generalizing s with
  | nil => rfl
  | cons a t ih => exact ih _
@[simp] theorem Mdl.setRegs_cht (l : List (Fld × Nat)) : (s.setRegs l).cht = s.cht := by
  induction l generalizing s with
  | nil => rfl
  | cons a t ih => exact ih _
@[simp] theorem Mdl.setRegs_cores (l : List (Fld × Nat)) : (s.setRegs l).cores = s.cores := by
  induction l generalizing s with
  | nil => rfl
  | cons a t ih => exact ih _
@[simp] theorem Mdl.setRegs_clusters (l : List (Fld × Nat)) : (s.setRegs l).clusters = s.clusters := by
  induction l generalizing s with
  | nil => rfl
  | cons a t ih => exact ih _
@[simp] theorem Mdl.setRegs_tir (l : List (Fld × Nat)) : (s.setRegs l).tir = s.tir := by
  induction l generalizing s with
  | nil => rfl
  | cons a t ih => exact ih _
@[simp] theorem Mdl.setRegs_mem (l : List (Fld × Nat)) : (s.setRegs l).mem = s.mem := by
  induction l generalizing s with
  | nil => rfl
  | cons a t ih => exact ih _
@[simp] theorem Mdl.setRegs_sch (l : List (Fld × Nat)) : (s.setRegs l).sch = s.sch := by
  induction l generalizing s with
  | nil => rfl
  | cons a t ih => exact ih _
@[simp] theorem Mdl.setRegs_cats (l : List (Fld × Nat)) : (s.setRegs l).cats = s.cats := by
  induction l generalizing s with
  | nil => rfl
  | cons a t ih => exact ih _
@[simp] theorem Mdl.setRegs_med (l : List (Fld × Nat)) : (s.setRegs l).med = s.med := by
  induction l generalizing s with
  | nil => rfl
  | cons a t ih => exact ih _
@[simp] theorem Mdl.setRegs_ftl (l : List (Fld × Nat)) : (s.setRegs l).ftl = s.ftl := by
  induction l generalizing s with
  | nil => rfl
  | cons a t ih => exact ih _
@[simp] theorem Mdl.setRegs_host (l : List (Fld × Nat)) : (s.setRegs l).host = s.host := by
  induction l generalizing s with
  | nil => rfl
  | cons a t ih => exact ih _
@[simp] theorem Mdl.setRegs_spn (l : List (Fld × Nat)) : (s.setRegs l).spn = s.spn := by
  induction l generalizing s with
  | nil => rfl
  | cons a t ih => exact ih _
@[simp] theorem Mdl.setRegs_twn (l : List (Fld × Nat)) : (s.setRegs l).twn = s.twn := by
  induction l generalizing s with
  | nil => rfl
  | cons a t ih => exact ih _
@[simp] theorem Mdl.setRegs_out (l : List (Fld × Nat)) : (s.setRegs l).out = s.out := by
  induction l generalizing s with
  | nil => rfl
  | cons a t ih => exact ih _
@[simp] theorem Mdl.setRegs_free (l : List (Fld × Nat)) : (s.setRegs l).free = s.free := by
  induction l generalizing s with
  | nil => rfl
  | cons a t ih => exact ih _

/-! fresh -/
@[simp] theorem Mdl.fresh_regs (w : Nat) : (s.fresh w).2.regs = s.regs := rfl
@[simp] theorem Mdl.fresh_svc (w : Nat) : (s.fresh w).2.svc = s.svc := rfl
@[simp] theorem Mdl.fresh_trn (w : Nat) : (s.fresh w).2.trn = s.trn := rfl
@[simp] theorem Mdl.fresh_eph (w : Nat) : (s.fresh w).2.eph = s.eph := rfl
@[simp] theorem Mdl.fresh_cht (w : Nat) : (s.fresh w).2.cht = s.cht := rfl
@[simp] theorem Mdl.fresh_cores (w : Nat) : (s.fresh w).2.cores = s.cores := rfl
@[simp] theorem Mdl.fresh_clusters (w : Nat) : (s.fresh w).2.clusters = s.clusters := rfl
@[simp] theorem Mdl.fresh_tir (w : Nat) : (s.fresh w).2.tir = s.tir := rfl
@[simp] theorem Mdl.fresh_mem (w : Nat) : (s.fresh w).2.mem = s.mem := rfl
@[simp] theorem Mdl.fresh_sch (w : Nat) : (s.fresh w).2.sch = s.sch := rfl
@[simp] theorem Mdl.fresh_cats (w : Nat) : (s.fresh w).2.cats = s.cats := rfl
@[simp] theorem Mdl.fresh_med (w : Nat) : (s.fresh w).2.med = s.med := rfl
@[simp] theorem Mdl.fresh_ftl (w : Nat) : (s.fresh w).2.ftl = s.ftl := rfl
@[simp] theorem Mdl.fresh_host (w : Nat) : (s.fresh w).2.host = s.host := rfl
@[simp] theorem Mdl.fresh_spn (w : Nat) : (s.fresh w).2.spn = s.spn := rfl
@[simp] theorem Mdl.fresh_twn (w : Nat) : (s.fresh w).2.twn = s.twn := rfl
@[simp] theorem Mdl.fresh_out (w : Nat) : (s.fresh w).2.out = s.out := rfl
@[simp] theorem Mdl.fresh_free (w : Nat) : (s.fresh w).2.free = s.free + 1 := rfl
/-- A free value fits its width. -/
theorem Mdl.fresh_lt (w : Nat) : (s.fresh w).1 < 2 ^ w := Nat.mod_lt _ (Nat.two_pow_pos w)

/-! postEvent changes only the events posted and the answers. -/
@[simp] theorem Mdl.postEvent_regs (i p : Nat) : (s.postEvent i p).regs = s.regs := by unfold Mdl.postEvent; split <;> rfl
@[simp] theorem Mdl.postEvent_trn (i p : Nat) : (s.postEvent i p).trn = s.trn := by unfold Mdl.postEvent; split <;> rfl
@[simp] theorem Mdl.postEvent_eph (i p : Nat) : (s.postEvent i p).eph = s.eph := by unfold Mdl.postEvent; split <;> rfl
@[simp] theorem Mdl.postEvent_cht (i p : Nat) : (s.postEvent i p).cht = s.cht := by unfold Mdl.postEvent; split <;> rfl
@[simp] theorem Mdl.postEvent_cores (i p : Nat) : (s.postEvent i p).cores = s.cores := by unfold Mdl.postEvent; split <;> rfl
@[simp] theorem Mdl.postEvent_clusters (i p : Nat) : (s.postEvent i p).clusters = s.clusters := by unfold Mdl.postEvent; split <;> rfl
@[simp] theorem Mdl.postEvent_tir (i p : Nat) : (s.postEvent i p).tir = s.tir := by unfold Mdl.postEvent; split <;> rfl
@[simp] theorem Mdl.postEvent_mem (i p : Nat) : (s.postEvent i p).mem = s.mem := by unfold Mdl.postEvent; split <;> rfl
@[simp] theorem Mdl.postEvent_sch (i p : Nat) : (s.postEvent i p).sch = s.sch := by unfold Mdl.postEvent; split <;> rfl
@[simp] theorem Mdl.postEvent_cats (i p : Nat) : (s.postEvent i p).cats = s.cats := by unfold Mdl.postEvent; split <;> rfl
@[simp] theorem Mdl.postEvent_med (i p : Nat) : (s.postEvent i p).med = s.med := by unfold Mdl.postEvent; split <;> rfl
@[simp] theorem Mdl.postEvent_ftl (i p : Nat) : (s.postEvent i p).ftl = s.ftl := by unfold Mdl.postEvent; split <;> rfl
@[simp] theorem Mdl.postEvent_host (i p : Nat) : (s.postEvent i p).host = s.host := by unfold Mdl.postEvent; split <;> rfl
@[simp] theorem Mdl.postEvent_spn (i p : Nat) : (s.postEvent i p).spn = s.spn := by unfold Mdl.postEvent; split <;> rfl
@[simp] theorem Mdl.postEvent_twn (i p : Nat) : (s.postEvent i p).twn = s.twn := by unfold Mdl.postEvent; split <;> rfl
@[simp] theorem Mdl.postEvent_free (i p : Nat) : (s.postEvent i p).free = s.free := by unfold Mdl.postEvent; split <;> rfl

/-! The queue and the module -/

variable (q : State) (g : Mdl → Mdl)

@[simp] theorem State.always_pending : (q.always g).pending = q.pending := rfl
@[simp] theorem State.always_toMdl : (q.always g).toMdl = g q.toMdl := rfl
@[simp] theorem State.whenOn_pending : (q.whenOn g).pending = q.pending := rfl
@[simp] theorem State.whenOn_toMdl : (q.whenOn g).toMdl = q.toMdl.whenOn g := rfl
@[simp] theorem State.onBus_pending : (q.onBus g).pending = q.pending := rfl
@[simp] theorem State.onBus_toMdl : (q.onBus g).toMdl = q.toMdl.onBus g := rfl

/-- A module that runs takes the effect. -/
theorem Mdl.whenOn_on {s : Mdl} (h : s.powered = true) : s.whenOn g = g s := by simp [Mdl.whenOn, h]
/-- A module without power does nothing. -/
theorem Mdl.whenOn_off {s : Mdl} (h : s.powered = false) : s.whenOn g = s := by simp [Mdl.whenOn, h]
/-- A module that runs and is ready takes a register write. -/
theorem Mdl.onBus_ready {s : Mdl} (h : s.powered = true) (hr : 2 ≤ s.stage) : s.onBus g = g s := by simp [Mdl.onBus, h, hr]
theorem Mdl.onBus_off {s : Mdl} (h : s.powered = false) : s.onBus g = s := by simp [Mdl.onBus, h]
/-- A register write before ready is ignored (R662). -/
theorem Mdl.onBus_early {s : Mdl} (h : s.stage < 2) : s.onBus g = s := by
  have : ¬ 2 ≤ s.stage := by omega
  simp [Mdl.onBus, this]

theorem State.whenOn_on {q : State} (h : q.powered = true) : q.whenOn g = { q with toMdl := g q.toMdl } := by
  simp [State.whenOn, State.always, Mdl.whenOn_on g h]
theorem State.whenOn_off {q : State} (h : q.powered = false) : q.whenOn g = q := by
  simp [State.whenOn, State.always, Mdl.whenOn_off g h]
theorem State.onBus_ready {q : State} (h : q.powered = true) (hr : 2 ≤ q.stage) : q.onBus g = { q with toMdl := g q.toMdl } := by
  simp [State.onBus, State.always, Mdl.onBus_ready g h hr]
theorem State.onBus_off {q : State} (h : q.powered = false) : q.onBus g = q := by
  simp [State.onBus, State.always, Mdl.onBus_off g h]
theorem State.onBus_early {q : State} (h : q.stage < 2) : q.onBus g = q := by
  simp [State.onBus, State.always, Mdl.onBus_early g h]

end Sys2Proof.Machine
end

