-- ==== Sys2Proof/Laws/Registers.lean ====
section
/-! SUPPORT. Register fields: what a field reads as after a write of it or of another, and what leaves every field alone. -/
namespace Sys2Proof.Machine

/-- A field reads as last set, cut to its width. -/
@[simp] theorem Mdl.reg_setReg_same (s : Mdl) (f : Fld) (v : Nat) : (s.setReg f v).reg f = v % 2 ^ f.width := Table.get_set_same _ _ _ _

/-- Setting a field leaves every other field alone. -/
theorem Mdl.reg_setReg_other (s : Mdl) {f g : Fld} (v : Nat) (h : g.key ≠ f.key) : (s.setReg f v).reg g = s.reg g := by
  unfold Mdl.reg Mdl.setReg
  by_cases hr : g.reset = f.reset
  · rw [hr]; exact Table.get_set_other _ _ _ h
  · unfold Table.set
    dsimp only
    split
    · exact Table.get_drop_other _ h _
    · rw [Table.get_insert_other _ _ h, Table.get_drop_other _ h]

/-- Fields read from the register file alone. -/
theorem Mdl.reg_of_regs {s t : Mdl} (h : s.regs = t.regs) (f : Fld) : s.reg f = t.reg f := by unfold Mdl.reg; rw [h]

@[simp] theorem Mdl.setRegs_nil (s : Mdl) : s.setRegs [] = s := rfl
@[simp] theorem Mdl.setRegs_cons (s : Mdl) (f : Fld) (v : Nat) (l : List (Fld × Nat)) : s.setRegs ((f, v) :: l) = (s.setReg f v).setRegs l := rfl

/-- A list of writes leaves the fields that it does not name alone. -/
theorem Mdl.reg_setRegs_other (g : Fld) : ∀ (l : List (Fld × Nat)) (s : Mdl), (∀ p ∈ l, g.key ≠ p.1.key) → (s.setRegs l).reg g = s.reg g
  | [], _, _ => rfl
  | (f, v) :: t, s, h => by
    rw [Mdl.setRegs_cons, Mdl.reg_setRegs_other g t _ (fun p hp => h p (List.mem_cons_of_mem _ hp))]
    exact Mdl.reg_setReg_other s v (h (f, v) List.mem_cons_self)

@[simp] theorem Mdl.reg_setCluster (s : Mdl) (d c : Nat) (v : ClusterSt) (f : Fld) : (s.setCluster d c v).reg f = s.reg f := rfl
@[simp] theorem Mdl.reg_setCore (s : Mdl) (d c k : Nat) (v : CoreSt) (f : Fld) : (s.setCore d c k v).reg f = s.reg f := rfl
@[simp] theorem Mdl.reg_memWrite (s : Mdl) (a p : Nat) (l : List Byte) (f : Fld) : (s.memWrite a p l).reg f = s.reg f := rfl
@[simp] theorem Mdl.reg_emit (s : Mdl) (o : Out) (f : Fld) : (s.emit o).reg f = s.reg f := rfl
@[simp] theorem Mdl.reg_complete (s : Mdl) (i c : Nat) (e : Status) (x y : Nat) (f : Fld) : (s.complete i c e x y).reg f = s.reg f := rfl
@[simp] theorem Mdl.reg_logBook (s : Mdl) (k x : Nat) (f : Fld) : (s.logBook k x).reg f = s.reg f := rfl
@[simp] theorem Mdl.reg_total (s : Mdl) (t : Total) (n : Nat) (f : Fld) : (s.total t n).reg f = s.reg f := rfl
@[simp] theorem Mdl.reg_trnRecord (s : Mdl) (e c : Nat) (f : Fld) : (s.trnRecord e c).reg f = s.reg f := rfl
@[simp] theorem Mdl.reg_fresh (s : Mdl) (w : Nat) (f : Fld) : (s.fresh w).2.reg f = s.reg f := rfl
@[simp] theorem Mdl.reg_postEvent (s : Mdl) (i p : Nat) (f : Fld) : (s.postEvent i p).reg f = s.reg f :=
  Mdl.reg_of_regs (Mdl.postEvent_regs s i p) f

/-! ### What a command leaves alone -/

theorem Mdl.keepsRegs_refl (m : Mdl) (l : List Fld) : m.keepsRegs m l := fun _ _ => rfl
theorem Mdl.onlyRegs_refl (m : Mdl) (l : List Fld) : m.onlyRegs m l := ⟨rfl, m.keepsRegs_refl l⟩

/-- Setting one field changes nothing else. -/
theorem Mdl.onlyRegs_setReg (m : Mdl) (f : Fld) (v : Nat) : m.onlyRegs (m.setReg f v) [f] :=
  ⟨rfl, fun _ hg => Mdl.reg_setReg_other m v (hg f List.mem_cons_self)⟩

theorem Mdl.setRegs_eq (l : List (Fld × Nat)) : ∀ m : Mdl, m.setRegs l = { m with regs := (m.setRegs l).regs } := by
  induction l with
  | nil => intro m; rfl
  | cons p t ih => intro m; obtain ⟨f, v⟩ := p; rw [Mdl.setRegs_cons]; exact ih (m.setReg f v)

/-- Setting several fields changes nothing else. -/
theorem Mdl.onlyRegs_setRegs (m : Mdl) (l : List (Fld × Nat)) : m.onlyRegs (m.setRegs l) (l.map Prod.fst) :=
  ⟨Mdl.setRegs_eq l m, fun g hg => Mdl.reg_setRegs_other g l m fun _ hp => hg _ (List.mem_map_of_mem hp)⟩

/-- A longer list of fields allows no less. -/
theorem Mdl.keepsRegs_mono {m t : Mdl} {l k : List Fld} (h : m.keepsRegs t l) (hl : ∀ f ∈ l, f ∈ k) : m.keepsRegs t k :=
  fun g hg => h g fun f hf => hg f (hl f hf)

theorem Mdl.onlyRegs_mono {m t : Mdl} {l k : List Fld} (h : m.onlyRegs t l) (hl : ∀ f ∈ l, f ∈ k) : m.onlyRegs t k :=
  ⟨h.1, Mdl.keepsRegs_mono h.2 hl⟩

/-- Two changes, one after the other. -/
theorem Mdl.keepsRegs_trans {m t u : Mdl} {l k : List Fld} (h : m.keepsRegs t l) (h' : t.keepsRegs u k) : m.keepsRegs u (l ++ k) :=
  fun g hg => (h' g fun f hf => hg f (List.mem_append_right l hf)).trans (h g fun f hf => hg f (List.mem_append_left k hf))

/-! ### The register map -/

set_option maxRecDepth 100000 in
/-- No register of the map has two fields that begin at one bit. -/
theorem Reg.map_lo_nodup : Reg.map.all (fun r => decide ((r.fields.map (·.lo)).Nodup)) = true := by decide
/-- The fields that a word shows are told apart by their keys. -/
theorem fieldsAt_nodup (a : Nat) : ((fieldsAt a).map Fld.key).Nodup := by
  unfold fieldsAt
  cases h : Reg.find a with
  | none => simp
  | some p =>
    obtain ⟨r, b⟩ := p
    have hr : r ∈ Reg.map := by
      unfold Reg.find at h
      obtain ⟨r', hr', h2⟩ := List.exists_of_findSome?_eq_some h
      simp at h2
      obtain ⟨x, h3, h4, h5⟩ := h2
      rw [← h4]; exact hr'
    have h1 := List.all_eq_true.1 Reg.map_lo_nodup r hr
    simp only [decide_eq_true_eq] at h1
    have h2 : ((r.at b).map Fld.key).Nodup := by
      unfold RegD.at
      rw [List.map_map]
      have : (Fld.key ∘ fun f : Fld => { f with addr := b }) = (fun n => b * 1024 + n) ∘ (·.lo) := by
        funext f; rfl
      rw [this, ← List.map_map]
      exact h1.map (fun x y e => by simpa using e)
    exact h2.sublist (List.filter_sublist.map _)

end Sys2Proof.Machine
end

