-- ==== Sys2Proof/Laws/Ops.lean ====
section
/-! SUPPORT. What shared operations can do, each said once: the fault record, a plain register write, coupled fields, the end of a chart, tier, catalogue or
twin command. -/
namespace Sys2Proof.Machine

theorem Mdl.flag_iff (m : Mdl) (f : Fld) : m.flag f = true ↔ m.reg f = 1 := by simp [Mdl.flag]

/-- A command of a module that runs. -/
theorem next_whenOn {m t : Mdl} {q : List Instr} {f : Mdl → Mdl} (h : m.powered = true) (e : f m = t) :
    (Host.Outcome.next (State.whenOn ⟨m, q⟩ f) : Host.Outcome State Fault Refusal) = .next ⟨t, q⟩ := by
  rw [State.whenOn_on _ h, e]

/-- A register write of a module that runs and is ready. -/
theorem next_onBus {m t : Mdl} {q : List Instr} {f : Mdl → Mdl} (h : m.powered = true) (hr : 2 ≤ m.stage) (e : f m = t) :
    (Host.Outcome.next (State.onBus ⟨m, q⟩ f) : Host.Outcome State Fault Refusal) = .next ⟨t, q⟩ := by
  rw [State.onBus_ready _ h hr, e]

/-! ### The fault record (R51, R52) -/

/-- A fault found while VALID is 0: the log book, the fault log and the record take it, and an event is posted. -/
theorem Mdl.hierRecord_first (m : Mdl) (u : UnitAddr) (kind action : Nat) (hv : m.reg Reg.SVC_HIER_FAULT_VALID ≠ 1) :
    ∃ x : Mdl, x = { m with svc := x.svc } ∧ x.svc.hierLog.head? = some ⟨u, kind, action, m.epoch, m.svc.hierTotal + 1⟩ ∧
      m.hierRecord u kind action = (x.setRegs [(Reg.SVC_HIER_FAULT_VALID, 1), (Reg.SVC_HIER_FAULT_LEVEL, u.level.code),
        (Reg.SVC_HIER_FAULT_DIE, u.die), (Reg.SVC_HIER_FAULT_CLUSTER, u.cluster), (Reg.SVC_HIER_FAULT_CORE, u.core),
        (Reg.SVC_HIER_FAULT_LANE, u.lane), (Reg.SVC_HIER_FAULT_KIND, kind), (Reg.SVC_HIER_FAULT_ACTION, action),
        (Reg.SVC_HIER_FAULT_EPOCH_EPOCH, m.epoch)]).postEvent 0 0xC0 := by
  unfold Mdl.hierRecord
  dsimp only
  split
  case isTrue hn => exact absurd ((Mdl.flag_iff m _).1 hn) hv
  exact ⟨_, rfl, rfl, rfl⟩

/-- A fault found while VALID is 1: the log book and the fault log take it, and of the registers only OVERFLOW changes. -/
theorem Mdl.hierRecord_further (m : Mdl) (u : UnitAddr) (kind action : Nat) (hv : m.reg Reg.SVC_HIER_FAULT_VALID = 1) :
    ∃ x : Mdl, x = { m with svc := x.svc } ∧ x.svc.hierLog.head? = some ⟨u, kind, action, m.epoch, m.svc.hierTotal + 1⟩ ∧
      x.svc.logBook = (m.logBook 0x05 (hierWord u kind action)).svc.logBook ∧
      m.hierRecord u kind action = (x.setReg Reg.SVC_HIER_FAULT_OVERFLOW 1).postEvent 0 0xC0 := by
  unfold Mdl.hierRecord
  dsimp only
  split
  case isFalse hn => exact absurd ((Mdl.flag_iff m _).2 hv) hn
  refine ⟨_, ?_, ?_, ?_, rfl⟩ <;> rfl

/-! ### A plain register write (R6) -/

/-- Writing one field changes register fields alone, and no other field than it. -/
theorem Mdl.writeField_other (s : Mdl) (a v : Nat) {f g : Fld} (h : g.key ≠ f.key) : (s.writeField a v f).reg g = s.reg g := by
  unfold Mdl.writeField
  dsimp only
  split <;> (try split) <;> first | rfl | exact Mdl.reg_setReg_other _ _ h

theorem Mdl.writeField_eq (s : Mdl) (a v : Nat) (f : Fld) : s.writeField a v f = { s with regs := (s.writeField a v f).regs } := by
  unfold Mdl.writeField
  dsimp only
  split <;> (try split) <;> rfl

/-- Writing the fields of a list leaves a field that is not in it alone. -/
theorem Mdl.writeFields_other (a v : Nat) (g : Fld) (l : List Fld) : ∀ s : Mdl, (∀ f ∈ l, g.key ≠ f.key) →
    (l.foldl (fun (s : Mdl) f => s.writeField a v f) s).reg g = s.reg g := by
  induction l with
  | nil => intro s _; rfl
  | cons f t ih =>
    intro s h
    have ht : ∀ x ∈ t, g.key ≠ x.key := fun x hx => h x (List.mem_cons_of_mem _ hx)
    have hf : g.key ≠ f.key := h f List.mem_cons_self
    exact (ih (s.writeField a v f) ht).trans (s.writeField_other a v hf)

/-- What a field of a list of different fields reads as after the list is written: as after a write of it alone, in a state that differs only in the other
fields of the list. -/
theorem Mdl.writeFields_at (a v : Nat) (g : Fld) : ∀ (l : List Fld) (s : Mdl), (l.map Fld.key).Nodup → g ∈ l →
    ∃ s' : Mdl, s'.reg g = s.reg g ∧ (∀ x : Fld, (∀ f ∈ l, x.key ≠ f.key) → s'.reg x = s.reg x) ∧
      (l.foldl (fun (s : Mdl) f => s.writeField a v f) s).reg g = (s'.writeField a v g).reg g
  | [], _, _, h => absurd h List.not_mem_nil
  | f :: t, s, hn, hg => by
    rw [List.map_cons, List.nodup_cons] at hn
    rw [List.foldl_cons]
    rcases List.mem_cons.1 hg with rfl | hg
    · have ho : ∀ x ∈ t, g.key ≠ x.key := by
        intro x hx e
        exact hn.1 (by rw [e]; exact List.mem_map_of_mem hx)
      exact ⟨s, rfl, fun _ _ => rfl, Mdl.writeFields_other a v g t _ ho⟩
    · obtain ⟨s', h1, h2, h3⟩ := Mdl.writeFields_at a v g t (s.writeField a v f) hn.2 hg
      have hne : g.key ≠ f.key := by
        intro e
        exact hn.1 (by rw [← e]; exact List.mem_map_of_mem hg)
      refine ⟨s', h1.trans (s.writeField_other a v hne), fun x hx => ?_, h3⟩
      rw [h2 x fun y hy => hx y (List.mem_cons_of_mem _ hy)]
      exact s.writeField_other a v (hx f List.mem_cons_self)

/-! ### Coupled fields (R164) -/

/-- Every field of a coupled-field group lies at 0x6_0000 or above: the clock, Ephemeris and chart registers have none. -/
theorem groupFields_addr (g : Nat) (f : Fld) (h : f ∈ groupFields g) : 0x60000 ≤ f.addr := by
  unfold groupFields at h
  split at h
  · simp only [List.mem_cons, List.not_mem_nil, or_false] at h
    rcases h with rfl | rfl | rfl | rfl | rfl | rfl | rfl | rfl | rfl | rfl | rfl | rfl | rfl | rfl | rfl <;>
      simp [Reg.SQT_GRP_CFG_ENABLE, Reg.SQT_GRP_CFG_JOB_CLASS, Reg.SQT_GRP_CFG_PROGRAM, Reg.SQT_GRP_CFG_ACCOUNT, Reg.SQT_GRP_CFG_TOKENS_PER_PAGE,
        Reg.SQT_GRP_SHAPE_SET_PAGES, Reg.SQT_GRP_SHAPE_SET_DIES, Reg.SQT_GRP_SHAPE_JOIN_LOG2, Reg.SQT_GRP_SHAPE_EVENT_LOG2,
        Reg.SQT_GRP_SHAPE_POOL_PAGES, Reg.SQT_GRP_KV_BASE_ADDR, Reg.SQT_GRP_LIST_ADDR, Reg.SQT_GRP_PAGES_ADDR, Reg.SQT_GRP_JOIN_ADDR,
        Reg.SQT_GRP_EVENT_ADDR] <;> omega
  · split at h
    · simp only [List.mem_cons, List.not_mem_nil, or_false] at h
      rcases h with rfl | rfl | rfl | rfl | rfl | rfl <;>
        simp [Reg.TIR_MODEL_ID_MODEL, Reg.TIR_MODEL_ID_ACCOUNT, Reg.TIR_MODEL_LAYERS_ADDR, Reg.TIR_MODEL_LAYERS_COUNT,
          Reg.TIR_MODEL_ALMANAC_ADDR, Reg.TIR_MODEL_ALMANAC_COUNT] <;> omega
    · split at h
      · simp only [List.mem_cons, List.not_mem_nil, or_false] at h
        rcases h with rfl | rfl | rfl | rfl | rfl | rfl | rfl | rfl | rfl <;>
          simp [Reg.TIR_ACH_CFG_ENABLE, Reg.TIR_ACH_CFG_DIR, Reg.TIR_ACH_CFG_LOCAL_DIE, Reg.TIR_ACH_CFG_PEER_DIE, Reg.TIR_ACH_CFG_PEER_MODULE,
            Reg.TIR_ACH_CFG_SLOT_COUNT, Reg.TIR_ACH_CFG_ACCOUNT, Reg.TIR_ACH_CFG_SLOT_UNITS, Reg.TIR_ACH_BASE_BASE] <;> omega
      · cases h

/-- The register that holds an address begins at it or below it. -/
theorem Reg.find_le {a : Nat} {r : RegD × Nat} (h : Reg.find a = some r) : r.2 ≤ a := by
  obtain ⟨d, _, e⟩ := List.exists_of_findSome?_eq_some h
  obtain ⟨x, _, rfl⟩ := Option.map_eq_some_iff.1 e
  exact Nat.sub_le _ _

/-- No access below 0x6_0000 covers a coupled field. -/
theorem coupledAt_below {a : Nat} (h : a < 0x60000) : coupledAt a = none := by
  have e : ∀ r, Reg.find a = some r → groupOfAddr r.2 = none := by
    intro r hr
    unfold groupOfAddr
    rw [List.find?_eq_none]
    intro g _ hg
    rw [List.any_eq_true] at hg
    obtain ⟨f, hf, e⟩ := hg
    have := groupFields_addr g f hf
    have := Reg.find_le hr
    simp only [beq_iff_eq] at e
    omega
  unfold coupledAt
  cases hr : Reg.find a with
  | none => rfl
  | some r => simp [e r hr]

/-! ### How commands end -/

theorem Mdl.chartEnd_onlyRegs (m : Mdl) (e : Nat) : m.onlyRegs (m.chartEnd e) chartEndFields := m.onlyRegs_setRegs _
theorem Mdl.twinCmdEnd_onlyRegs (m : Mdl) (e : Nat) :
    m.onlyRegs (m.twinCmdEnd e) [Reg.TWN_CMD_STATUS_BUSY, Reg.TWN_CMD_STATUS_DONE, Reg.TWN_CMD_STATUS_ERR] := m.onlyRegs_setRegs _
theorem Mdl.catEndCmd_onlyRegs (m : Mdl) (e : Nat) :
    m.onlyRegs (m.catEndCmd e) [Reg.CAT_CMD_STATUS_BUSY, Reg.CAT_CMD_STATUS_DONE, Reg.CAT_CMD_STATUS_ERR] := m.onlyRegs_setRegs _
theorem Mdl.tierEnd_keepsRegs (m : Mdl) (e d : Nat) : m.keepsRegs (m.tierEnd e d)
    [Reg.TIR_CMD_STATUS_BUSY, Reg.TIR_CMD_STATUS_DONE, Reg.TIR_CMD_STATUS_ERR, Reg.TIR_CMD_STATUS_PAGES_DONE] :=
  by
  intro g hg
  rw [Mdl.tierEnd, Mdl.reg_setRegs_other]
  · rfl
  · intro p hp
    simp only [List.mem_cons, List.not_mem_nil, or_false] at hp hg
    rcases hp with rfl | rfl | rfl | rfl <;> exact hg _ (by simp)

end Sys2Proof.Machine
end

