-- ==== Sys2Proof/WellFormed.lean ====
section
/-! DEFINITION. Which commands a sender can send: numbers inside the fields that carry them, addresses aligned and inside their
windows, lists of a length their command admits. Every command has a meaning either way; these are the bounds the spec's tables give. -/
namespace Sys2Proof

open Machine

/-- A BAR2 access inside the 64 MiB window (Table 1-14), aligned to its size (R7, R561). -/
def busAddr (addr : Nat) (wide : Bool) : Bool := decide (addr < 0x4000000) && decide (addr % (if wide then 8 else 4) = 0)

/-- Bytes inside the 256 GiB host window (R566). -/
def windowSpan (addr n : Nat) : Bool := decide (1 ≤ n) && decide (addr + n ≤ 2 ^ 38)

/-- A function with an NVMe controller: a PF of either port or one of its 64 VFs (CNTLID, Table 12-6). -/
def ctlNumber (c : Nat) : Bool :=
  c == 1 || c == 2 || (decide (0x100 < c) && decide (c ≤ 0x140)) || (decide (0x200 < c) && decide (c ≤ 0x240))

/-- A unit of Table 1-8: fields below its level are 0. -/
def UnitAddr.wf (u : UnitAddr) : Bool :=
  let n := fun (k x hi : Nat) => if u.level.code ≤ k then decide (x < hi) else x == 0
  n 3 u.die 4 && n 2 u.cluster 26 && n 1 u.core 9 && n 0 u.lane 66

/-- R677's field widths. -/
def BayId.wf (b : BayId) : Bool :=
  decide (b.serial < 2 ^ 128) && decide (b.bay < 256) && decide (b.twinBay < 256) && decide (b.hint < 4096)

def PostFault.wf : PostFault → Bool
  | .lane d c k l => decide (d < 4) && decide (c < 26) && decide (k < 9) && decide (l < 66)
  | .hbm d => decide (d < 4)
  | .limuc n l => decide (n < 8) && decide (l < 9)

/-- A pass sends 1 to 256 rows through 1 to 64 logical lanes (R174). -/
def Pass.wf (p : Pass) : Bool := decide (1 ≤ p.rows) && decide (p.rows ≤ 256) && decide (1 ≤ p.lanes) && decide (p.lanes ≤ 64)
  && decide (p.fmtA < 256) && decide (p.fmtB < 256)

/-- Bytes that fall inside the plates (Table 4-1). -/
def Arrival.wf (a : Arrival) : Bool := decide (a.offset + a.bytes.length ≤ 3 * 2 ^ 19)

/-- Registers of a control engine (R221), on a logical core. -/
def GlueEffect.wf : GlueEffect → Bool
  | .plates k _ _ => decide (k < 8)
  | .store _ _ | .memory _ _ => true
  | .scalar k r v => decide (k < 8) && decide (r < 32) && decide (v < 2 ^ 64)
  | .vector k r v => decide (k < 8) && decide (r < 32) && decide (v < 2 ^ 512)

def CwRead.wf (c : CwRead) : Bool := decide (c.group < 16) && decide (c.row < 512) && decide (c.cw < 16) && decide (1 ≤ c.step) && decide (c.step ≤ 5)
def HbmHit.wf (h : HbmHit) : Bool := decide (h.stack < 8)
def HbmUnit.wf (u : HbmUnit) : Bool := decide (u.stack < 8)
def CartId.wf (c : CartId) : Bool :=
  (c.badBlocks.all fun p => decide (p.1 < 128) && decide (p.2 < 8448)) && (c.offsets.all fun p => decide (p.1 < 32768) && decide (p.2 < 256))
    && c.counters.all fun p => decide (p.1 < 64) && decide (p.2 < 2 ^ 512)

def SramFault.wf : SramFault → Bool
  | .clusterStore d c => decide (d < 4) && decide (c < 26)
  | .domeTag d _ => decide (d < 4)
  | .domeData _ | .hubBuffer _ | .serviceSram => true

/-- The header fields of Table 13-5. -/
def LMsg.wf (m : LMsg) : Bool :=
  decide (m.type < 256) && decide (m.tc < 8) && decide (m.hops < 16) && decide (m.dst < 4096) && decide (m.src < 4096)
    && decide (m.tag < 65536) && decide (m.addr < 2 ^ 52) && decide (m.status < 16) && decide (m.data.length ≤ 2040) && decide (m.data.length % 8 = 0)

def InitMsg.wf (i : InitMsg) : Bool := decide (i.module < 4096) && decide (i.link < 8) && decide (i.serial < 2 ^ 64) && decide (i.role < 4)

/-- Table 13-3: whole messages in a body of 248 bytes (R621). -/
def Flit.wf (f : Flit) : Bool :=
  decide (f.seq < 1024) && decide (f.ack < 1024) && f.msgs.all LMsg.wf
    && decide ((f.msgs.map fun m => 16 + m.data.length).foldl (· + ·) 0 ≤ 248)

/-- The payload fields of Table 2-2. -/
def TransitMsg.wf (m : TransitMsg) : Bool :=
  decide (m.epoch < 2 ^ 48) && decide (m.srcModule < 4096) && decide (m.hops < 256) && decide (m.state < 4) && decide (m.pathDelay < 2 ^ 32)
    && decide (m.period < 2 ^ 32) && decide (m.nextPeriod < 2 ^ 32) && decide (m.nextEpoch < 2 ^ 48)

/-- Measurements that fit the fields of PWR_THERMAL and PWR_INPUT (Table 14-15). -/
def Climate.wf (m : Climate) : Bool :=
  decide (m.sensor < 256) && decide (m.hottest < 65536) && decide (m.inlet < 65536) && decide (m.flow < 65536) && decide (m.volts < 65536)
    && decide (m.watts < 65536)

def MemRange.wf (r : MemRange) : Bool := decide (r.nsid < 2 ^ 32) && decide (1 ≤ r.len)
def SrcRange.wf (r : SrcRange) : Bool := decide (r.nsid < 2 ^ 32) && decide (1 ≤ r.len)
def PlanImage.wf (p : PlanImage) : Bool := p.work.all fun w => decide (w.1 < 100)

def NsSpec.wf : NsSpec → Bool
  | .nvm _ c | .zoned _ c => decide (c < 256)
  | .memory a b n => decide (a < 65536) && decide (b + n ≤ 2 ^ 47)

def Tunnel.wf : Tunnel → Bool
  | .identifyController => true
  | .identifyNamespace n => decide (n < 2 ^ 32)
  | .getLogPage p _ => decide (p < 256)
  | .getFeatures i => decide (i < 256)
  | .securitySend n b => decide (n < 65536) && decide (1 ≤ b.length)
  | .securityReceive n => decide (n < 65536)

/-- A command that a sender can send. -/
def Instr.wf : Instr → Bool
  | .registerWrite addr wide value => busAddr addr wide && decide (value < 2 ^ (if wide then 64 else 32))
  | .readClearRegisterRead addr wide => busAddr addr wide
  | .bar2BadAccess bytes _ => decide (0 < bytes)
  | .powerUp _ energy bay present _ => decide (energy < 65536) && bay.wf && decide (present < 512)
  | .moduleInsert => true
  | .holdupCharged _ => true
  | .holdupMeasure energy _ => decide (energy < 65536)
  | .inputOutOfRange _ => true
  | .perstAssert => true
  | .portHotReset _ => true
  | .functionLevelReset ctl => ctlNumber ctl
  | .configRequest fn => ctlNumber fn
  | .d3hotEntry fn => ctlNumber fn
  | .shutdownNotification ctl => ctlNumber ctl
  | .controllerEnable ctl => ctlNumber ctl
  | .laneDatapathFault _ _ _ _ kind => decide (kind < 256)
  | .laneBypass _ _ _ => true
  | .coreClusterFault _ _ _ kind => decide (kind < 256)
  | .dieFault _ kind => decide (kind < 256)
  | .packageFault kind => decide (kind < 256)
  | .serviceProcessorTakeover => true
  | .inPackageLinkFailure n => decide (n < 256)
  | .regulatorPhaseFault rail _ => decide (rail < 256)
  | .hbmStackFailure _ => true
  | .partialLoad _ _ => true
  | .partialLoadDone _ _ _ _ => true
  | .domainReq domain _ => decide (domain < 32)
  | .domainSwitchDone domain => decide (domain < 32)
  | .slotPower slot _ => decide (slot < 16)
  | .attnPressRelease _ => true
  | .attnHold5s => true
  | .transitEdge _ _ _ => true
  | .transitMessage _ _ m _ => TransitMsg.wf m
  | .epochBoundary _ => true
  | .holdoverEntry => true
  | .holdoverExpiry => true
  | .acquireNoEdge _ => true
  | .acqTimeout => true
  | .reacquire => true
  | .sourceSelect _ => true
  | .epochSet _ => true
  | .periodWrite _ _ => true
  | .arm => true
  | .disarm => true
  | .shadowBankWrite addr wide value => busAddr addr wide && decide (value < 2 ^ (if wide then 64 else 32))
  | .windowOpen _ => true
  | .windowEnd _ _ => true
  | .eraseSuspendWindow _ _ _ => true
  | .eraseBank _ => true
  | .eraseBankDone _ => true
  | .programBank _ data => decide (data.length ≤ 2 ^ 24)
  | .programBankDone _ => true
  | .verifyBank _ => true
  | .loadFull _ => true
  | .quiesceTimeout _ _ => true
  | .chartApply => true
  | .loadPartial ld lc => decide (ld < 4) && decide (lc < 32)
  | .setOption record auth => decide (record.length = 4096) && decide (auth.length ≤ 4096)
  | .chartAbort => true
  | .coupledFieldWrite addr wide value => busAddr addr wide && decide (value < 2 ^ (if wide then 64 else 32))
  | .cplCommit _ => true
  | .coupledCommitApply group => decide (group < 65536)
  | .couplingHoldTimeout => true
  | .passBoundary _ _ _ p _ arrived => p.wf && arrived.all Arrival.wf
  | .weightSlotWrite _ _ _ _ _ _ _ off _ _ arrived => decide (off < 3 * 2 ^ 19) && arrived.all Arrival.wf
  | .rowFreeze _ _ _ _ _ => true
  | .freezeEnd _ _ _ => true
  | .dummyRampDown _ _ _ => true
  | .dummyGapEnd _ _ _ _ => true
  | .rowTotalWrite _ _ _ _ _ arrived => arrived.all Arrival.wf
  | .drainReadRow _ _ _ _ _ => true
  | .drainWriteRow _ _ _ batch m n => decide (batch < 65536) && decide (m < 2 ^ 32) && decide (n < 2 ^ 32)
  | .selfTestSegment _ _ _ _ _ _ => true
  | .coreEccCorrected _ _ _ _ => true
  | .coreEccUncorrectable _ _ _ _ _ place _ _ => decide (place < 3 * 2 ^ 19)
  | .controlEngineFault _ _ _ _ => true
  | .controlEngineWatchdog _ _ _ => true
  | .mma _ _ _ => true
  | .mmaChain _ _ _ => true
  | .reduce _ _ _ => true
  | .select _ _ _ => true
  | .scanCodes _ _ _ => true
  | .filter _ _ _ => true
  | .convert _ _ _ => true
  | .copy _ _ _ => true
  | .atomicAdd _ _ _ => true
  | .macroComplete _ _ effects => effects.all GlueEffect.wf
  | .macroFault _ _ code => decide (code < 256)
  | .markReached _ _ => true
  | .contextSaveDone _ _ => true
  | .eyeHalt _ _ => true
  | .eyeResume _ _ => true
  | .eyeHalted _ _ => true
  | .eyeDataRead _ _ _ => true
  | .compensatedAdd _ addr _ => decide (addr < 2 ^ 47) && decide (addr % 8 = 0)
  | .demandPromotion _ page _ _ => decide (page < 2 ^ 26)
  | .coudeReadDone => true
  | .farPageWrite _ page => decide (page < 2 ^ 26)
  | .farWriteDone _ page => decide (page < 2 ^ 26)
  | .watermarkSweep => true
  | .map _ _ _ => true
  | .unmap _ _ _ => true
  | .pin _ _ _ => true
  | .unpin _ _ _ => true
  | .move _ _ _ => true
  | .setHome _ _ _ => true
  | .modelLoad _ => true
  | .modelUnload _ => true
  | .almanacPhaseTrigger _ => true
  | .achEnable _ _ => true
  | .actSlotArrived _ _ => true
  | .actCredit _ _ => true
  | .swapOutDone _ => true
  | .cancel _ => true
  | .resume _ => true
  | .jobDispatch _ _ => true
  | .engineTimeCharge _ _ _ => true
  | .preemptDeferExpiry _ _ => true
  | .semAcquire _ _ _ _ => true
  | .semRelease _ _ _ _ => true
  | .jobEnd _ => true
  | .attach _ _ => true
  | .catalogueAttached _ => true
  | .stage _ _ => true
  | .unstage _ _ => true
  | .detach _ _ => true
  | .delete _ _ => true
  | .searchBatch cid ctl set params => decide (cid < 2 ^ 32) && ctlNumber ctl && decide (set < 65536) && decide (params.length ≤ 2 ^ 32)
  | .sweepStart _ _ receiving => decide (receiving ≤ 200)
  | .flashRead _ _ _ _ cws _ => decide (1 ≤ cws) && decide (cws ≤ 16)
  | .flashReadDone _ _ _ _ _ cws => cws.all CwRead.wf
  | .flashProgram _ _ _ => true
  | .programEnd _ _ _ => true
  | .flashErase _ _ _ => true
  | .eraseEnd _ _ _ => true
  | .eraseResume _ _ _ => true
  | .erasedStateCheck _ _ worst => decide (worst < 2 ^ 16)
  | .sramUncorrectable m => m.wf
  | .hbmCorrectable unit => HbmUnit.wf unit
  | .hbmUncorrectable unit => HbmUnit.wf unit
  | .scrubStart _ _ => true
  | .scrubStop _ => true
  | .scrubStripe _ _ cws => cws.all CwRead.wf
  | .scrubHbm _ _ hits => hits.all HbmHit.wf
  | .rawRead _ => true
  | .fillSealTimeout _ => true
  | .merge _ => true
  | .copyVerifyCommit _ _ => true
  | .cartridgeLost _ => true
  | .migrationStart => true
  | .bringIn => true
  | .migrationEnd => true
  | .journalBlockWrite _ => true
  | .checkpointWrite => true
  | .mapRestore _ => true
  | .nvmeRead cid ctl nsid lba n =>
    decide (cid < 2 ^ 32) && ctlNumber ctl && decide (nsid < 2 ^ 32) && decide (lba < 2 ^ 64) && decide (1 ≤ n) && decide (n ≤ 65536)
  | .nvmeWrite cid ctl nsid lba data =>
    decide (cid < 2 ^ 32) && ctlNumber ctl && decide (nsid < 2 ^ 32) && decide (lba < 2 ^ 64) && decide (1 ≤ data.length) && decide (data.length ≤ 65536)
  | .writeZeroes cid ctl nsid lba n =>
    decide (cid < 2 ^ 32) && ctlNumber ctl && decide (nsid < 2 ^ 32) && decide (lba < 2 ^ 64) && decide (1 ≤ n) && decide (n ≤ 65536)
  | .flush cid ctl => decide (cid < 2 ^ 32) && ctlNumber ctl
  | .datasetManagement cid ctl nsid ranges =>
    decide (cid < 2 ^ 32) && ctlNumber ctl && decide (nsid < 2 ^ 32) && decide (1 ≤ ranges.length) && decide (ranges.length ≤ 256)
  | .secureDeallocate cid ctl nsid ranges =>
    decide (cid < 2 ^ 32) && ctlNumber ctl && decide (nsid < 2 ^ 32) && decide (1 ≤ ranges.length) && decide (ranges.length ≤ 256)
  | .nvmeCopy cid ctl nsid dst ranges =>
    decide (cid < 2 ^ 32) && ctlNumber ctl && decide (nsid < 2 ^ 32) && decide (dst < 2 ^ 64) && decide (1 ≤ ranges.length) && ranges.all SrcRange.wf
  | .zoneAppend cid ctl nsid zslba data =>
    decide (cid < 2 ^ 32) && ctlNumber ctl && decide (nsid < 2 ^ 32) && decide (zslba < 2 ^ 64) && decide (1 ≤ data.length) && decide (data.length ≤ 65536)
  | .zoneOpen cid ctl nsid zslba => decide (cid < 2 ^ 32) && ctlNumber ctl && decide (nsid < 2 ^ 32) && decide (zslba < 2 ^ 64)
  | .zoneFinish cid ctl nsid zslba => decide (cid < 2 ^ 32) && ctlNumber ctl && decide (nsid < 2 ^ 32) && decide (zslba < 2 ^ 64)
  | .zoneReset cid ctl nsid zslba => decide (cid < 2 ^ 32) && ctlNumber ctl && decide (nsid < 2 ^ 32) && decide (zslba < 2 ^ 64)
  | .rangeLockRelease cid ctl => decide (cid < 2 ^ 32) && ctlNumber ctl
  | .abort cid ctl target _ => decide (cid < 2 ^ 32) && ctlNumber ctl && decide (target < 2 ^ 32)
  | .identifyController cid ctl => decide (cid < 2 ^ 32) && ctlNumber ctl
  | .identifyNamespace cid ctl nsid => decide (cid < 2 ^ 32) && ctlNumber ctl && decide (nsid < 2 ^ 32)
  | .namespaceCreate cid ctl spec => decide (cid < 2 ^ 32) && ctlNumber ctl && spec.wf
  | .namespaceDelete cid ctl nsid => decide (cid < 2 ^ 32) && ctlNumber ctl && decide (nsid < 2 ^ 32)
  | .virtualizationManagement cid ctl vf _ n => decide (cid < 2 ^ 32) && ctlNumber ctl && ctlNumber vf && decide (256 < vf) && decide (n < 65536)
  | .loadProgram cid ctl program image => decide (cid < 2 ^ 32) && ctlNumber ctl && decide (program < 65536) && image.wf
  | .programActivation cid ctl program _ => decide (cid < 2 ^ 32) && ctlNumber ctl && decide (program < 65536)
  | .createMemoryRangeSet cid ctl ranges => decide (cid < 2 ^ 32) && ctlNumber ctl && ranges.all MemRange.wf
  | .executeProgram cid ctl program set params =>
    decide (cid < 2 ^ 32) && ctlNumber ctl && decide (program < 65536) && decide (set < 65536) && decide (params.length ≤ 2 ^ 32)
  | .memoryRead cid ctl nsid start len =>
    decide (cid < 2 ^ 32) && ctlNumber ctl && decide (nsid < 2 ^ 32) && decide (start < 2 ^ 64) && decide (len < 2 ^ 64)
  | .memoryWrite cid ctl nsid start data =>
    decide (cid < 2 ^ 32) && ctlNumber ctl && decide (nsid < 2 ^ 32) && decide (start < 2 ^ 64) && decide (1 ≤ data.length)
  | .memoryCopy cid ctl nsid dst ranges =>
    decide (cid < 2 ^ 32) && ctlNumber ctl && decide (nsid < 2 ^ 32) && decide (dst < 2 ^ 64) && decide (1 ≤ ranges.length) && ranges.all SrcRange.wf
  | .formatNvm cid ctl nsid ses => decide (cid < 2 ^ 32) && ctlNumber ctl && decide (nsid < 2 ^ 32) && decide (ses < 8)
  | .sanitize cid ctl _ => decide (cid < 2 ^ 32) && ctlNumber ctl
  | .getLogPage cid ctl page _ => decide (cid < 2 ^ 32) && ctlNumber ctl && decide (page < 256)
  | .hostWindowRead addr n => windowSpan addr n
  | .hostWindowWrite addr data => windowSpan addr data.length
  | .hostWindowTimeout => true
  | .securityNonce cid ctl => decide (cid < 2 ^ 32) && ctlNumber ctl
  | .debugUnlock cid ctl block => decide (cid < 2 ^ 32) && ctlNumber ctl && decide (1 ≤ block.length)
  | .debugUnlockRelease cid ctl => decide (cid < 2 ^ 32) && ctlNumber ctl
  | .ownershipRelease cid ctl block => decide (cid < 2 ^ 32) && ctlNumber ctl && decide (1 ≤ block.length)
  | .getVersion => true
  | .getCapabilities => true
  | .negotiateAlgorithms => true
  | .getDigests => true
  | .getCertificate slot => decide (slot < 16)
  | .challenge nonce => decide (nonce < 2 ^ 256)
  | .getMeasurements index => decide (index < 256)
  | .keyExchange session => decide (session < 2 ^ 32)
  | .finish session => decide (session < 2 ^ 32)
  | .endSession session => decide (session < 2 ^ 32)
  | .readNvmeMiDataStructure type => decide (type < 256)
  | .subsystemHealthStatusPoll => true
  | .controllerHealthStatusPoll ctl => ctlNumber ctl
  | .configurationGet id => decide (id < 256)
  | .configurationSet id value => decide (id < 256) && decide (value < 2 ^ 32)
  | .vpdRead _ off n => decide (off < 2 ^ 18) && decide (1 ≤ n)
  | .tunnelledAdminCommand command => command.wf
  | .identifyMemoryDevice => true
  | .getHealthInfo => true
  | .getSupportedLogs => true
  | .getLog => true
  | .getEventRecords => true
  | .clearEventRecords n => decide (n < 65536)
  | .globalPersistentFlush => true
  | .linkDetect _ bad => decide (bad < 512)
  | .linkTrained _ init delay => init.wf && decide (delay < 2 ^ 32)
  | .linkTrainTimeout _ => true
  | .limucLaneRetire _ _ => true
  | .linkReplayLimit _ => true
  | .linkRecovered _ => true
  | .linkRecoverTimeout _ => true
  | .linkDisable _ => true
  | .flitReceive _ f _ _ => f.wf
  | .nakReceive _ ack => decide (ack < 1024)
  | .probeSend _ _ => true
  | .probe _ m _ => m.wf
  | .credit _ m => m.wf
  | .read64 _ m => m.wf
  | .write64 _ m => m.wf
  | .cadd _ m => m.wf
  | .bulk _ m => m.wf
  | .act _ m => m.wf
  | .dir _ m => m.wf
  | .dirBcast _ m => m.wf
  | .rdata _ m => m.wf
  | .wack _ m => m.wf
  | .back _ m => m.wf
  | .aack _ m => m.wf
  | .dirr _ m => m.wf
  | .twack _ m _ => m.wf
  | .tcrsp _ m => m.wf
  | .notReadyRetry tag => decide (tag < 65536)
  | .spanRequestTimeout tag => decide (tag < 65536)
  | .flitHoldDiscard _ => true
  | .join _ m => m.wf
  | .alive _ m => m.wf
  | .heartbeatSend => true
  | .peerState _ m => m.wf
  | .memberHeartbeatMiss _ => true
  | .masterChange _ m => m.wf
  | .dirSync _ m => m.wf
  | .mapReq _ m => m.wf
  | .partnerQuery _ m => m.wf
  | .masterHeartbeatMiss => true
  | .takeover => true
  | .twinWrite _ m => m.wf
  | .twinOp _ m => m.wf
  | .twinCkpt _ m => m.wf
  | .twinCopy _ m => m.wf
  | .twinMap _ m => m.wf
  | .hello _ m => m.wf
  | .twinDetachNotice _ m => m.wf
  | .resyncDone _ m => m.wf
  | .pairedNotice _ m => m.wf
  | .picked _ m => m.wf
  | .resyncCopy _ first n => decide (1 ≤ n) && decide (first.val + n ≤ 122880)
  | .twackTimeout => true
  | .twinDetach => true
  | .rejoin => true
  | .forceSolo => true
  | .pick => true
  | .coldReset _ bay present => bay.wf && decide (present < 512)
  | .warmReset => true
  | .svcLockSet => true
  | .powerOnSelfTest _ bad => bad.all PostFault.wf
  | .refurbBegin => true
  | .retest => true
  | .retestDone bad => bad.all UnitAddr.wf
  | .refurbEnd => true
  | .exportSet _ => true
  | .calibrationWrite data _ _ => decide (data.length ≤ 4096)
  | .cartridgeInsert _ id => CartId.wf id
  | .cartridgePull _ => true
  | .thermalStepRise m _ => Climate.wf m
  | .thermalStepFall m => Climate.wf m
  | .cartridgeThermalHold _ temp => decide (temp < 65536)
  | .perstDeassert => true
  | .noHello => true
  | .cartridgeThermalRelease _ temp => decide (temp < 65536)
  | .linkAckCreditTimer _ => true

end Sys2Proof
end

