-- ==== Sys2Proof/Tests/Slice0.lean ====
section
/-! SUPPORT. Tests: ill-formed commands, states that meet the hypotheses of every statement, and single steps whose results the spec's tables and rules
give. -/
namespace Sys2Proof.Tests

open Machine

/-! ### Small states -/

/-- A module that runs and is ready: after reset, with P54 present. -/
def live : Mdl := { Mdl.reset with svc := { SvcSt.init with started := true, p54 := true } }.setReg Reg.SVC_STATUS_STAGE 2

/-- Such a module with some fields set. -/
def liveWith (l : List (Fld × Nat)) : Mdl := live.setRegs l

/-- Such a module with power but not ready: its timeline is in stage 1. -/
def starting : Mdl := live.setReg Reg.SVC_STATUS_STAGE 1

/-- A module whose clusters of die 0 are all in service. -/
def served (l : List (Fld × Nat)) : Mdl := liveWith ([(Reg.SVC_DIE_MAP_DIE_INSERVICE, 15), (Reg.SVC_CLU_MAP_CLU_INSERVICE 0, 0x3FFFFFF)] ++ l)

/-- A chart with one die and no frames' contents. -/
def chart0 : Chart :=
  { dieCount := 1, chartId := 0, version := 0, security := 0, headerHash := 0, roles := [], layers := [], personalities := [], plates := []
    routes := [], span := .outside, cycleLen := 16, period := 0, ephemeris := [], ecc := Chart.defaultEcc, quotas := [], offMask := 0, coupled := [] }

def twinChart : Chart := { chart0 with span := { SpanCfg.outside with twin := true } }

/-- A job of account 5 with no work. -/
def job5 : Job :=
  { acct := 5, cls := 0, plan := 0, estimate := 0, charged := 0, context := none, outCh := none, inCh := none, outSlot := none, inSlot := none
    cid := some (7, 1), discard := false, group := none, work := [], params := [], order := 0, chartGen := 0, started := true, status := none
    faultCode := 0, pageKind := 0, inherited := [], catalogue := none, issued := 0, completed := 0 }

/-! ### States that meet the hypotheses of the statements -/

/-- The completion statements, the step's statement, `LockIsSet` and `CorrectedCoreErrorsSaturate`. -/
theorem test_meets_Completion : live.powered = true ∧ 2 ≤ live.stage ∧ Mdl.reset.powered = false := by decide

theorem test_meets_WithoutPowerNothingHappens : Mdl.reset.powered = false ∧ wakes .arm = false := by decide

theorem test_meets_OnlyPowerUpStartsTheModule :
    State.offForGood ⟨.reset, [.moduleInsert, .arm]⟩ ∧ step ⟨.reset, [.moduleInsert, .arm]⟩ = .next ⟨Mdl.reset.moduleInsert, [.arm]⟩ :=
  ⟨⟨by decide, by decide, by decide, by decide⟩, rfl⟩

theorem test_meets_WritesAreIgnoredUntilReady : starting.stage < 2 ∧ isBusWrite .arm = true ∧
    Reg.SVC_CTRL_LOCATE.addr ≠ Reg.SVC_RESET_KEY.addr ∧ Reg.SVC_RESET_KEY.addr + 4 ≠ Reg.SVC_RESET_KEY.addr := by decide

theorem test_meets_BadWidthOrAlignmentHasNoEffect : live.powered = true ∧ 0x8402 % 4 ≠ 0 ∧ 0x8404 % 8 ≠ 0 := by decide

/-- A word of write-1-to-clear and read-only fields: SVC_HIER_FAULT, with VALID set. -/
theorem test_meets_AccessTypesGovernPlainWrites_clear :
    let m := liveWith [(Reg.SVC_HIER_FAULT_VALID, 1)]
    m.powered = true ∧ 2 ≤ m.stage ∧ 0x8400 % 4 = 0 ∧ (∀ f ∈ fieldsAt 0x8400, f.key ≠ Reg.SVC_LOCK_LOCK.key) ∧ m.deadWindow 0x8400 = false ∧
      m.spareWindow 0x8400 = false ∧ coupledAt 0x8400 = none ∧ m.writeClock 0x8400 1 = none ∧ m.writeBlock 0x8400 1 = none ∧
      Reg.SVC_HIER_FAULT_VALID ∈ fieldsAt 0x8400 ∧ Reg.SVC_HIER_FAULT_VALID.acc = .rw1c ∧ m.reg Reg.SVC_HIER_FAULT_VALID = 1 ∧
      Reg.SVC_HIER_FAULT_LEVEL ∈ fieldsAt 0x8400 ∧ Reg.SVC_HIER_FAULT_LEVEL.acc = .ro := by decide

/-- A word of one locked field: PWR_CAP, with SVC_LOCK set. -/
theorem test_meets_AccessTypesGovernPlainWrites_locked :
    let m := liveWith [(Reg.SVC_LOCK_LOCK, 1)]
    let a := Reg.PWR_CAP_CAP_W.addr
    m.powered = true ∧ 2 ≤ m.stage ∧ a % 4 = 0 ∧ (∀ f ∈ fieldsAt a, f.key ≠ Reg.SVC_LOCK_LOCK.key) ∧ m.deadWindow a = false ∧
      m.spareWindow a = false ∧ coupledAt a = none ∧ m.writeClock a 700 = none ∧ m.writeBlock a 700 = none ∧
      Reg.PWR_CAP_CAP_W ∈ fieldsAt a ∧ Reg.PWR_CAP_CAP_W.acc = .rwl ∧ m.reg Reg.SVC_LOCK_LOCK = 1 := by decide

/-- A word of a read-write field that ignores no value: SVC_CTRL. -/
theorem test_meets_AccessTypesGovernPlainWrites_write :
    let f := Reg.SVC_CTRL_LOCATE
    1 < 2 ^ 32 ∧ f.addr % 4 = 0 ∧ live.deadWindow f.addr = false ∧ live.spareWindow f.addr = false ∧ coupledAt f.addr = none ∧
      live.writeClock f.addr 1 = none ∧ live.writeBlock f.addr 1 = none ∧ f ∈ fieldsAt f.addr ∧ f.acc = .rw := by decide

/-- A word of a read-to-clear field: EPH_OVERRUN. -/
theorem test_meets_AccessTypesGovernPlainWrites_readClear :
    let f := Reg.EPH_OVERRUN_OVERRUNS 0
    f.addr % 4 = 0 ∧ coupledAt f.addr = none ∧ live.writeClock f.addr 1 = none ∧ live.writeBlock f.addr 1 = none ∧ f ∈ fieldsAt f.addr ∧
      f.acc = .rc := by decide

theorem test_meets_AccessTypesGovernPlainWrites_takesAll (x : Mdl) :
    x.ignored Reg.SVC_CTRL_LOCATE (Reg.SVC_CTRL_LOCATE.merge Reg.SVC_CTRL_LOCATE.addr 0 1) = false := by
  have h : decide (Reg.SVC_CTRL_LOCATE.key = Reg.FTL_FAR_LIMIT_LIMIT.key) = false := by decide
  simp only [Mdl.ignored, h, Bool.false_and]
  decide

theorem test_meets_ShortPressTogglesLocate : live.powered = true ∧ 2000 ≤ 2000 ∧ 1999 < 2000 ∧ live.reg Reg.SVC_CTRL_LOCATE = 0 ∧
    (liveWith [(Reg.SVC_CTRL_LOCATE, 1)]).powered = true ∧ (liveWith [(Reg.SVC_CTRL_LOCATE, 1)]).reg Reg.SVC_CTRL_LOCATE = 1 := by decide

theorem test_meets_InputPowerGovernsTheAlwaysOnDomains : Mdl.reset.svc.p54 = false ∧ live.svc.p54 = true := by decide

/-- Just below the 16 J of LOW, and at it. -/
theorem test_meets_HoldupMeasurementSetsLow : live.powered = true ∧ 1599 < 2 ^ 16 ∧ 1599 < 1600 ∧ 1600 < 2 ^ 16 ∧ ¬ 1600 < 1600 := by decide

theorem test_meets_SlotSwitchFollowsTheRole :
    let m := liveWith [(Reg.MED_SLOT_STATUS_PRESENT 0, 1), (Reg.MED_SLOT_STATUS_ROLE 0, 1), (Reg.MED_SLOT_STATUS_PRESENT 8, 1),
      (Reg.MED_SLOT_STATUS_ROLE 8, 2), (Reg.MED_SLOT_STATUS_PRESENT 7, 1), (Reg.MED_SLOT_STATUS_PRESENT 1, 0), (Reg.MED_SLOT_STATUS_ROLE 7, 0)]
    m.powered = true ∧ 2 ≤ m.stage ∧ 9 ≤ 9 ∧ m.reg (Reg.MED_SLOT_STATUS_PRESENT 1) ≠ 1 ∧
      (8 < 9 ∧ m.reg (Reg.MED_SLOT_STATUS_PRESENT 8) = 1 ∧ m.reg (Reg.MED_SLOT_STATUS_ROLE 8) = 2) ∧
      (m.reg (Reg.MED_SLOT_STATUS_PRESENT 0) = 1 ∧ m.reg (Reg.MED_SLOT_STATUS_ROLE 0) = 1) ∧
      m.reg (Reg.MED_SLOT_STATUS_PRESENT 7) = 1 ∧ m.reg (Reg.MED_SLOT_STATUS_ROLE 7) ≠ 1 ∧ m.reg (Reg.MED_SLOT_STATUS_ROLE 7) ≠ 2 := by decide

/-- BEGIN that is accepted, not twinned and detached; BEGIN that is refused, for each reason; RETEST and END in their order. -/
theorem test_meets_RefurbishmentRunsInOrder :
    (live.reg Reg.SVC_REFURB_ACTIVE ≠ 1 ∧ live.cht.opt.ownerState = 0 ∧ live.reg Reg.TWN_STATUS_STATE = 0 ∧ (∀ p ∈ live.sch.jobs, p.2 = none) ∧
      ∀ p ∈ live.cats, p.2.state = .detached) ∧
    ((liveWith [(Reg.TWN_STATUS_STATE, 6)]).reg Reg.TWN_STATUS_STATE = 6 ∧ (liveWith [(Reg.TWN_STATUS_STATE, 6)]).reg Reg.SVC_REFURB_ACTIVE ≠ 1) ∧
    (let m := { live with cht := { live.cht with opt := { live.cht.opt with ownerState := 1 } } };
      m.powered = true ∧ 2 ≤ m.stage ∧ m.reg Reg.SVC_REFURB_ACTIVE ≠ 1 ∧ m.cht.opt.ownerState ≠ 0) ∧
    ((liveWith [(Reg.TWN_STATUS_STATE, 4)]).reg Reg.TWN_STATUS_STATE ≠ 0 ∧ (liveWith [(Reg.TWN_STATUS_STATE, 4)]).reg Reg.TWN_STATUS_STATE ≠ 6) ∧
    (let m := live.setJob 0 (some job5);
      m.powered = true ∧ 2 ≤ m.stage ∧ m.reg Reg.SVC_REFURB_ACTIVE ≠ 1 ∧ ∃ p ∈ m.sch.jobs, p.2 ≠ none) ∧
    (let m := { live with cats := [(0, { CatSt.init with state := .serving })] };
      m.powered = true ∧ 2 ≤ m.stage ∧ m.reg Reg.SVC_REFURB_ACTIVE ≠ 1 ∧ ∃ p ∈ m.cats, p.2.state ≠ .detached) ∧
    (let m := liveWith [(Reg.SVC_REFURB_ACTIVE, 1)];
      m.powered = true ∧ 2 ≤ m.stage ∧ m.reg Reg.SVC_REFURB_ACTIVE = 1 ∧ m.reg Reg.SVC_REFURB_BUSY ≠ 1) ∧
    (let m := liveWith [(Reg.SVC_REFURB_ACTIVE, 1), (Reg.SVC_REFURB_BUSY, 1)];
      m.powered = true ∧ 2 ≤ m.stage ∧ m.reg Reg.SVC_REFURB_ACTIVE = 1 ∧ m.reg Reg.SVC_REFURB_BUSY = 1) := by decide

theorem test_meets_FurtherFaultKeepsTheRecord :
    let m := liveWith [(Reg.SVC_HIER_FAULT_VALID, 1)]
    m.powered = true ∧ m.reg Reg.SVC_HIER_FAULT_VALID = 1 := by decide

/-- The last unit of each kind, the greatest kind and action, the greatest epoch number. -/
theorem test_meets_FirstFaultIsRecorded :
    let m := liveWith [(Reg.TRN_EPOCH_EPOCH, 2 ^ 48 - 1)]
    let u : UnitAddr := ⟨.engine, 3, 25, 8, 65⟩
    m.reg Reg.SVC_HIER_FAULT_VALID ≠ 1 ∧ u.die < 4 ∧ u.cluster < 26 ∧ u.core < 9 ∧ u.lane < 66 ∧ 255 < 256 ∧ m.epoch < 2 ^ 48 ∧ m.epoch = 2 ^ 48 - 1 := by decide

theorem test_meets_StandbyServiceProcessorTakesOver :
    (live.powered = true ∧ live.reg Reg.SVC_STATUS_SP ≠ 1 ∧ live.reg Reg.SVC_HIER_FAULT_VALID ≠ 1) ∧
      (liveWith [(Reg.SVC_STATUS_SP, 1)]).powered = true ∧ (liveWith [(Reg.SVC_STATUS_SP, 1)]).reg Reg.SVC_STATUS_SP = 1 := by decide

theorem test_meets_FaultOfARetiredUnitIsOnlyRecorded :
    let r := { live with svc := { live.svc with retired := [⟨.engine, 3, 25, 8, 65⟩, ⟨.core, 0, 0, 0, 0⟩, ⟨.cluster, 1, 25, 0, 0⟩, ⟨.die, 3, 0, 0, 0⟩] } }
    let m := r.setCore 3 25 8 { CoreSt.init with waiting := [65] }
    m.powered = true ∧ r.svc.retiredLane 3 25 8 65 = true ∧ (r.core 3 25 8).waiting.contains 65 = false ∧ m.svc.retiredLane 3 25 8 65 = true ∧
      (m.core 3 25 8).waiting.contains 65 = true ∧ m.packageDown = false ∧ m.svc.retiredCore 0 0 0 = true ∧ m.svc.retiredCluster 1 25 = true ∧
      m.svc.retiredDie 3 = true ∧ m.svc.retiredDie ((7 : Fin 8) / 2) = true := by decide

/-- A domain that no request switches, one of a retired die, a busy one, one that is off and can be switched on, one that is on already. -/
theorem test_meets_BusyDomainRefusesARequest :
    let m := { live with svc := { live.svc with busy := [(26, true)], retired := [⟨.die, 3, 0, 0, 0⟩] } }
    m.powered = true ∧ 2 ≤ m.stage ∧ (23 < 24 ∧ m.svc.retiredDie (23 / 6) = true) ∧ (∃ b ∈ m.svc.busy, b.1 = 26) ∧
      (live.domainErr 5 true = 0 ∧ live.domainOn 5 ≠ true) ∧
      (liveWith [(Reg.PWR_DOMAIN_STATUS_ON, 1)]).domainErr 0 true = 0 ∧ (liveWith [(Reg.PWR_DOMAIN_STATUS_ON, 1)]).domainOn 0 = true := by decide

/-- In-band; a value equal to the epoch number; one greater by one and by two. -/
theorem test_meets_EpochSetNumbersTheNextEpoch :
    let m := liveWith [(Reg.TRN_EPOCH_EPOCH, 9)]
    m.powered = true ∧ 2 ≤ m.stage ∧ (9 : BitVec 48).toNat ≤ m.epoch ∧ m.reg Reg.TRN_STATUS_SOURCE_USED ≠ 2 ∧ m.epoch < (10 : BitVec 48).toNat ∧
      ¬ m.epoch + 1 < (10 : BitVec 48).toNat ∧ m.epoch + 1 < (11 : BitVec 48).toNat ∧
      (liveWith [(Reg.TRN_STATUS_SOURCE_USED, 2)]).reg Reg.TRN_STATUS_SOURCE_USED = 2 := by decide

/-- The ends of the range, 0, and the in-band source with a period in range. -/
theorem test_meets_PeriodOutOfRangeIsRefused :
    live.powered = true ∧ 2 ≤ live.stage ∧ live.reg Reg.TRN_STATUS_SOURCE_USED ≠ 2 ∧ (249999 : BitVec 32).toNat < 250000 ∧ (249999 : BitVec 32).toNat ≠ 0 ∧
      100000000 < (100000001 : BitVec 32).toNat ∧ 250000 ≤ (250000 : BitVec 32).toNat ∧ (100000000 : BitVec 32).toNat ≤ 100000000 ∧ (0 : BitVec 32).toNat = 0 ∧
      (let m := liveWith [(Reg.TRN_STATUS_SOURCE_USED, 2)]; m.powered = true ∧ 2 ≤ m.stage ∧ m.reg Reg.TRN_STATUS_SOURCE_USED = 2) := by decide

/-- A period announced for the next epoch; the epoch number at its greatest, and one below it. -/
theorem test_meets_BoundaryNumbersTheEpoch :
    (let m := liveWith [(Reg.TRN_NEXT_PERIOD_NEXT_PERIOD, 250000), (Reg.TRN_NEXT_EPOCH_NEXT_EPOCH, 1)];
      m.reg Reg.TRN_NEXT_PERIOD_NEXT_PERIOD ≠ 0 ∧ (m.driveBoundary 0).epoch = m.reg Reg.TRN_NEXT_EPOCH_NEXT_EPOCH ∧ m.trn.nextNumber = none ∧
        m.epoch + 1 < 2 ^ 48) ∧
    (liveWith [(Reg.TRN_EPOCH_EPOCH, 2 ^ 48 - 2)]).epoch + 1 < 2 ^ 48 ∧ (liveWith [(Reg.TRN_EPOCH_EPOCH, 2 ^ 48 - 1)]).epoch + 1 = 2 ^ 48 := by decide

/-- No source yet, before and from 5 ms on; the pin in use, and an edge that does not mark. -/
theorem test_meets_ShortPulseIsRejected : live.powered = true ∧ 49 < 50 ∧ 100 ≤ 100 ∧
    (let m := liveWith [(Reg.TRN_STATUS_SOURCE_USED, 3)];
      m.powered = true ∧ (m.sourceTime 20000000).reg Reg.TRN_STATUS_SOURCE_USED = 1 ∧ (m.sourceTime 19999999).reg Reg.TRN_STATUS_SOURCE_USED ≠ 1) ∧
    (let m := liveWith [(Reg.TRN_STATUS_SOURCE_USED, 1), (Reg.TRN_CTRL_EDGE, 1)];
      m.powered = true ∧ m.reg Reg.TRN_STATUS_SOURCE_USED ≠ 3 ∧ (true = true ↔ m.reg Reg.TRN_CTRL_EDGE = 1)) := by decide

theorem test_meets_HoldoverAndTimeoutsFollowTheClockTable :
    (let m := liveWith [(Reg.TRN_STATUS_STATE, locked)];
      m.powered = true ∧ m.drive = locked ∧ m.trn.accepted = false ∧ m.drive ≠ holdover ∧ m.drive ≠ acquire) ∧
    (live.drive ≠ locked) ∧
    (let m := liveWith [(Reg.TRN_STATUS_STATE, holdover), (Reg.TRN_STATUS_HOLDOVER_EPOCHS, 64)];
      m.powered = true ∧ m.drive = holdover ∧ 64 ≤ m.reg Reg.TRN_STATUS_HOLDOVER_EPOCHS) ∧
    (liveWith [(Reg.TRN_STATUS_STATE, holdover), (Reg.TRN_STATUS_HOLDOVER_EPOCHS, 63)]).reg Reg.TRN_STATUS_HOLDOVER_EPOCHS < 64 ∧
    (let m := { liveWith [(Reg.TRN_STATUS_STATE, acquire)] with trn := { TransitSt.init with edges := 8 } };
      m.powered = true ∧ m.drive = acquire ∧ 8 ≤ m.trn.edges) ∧
    (let m := { liveWith [(Reg.TRN_STATUS_STATE, acquire)] with trn := { TransitSt.init with edges := 7 } };
      m.powered = true ∧ m.trn.edges < 8) := by decide

/-- The first and the last word of the shadow bank, SWAP_EPOCH's two words, SHADOW_LEN, both widths. -/
theorem test_meets_ArmedSwapIsProtected :
    let m := liveWith [(Reg.EPH_STATUS_ARMED, 1)]
    m.powered = true ∧ 2 ≤ m.stage ∧ m.reg Reg.EPH_STATUS_ARMED = 1 ∧ (0x16000 % 8 = 0 ∧ 0x16000 < 0x18000) ∧ (0x17FFC % 4 = 0 ∧ 0x17FFC < 0x18000) ∧
      (Reg.EPH_SWAP_EPOCH_SWAP_EPOCH.addr + 4) / 8 * 8 = Reg.EPH_SWAP_EPOCH_SWAP_EPOCH.addr ∧ (Reg.EPH_SWAP_EPOCH_SWAP_EPOCH.addr + 4) % 4 = 0 ∧
      Reg.EPH_CYCLE_SHADOW_LEN.addr % 4 = 0 := by decide

set_option maxRecDepth 20000 in
/-- An entry that breaks the checks in the first and in the last place; a cycle length below, at and above each end; a swap not in the
future. -/
theorem test_meets_ArmChecksInOrder :
    live.reg Reg.EPH_STATUS_ARMED ≠ 1 ∧ Eph.firstBad 16 0 (Eph.entries (Table.set 0 [] 0 (2 ^ 39))) = some 0 ∧
      Eph.firstBad 16 0 (Eph.entries live.shadowTable) = none ∧ 0 < 1 ∧ 64 < 65 ∧ 1 ≤ 64 ∧ 64 ≤ 64 ∧
      (let m := liveWith [(Reg.EPH_SWAP_EPOCH_SWAP_EPOCH, 5), (Reg.TRN_EPOCH_EPOCH, 5), (Reg.EPH_CYCLE_SHADOW_LEN, 64)];
        m.powered = true ∧ 2 ≤ m.stage ∧ Eph.firstBad 64 0 (Eph.entries m.shadowTable) = none ∧ m.reg Reg.EPH_CYCLE_SHADOW_LEN = 64 ∧
          m.reg Reg.EPH_SWAP_EPOCH_SWAP_EPOCH ≠ 0 ∧ m.reg Reg.EPH_SWAP_EPOCH_SWAP_EPOCH ≤ m.epoch) := by decide

set_option maxRecDepth 20000 in
/-- An ARM that arms: no cartridge is in service, so no windows are wanted (R107). -/
theorem test_meets_ArmChecksInOrder_arms : (liveWith [(Reg.EPH_CYCLE_SHADOW_LEN, 64)]).arm.reg Reg.EPH_STATUS_ARM_ERR = 0 := by decide

theorem test_meets_RunningChartCommandRefusesOthers :
    let m := { liveWith [(Reg.CHT_STATUS_BUSY, 1)] with cht := { ChartSt.init with op := some (.erase 1 0) } }
    m.powered = true ∧ 2 ≤ m.stage ∧ m.reg Reg.CHT_STATUS_BUSY = 1 ∧ (m.cht.op ≠ none ∨ m.cht.next ≠ none ∨ m.cht.nextBuiltin = true) := by decide

theorem test_meets_EraseBankRunsAndCompletes :
    live.reg Reg.CHT_STATUS_BUSY ≠ 1 ∧ live.bankHeld (0 : Fin 2) = false ∧ live.bankHeld (1 : Fin 2) = false := by decide

theorem test_meets_HeldBankIsNotErasedOrProgrammed :
    (let m := { liveWith [(Reg.CHT_STATUS_IN_FORCE_BANK, 1)] with cht := { ChartSt.init with chart := some chart0 } };
      m.powered = true ∧ 2 ≤ m.stage ∧ m.cht.chart ≠ none ∧ m.reg Reg.CHT_STATUS_IN_FORCE_BANK = (1 : Fin 2).val) ∧
    (let m := { live with cht := { ChartSt.init with next := some (chart0, 0) } };
      m.powered = true ∧ 2 ≤ m.stage ∧ m.cht.next = some (chart0, (0 : Fin 2).val)) ∧
    (let m := { liveWith [(Reg.CHT_STATUS_BUSY, 1)] with cht := { ChartSt.init with op := some (.verify 0 true) } };
      m.powered = true ∧ 2 ≤ m.stage ∧ m.reg Reg.CHT_STATUS_BUSY = 1 ∧ m.cht.op = some (.verify (0 : Fin 2) true)) := by decide

theorem test_meets_VerificationSetsTheBankState :
    let m := { live with cht := { ChartSt.init with bankA := { BankStore.init with broken := true } } }
    m.powered = true ∧ 2 ≤ m.stage ∧ m.reg Reg.CHT_STATUS_BUSY ≠ 1 ∧ m.cht.op = none ∧ m.cht.next = none ∧ m.cht.nextBuiltin = false ∧
      (m.cht.bank (0 : Fin 2)).broken = true := by decide

/-- A pass in a row with its macro-operation and bank: two rows in a LAST_K pass whose row totals lane 0 has written. -/
def drains (bank : Nat) : RowPass :=
  { pass := { mode := 0, rows := 2, k := 32, lanes := 1, firstK := true, lastK := true, wide := false, bank := 0, newWeights := false, fmtA := 2, fmtB := 2,
              metric := 0, data := 0, scales := 0 }
    entry := ⟨0, 0, 0, 0⟩, start := 0, count := 2, gen := 0, bank := bank, kind := .real, done := [(0, 2)] }

/-- Slots released and written already, one behind a slot written already, and one that the pass in the row still uses. -/
theorem test_meets_WeightSlotIsWrittenOncePerPass :
    let m := live.setCore 3 25 8 { CoreSt.init with gen := 1, slots := [(65 * 128 + 127, ⟨⟨2, 0, 127, 127⟩, []⟩)] }
    let x := ((m.rowAdvance 3 25 8 0).staged 3 25 8 (weightUse .staging) []).core 3 25 8
    let y := { x with passes := [{ drains 0 with gen := 1 }, { drains 0 with done := [] }] }
    m.powered = true ∧ (x.slot 64 127).now.gen < 2 ∧ bit 2 0 = false ∧ 2 = x.gen + 1 ∧ bit 1 0 ≠ false ∧ x.released 2 64 127 = true ∧
      (x.slot 64 127).now.gen ≠ 2 ∧ (126 ≤ 127 ∧ (x.slot 65 127).now.gen = 2) ∧ y.released 2 65 0 = false ∧ (bit 1 0 = true ∧ x.passes = [] ∧ 1 ≠ x.gen + 1) ∧
      ((y.slot 64 0).now.gen < 1 ∧ y.passes.any fun r => r.gen == 1 && !r.dummy && decide (0 < r.pass.slots)) ∧
      y.passes.any (fun r => r.gen == (y.slot 64 0).now.gen && !r.over) := by decide

/-- A narrow first pass of bank 0, and a wide one. -/
def pass0 : Pass :=
  { mode := 0, rows := 1, k := 32, lanes := 1, firstK := true, lastK := false, wide := false, bank := 0, newWeights := false, fmtA := 2, fmtB := 2
    metric := 0, data := 0, scales := 0 }
/-- A core with its banks in these states. -/
def banks (a b : BankState) : CoreSt := { CoreSt.init with bank0 := { Bank.init with state := a }, bank1 := { Bank.init with state := b } }

theorem test_meets_FirstPassNeedsAFreeBank :
    ({ pass0 with mode := 1 }.mode.val = 1 ∧ pass0.mode.val ≠ 1) ∧ pass0.firstK = true ∧ pass0.wide = false ∧ ((banks .free .free).bank pass0.bank.val).state = .free ∧
      ((banks .drain .free).bank pass0.bank.val).state ≠ .free ∧ ((banks .drain .free).bank (1 - pass0.bank.val)).state = .free ∧
      ((banks .accum .accum).bank0.state = .accum ∧ (banks .accum .accum).bank1.state = .accum) ∧
      ((banks .accum .drain).bank0.state ≠ .free ∧ (banks .accum .drain).bank1.state = .drain) ∧ { pass0 with wide := true }.wide = true ∧
      ((banks .drain .free).bank0.state = .drain ∧ (banks .drain .free).bank0.state ≠ .accum ∧ (banks .drain .free).bank1.state ≠ .accum) := by decide

set_option exponentiation.threshold 1100 in
/-- A bank that drains with a row to come and at its last row; a row read too early; no pass that drains, and a bank that does not drain. -/
theorem test_meets_DrainReadsRowsInOrder :
    let up : Mdl := { served [(Reg.SVC_CORE_MAP_CORE_INSERVICE 0 0, 255)] with cht := { ChartSt.init with chart := some chart0 } }
    let at_ := fun (cycle : Nat) (l : List RowPass) => up.setCore 0 0 0
      { banks .drain .drain with bank0 := ⟨.drain, 2, 1, 0, 0⟩, bank1 := ⟨.drain, 2, 1, 1, 0⟩, cycle := cycle, passes := l }
    let find := fun (x : CoreSt) (n : Nat) => x.passes.find? fun r => r.pass.lastK && !r.dummy && r.bank == n && r.pass.mode.val != 1
    let x := (at_ 200 [drains 0, drains 1]).core 0 0 0
    (at_ 200 []).powered = true ∧ x.wide = false ∧ (x.bank 0).state = .drain ∧ (x.bank 1).state = .drain ∧ find x 0 = some (drains 0) ∧
      find x 1 = some (drains 1) ∧ (drains 0).start + ((x.bank 0).next + 1) * (drains 0).pass.chunks + 67 ≤ x.cycle ∧
      (∀ l, l < (x.bank 0).lanes → (x.bank 0).next < Table.get 0 (drains 0).done l) ∧ (∀ l, l < (x.bank 1).lanes → (x.bank 1).next < Table.get 0 (drains 1).done l) ∧
      x.outUsed + x.drained.foldl (fun n w => n + w.bytes) (outBytes 0 (Macro.of 0) 1) ≤ partBytes (up.coreParts 0 0 0) 3 ∧
      (x.bank 0).next + 1 < (x.bank 0).rows ∧ (x.bank 1).rows ≤ (x.bank 1).next + 1 ∧
      ((at_ 60 []).core 0 0 0).cycle < (drains 0).start + ((x.bank 0).next + 1) * (drains 0).pass.chunks - 1 + 68 ∧
      1 ≤ ((x.bank 0).next + 1) * (drains 0).pass.chunks ∧ find ((at_ 200 []).core 0 0 0) 0 = none ∧ ((live.core 3 25 8).bank 1).state ≠ .drain := by decide

/-- A freeze whose lanes are busy, one whose lanes are not yet, one with a beat due that meets an old slot, and no freeze. -/
theorem test_meets_FreezeEndsWhenTheLanesAreBusy :
    let m := (live.setCore 0 0 0 { CoreSt.init with frozen := 2, dummy := 8, holding := 8 }).setCore 0 0 1 { CoreSt.init with frozen := 2, dummy := 7, holding := 8 }
    let n := live.setCore 0 0 0 { CoreSt.init with frozen := 2, gen := 1, passes := [{ drains 0 with gen := 1 }], cycle := 0 }
    m.powered = true ∧ (m.core 0 0 0).frozen ≠ 0 ∧ (m.core 0 0 0).dummy = (m.core 0 0 0).holding ∧ (m.core 0 0 0).stale (m.lanePlaces 0 0 0) = false ∧
      (m.core 0 0 1).dummy ≠ (m.core 0 0 1).holding ∧ (n.core 0 0 0).stale [0] = true ∧ (m.core 0 0 2).frozen = 0 := by decide

theorem test_meets_EyepieceNeedsEnableAndUnlock :
    let m := served [(Reg.EYE_STATUS_ENABLED 0 0, 1), (Reg.SVC_STATUS_DEBUG, 1)]
    m.powered = true ∧ 2 ≤ m.stage ∧ m.deadWindow (Reg.EYE_CTRL_HALT 0 0).addr = false ∧ m.spareWindow (Reg.EYE_CTRL_HALT 0 0).addr = false ∧
      m.reg (Reg.EYE_STATUS_ENABLED 0 0) = 1 ∧ m.reg Reg.SVC_STATUS_DEBUG = 1 ∧ m.reg (Reg.EYE_STATUS_HALTED 0 0) ≠ 1 ∧
      (served [(Reg.EYE_STATUS_ENABLED 0 0, 1)]).reg Reg.SVC_STATUS_DEBUG ≠ 1 ∧ (served [(Reg.SVC_STATUS_DEBUG, 1)]).reg (Reg.EYE_STATUS_ENABLED 0 0) ≠ 1 := by decide

/-- The last pair of an account's range, in an HBM page. -/
theorem test_meets_CompensatedAddWritesOnePair :
    let m := live.setPage 5 (2 ^ 26 - 1) { Page.none with state := .hbm }
    m.powered = true ∧ 2 ^ 47 - 8 + 8 ≤ 2 ^ 47 ∧ (2 ^ 47 - 8) / pageBytes = 2 ^ 26 - 1 ∧ ∀ p ∈ pagesOf (2 ^ 47 - 8) 8, (m.page 5 p).state = .hbm := by decide

theorem test_meets_MemoryReadsWhatWasWritten :
    2 ^ 47 - 1 + ([7] : List Byte).length ≤ 2 ^ 47 ∧ 0 < 2 ^ 47 ∧ 2 ^ 47 - 2 < 2 ^ 47 - 1 ∧ 6 ≠ 5 ∧ live.mem.wf = true := by decide

/-- A busy engine; account 0xFFFF; an address between pages; the last page, and a range past it; an empty range at the last page. -/
theorem test_meets_TierCommandChecksItsArguments :
    (let m := liveWith [(Reg.TIR_CMD_STATUS_BUSY, 1)]; m.powered = true ∧ 2 ≤ m.stage ∧ m.reg Reg.TIR_CMD_STATUS_BUSY = 1) ∧
    (live.reg Reg.TIR_CMD_STATUS_BUSY ≠ 1 ∧ (0xFFFF : Account).val = 0xFFFF) ∧
    ((liveWith [(Reg.TIR_CMD_ADDR_ADDR, 4096)]).reg Reg.TIR_CMD_ADDR_ADDR % pageBytes ≠ 0) ∧
    (let m := liveWith [(Reg.TIR_CMD_ADDR_ADDR, 2 ^ 47 - pageBytes), (Reg.TIR_CMD_ARG_COUNT, 2)];
      2 ^ 47 < m.reg Reg.TIR_CMD_ADDR_ADDR + m.reg Reg.TIR_CMD_ARG_COUNT * pageBytes ∧ m.reg Reg.TIR_CMD_ADDR_ADDR < 2 ^ 47) ∧
    (let m := liveWith [(Reg.TIR_CMD_ADDR_ADDR, 2 ^ 47 - pageBytes)];
      m.powered = true ∧ 2 ≤ m.stage ∧ m.reg Reg.TIR_CMD_STATUS_BUSY ≠ 1 ∧ (0xFFFE : Account).val ≠ 0xFFFF ∧ m.reg Reg.TIR_CMD_ADDR_ADDR % pageBytes = 0 ∧
        m.reg Reg.TIR_CMD_ADDR_ADDR < 2 ^ 47 ∧ m.reg Reg.TIR_CMD_ARG_COUNT = 0 ∧ (2 : Fin 4).val ≤ 2) := by decide

theorem test_meets_CancelMarksAndResumeRuns :
    let m := (live.setSeq 16383 { SeqEntry.init with state := .running }).setSeq 1 { SeqEntry.init with state := .leaving }
    m.powered = true ∧ 2 ≤ m.stage ∧ (m.seq 0).state = .free ∧ (m.seq 1).state = .leaving ∧ (m.seq 16383).state ≠ .free ∧ (m.seq 16383).state ≠ .leaving := by decide

/-- Semaphore 0 free, 1023 of the job itself, 1 of another job; core 0 waits for an acquire, core 1 does not. -/
theorem test_meets_SemaphoresGrantInRequestOrder :
    let m := ((live.setCluster 0 0 { ClusterSt.init with job := some 3 }).setSem 1023 ⟨some 3, [⟨4, coreKey 0 0 0⟩]⟩).setSem 1 ⟨some 9, []⟩
    m.powered = true ∧ (m.cluster 0 0).job = some 3 ∧ (m.sem 0).owner = none ∧ (m.sem 1023).owner = some 3 ∧ (m.sem 1).owner = some 9 ∧ 9 ≠ 3 ∧
      m.coreWaits 0 0 0 = true ∧ m.coreWaits 0 0 1 = false ∧ (m.sem 1).owner ≠ some 3 := by decide

theorem test_meets_EngineTimeIsCharged :
    let m := (live.setCluster 0 0 { ClusterSt.init with job := some 3 }).setJob 3 (some job5)
    m.powered = true ∧ (m.cluster 0 0).job = some 3 ∧ m.job 3 = some job5 ∧ (m.cluster 0 1).job = none := by decide

theorem test_meets_BusyCatalogueEngineRefuses :
    let m := liveWith [(Reg.CAT_CMD_STATUS_BUSY, 1)]
    m.powered = true ∧ 2 ≤ m.stage ∧ m.reg Reg.CAT_CMD_STATUS_BUSY = 1 := by decide

/-- A range that ends at the bound of stripes, one that ends past it, an empty one, and a busy context. -/
theorem test_meets_ScrubStartsAndStops :
    let m := liveWith [(Reg.SCB_START_FIRST 0, 524287), (Reg.SCB_COUNT_COUNT 0, 1), (Reg.SCB_START_FIRST 1, 524288), (Reg.SCB_COUNT_COUNT 1, 1),
      (Reg.SCB_STATUS_BUSY 3, 1)]
    m.powered = true ∧ 2 ≤ m.stage ∧ m.reg (Reg.SCB_STATUS_BUSY 0) ≠ 1 ∧ m.reg (Reg.SCB_START_FIRST 0) + m.reg (Reg.SCB_COUNT_COUNT 0) ≤ 524288 ∧
      m.reg (Reg.SCB_COUNT_COUNT 0) ≠ 0 ∧ 524288 < m.reg (Reg.SCB_START_FIRST 1) + m.reg (Reg.SCB_COUNT_COUNT 1) ∧ m.reg (Reg.SCB_STATUS_BUSY 2) ≠ 1 ∧
      m.reg (Reg.SCB_START_FIRST 2) + m.reg (Reg.SCB_COUNT_COUNT 2) ≤ 23552 * m.logDies.length ∧ m.reg (Reg.SCB_COUNT_COUNT 2) = 0 ∧
      m.reg (Reg.SCB_STATUS_BUSY 3) = 1 := by decide

/-- A GC window of slot 0 over the whole epoch (Table 2-15: class 3, every epoch). -/
def gcEntry : Nat := 0xFFFF * 2 ^ 16 + 2 ^ 39 + 3 * 2 ^ 40

set_option maxRecDepth 20000 in
/-- A row in the write buffer and one that is not; the window open and closed; a die in each state; an error below the threshold. -/
theorem test_meets_FlashReadMeetsItsDie :
    let m := { live with
      eph := { EphemerisSt.init with bank0 := [(0, gcEntry)] },
      med := { FlashSt.init with dies := [(dieKey 0 1, .programming 3 0), (dieKey 0 2, .erasing 3), (dieKey 0 3, .suspended 3 none)] } }
    let b := { live with ftl := { FtlSt.init with stripes := [(0, some { live.stripe 0 with state := .opened })] } }
    b.rowBuffered ((b.stripe 0).place 0) 511 = true ∧ (m.rowBuffered ⟨0, 0, 4⟩ 0 = false ∧ (m.blk ⟨0, 0, 4⟩).failed = false) ∧
    m.powered = true ∧ live.windowOpen 3 0 = false ∧ m.windowOpen 3 0 = true ∧ m.die 0 0 = .idle ∧ m.die 0 1 = .programming 3 0 ∧ m.die 0 2 = .erasing 3 ∧
      m.die 0 3 = .suspended (3 : Fin 8448).val none ∧ (3 : Nat) ≠ (4 : Fin 8448).val ∧
      (liveWith [(Reg.MED_HBM_RETIRE_THRESHOLD, 2)]).med.errorsOf ⟨7, 0⟩ + 1 < (liveWith [(Reg.MED_HBM_RETIRE_THRESHOLD, 2)]).reg Reg.MED_HBM_RETIRE_THRESHOLD := by
  decide

/-- In the power-loss sequence, which ignores windows (R101), with two active cartridges and with one. -/
theorem test_meets_JournalBlockTakesTheOldestRecords :
    (live.atPhase 65535).ftl.buffer = [] ∧
    (let m := { liveWith [(Reg.MED_SLOT_STATUS_ROLE 0, 1), (Reg.MED_SLOT_STATUS_ROLE 8, 1), (Reg.SVC_STATUS_STAGE, 4)] with
        ftl := { FtlSt.init with buffer := [⟨1, 0, 1⟩] } };
      m.powered = true ∧ (m.atPhase 65535).ftl.buffer ≠ [] ∧ 2 ≤ (m.atPhase 65535).programSlots.length) ∧
    ((liveWith [(Reg.MED_SLOT_STATUS_ROLE 0, 1), (Reg.SVC_STATUS_STAGE, 4)]).atPhase 65535).programSlots.length < 2 := by decide

theorem test_meets_OnlyReadyControllersTakeCommands :
    let m := live.setCtl 0x240 { Ctl.init with enabled := true, ready := true }
    m.powered = true ∧ m.ctlOk 1 = false ∧ m.ctlOk 0x240 = true ∧ 16 ≤ 16 ∧ 15 < 16 ∧ m.fetchedAt 9 0x240 = none ∧
      ∀ p ∈ m.jobList, p.2.cid ≠ some (9, 0x240) := by decide

theorem test_meets_SessionsRunInTheirOrder :
    live.host.spdm ≠ .negotiated ∧ live.host.handshake ≠ some 0 ∧ live.personality ≠ 2 ∧
    (let m := { live with host := { HostSt.init with session := some 5 }, cht := { ChartSt.init with opt := { OptRec.factory with personality := 2 } } };
      m.powered = true ∧ m.host.session = some 5 ∧ m.personality = 2) := by decide

theorem test_meets_OnlyActiveLinksCarryMessages :
    live.powered = true ∧ live.reg (Reg.SPN_LINK_STATE (7 : LinkNo)) ≠ 3 ∧
    (let m := liveWith [(Reg.SPN_LINK_STATE (0 : LinkNo), 2)]; m.powered = true ∧ m.reg (Reg.SPN_LINK_STATE (0 : LinkNo)) = 2) := by decide

/-- TERM at its greatest value, which wraps. -/
theorem test_meets_StandbyTakesTheSpanOver :
    live.reg Reg.SPN_STATUS_ROLE_NOW ≠ 3 ∧
    (let m := liveWith [(Reg.SPN_STATUS_ROLE_NOW, 3), (Reg.SPN_STATUS_TERM, 65535)];
      m.powered = true ∧ 2 ≤ m.stage ∧ m.reg Reg.SPN_STATUS_ROLE_NOW = 3 ∧ (m.reg Reg.SPN_STATUS_TERM + 1) % 2 ^ 16 = 0) := by decide

theorem test_meets_TwinCommandsFollowTheTwinTable :
    ((liveWith [(Reg.TWN_CMD_STATUS_BUSY, 1)]).powered = true ∧ (liveWith [(Reg.TWN_CMD_STATUS_BUSY, 1)]).reg Reg.TWN_CMD_STATUS_BUSY = 1) ∧
    (live.reg Reg.TWN_CMD_STATUS_BUSY ≠ 1 ∧ live.spanCfg.twin = false) ∧
    (let m := { liveWith [(Reg.TWN_STATUS_STATE, 5)] with cht := { ChartSt.init with chart := some twinChart } };
      m.powered = true ∧ 2 ≤ m.stage ∧ m.reg Reg.TWN_CMD_STATUS_BUSY ≠ 1 ∧ m.spanCfg.twin = true ∧ m.reg Reg.TWN_STATUS_STATE ≠ 4 ∧
        m.reg Reg.TWN_STATUS_STATE ≠ 6 ∧ m.reg Reg.TWN_STATUS_STATE ≠ 1 ∧ m.reg Reg.TWN_STATUS_STATE ≠ 2 ∧ m.reg Reg.TWN_STATUS_STATE ≠ 7) := by decide

/-! ### Ill-formed commands: a term for each check of `Instr.wf`, which the check refuses -/

def refused (l : List Instr) : Bool := l.all fun c => !c.wf
def accepted (l : List Instr) : Bool := l.all Instr.wf

/-- A bay, a message and a measurement within their fields. -/
def bay0 : BayId := ⟨0, 0, 0, 0, true⟩
def msg0 : LMsg := { type := 0x01, tc := 0, hops := 0, dst := 0, src := 0, tag := 0, addr := 0, status := 0, data := [], stream := [] }
def climate0 : Climate := ⟨0, 300, 300, 1000, 5400, 700⟩
def flit0 : Flit := { vc := 0, data := false, idle := false, seq := 0, ack := 0, nak := false, crcOk := true, fec := 0, msgs := [msg0] }
def transit0 : TransitMsg := ⟨0, 0, 0, 0, 0, 10000000, 0, 0⟩
def cart0 : CartId := CartId.shipped

theorem test_wf_accepts : accepted [.registerWrite 0x3FFFFFC false 0xFFFFFFFF, .readClearRegisterRead 0x3FFFFF8 true, .bar2BadAccess 1 false,
    .powerUp 0 65535 bay0 511 true, .functionLevelReset 0x240, .dieFault 3 255, .loadPartial 3 31, .hostWindowRead 0 (2 ^ 38), .flitReceive 7 flit0 0 0,
    .transitMessage 0 0 transit0 0, .cartridgeInsert 8 cart0, .thermalStepFall climate0, .nvmeRead 0 1 1 0 65536, .resyncCopy 0 0 122880] = true := by decide

theorem test_wf_bus : refused [.registerWrite 0x4000000 false 0, .registerWrite 2 false 0, .registerWrite 4 true 0, .registerWrite 0 false (2 ^ 32),
    .registerWrite 0 true (2 ^ 64), .readClearRegisterRead 0x4000000 true, .readClearRegisterRead 4 true, .bar2BadAccess 0 true,
    .shadowBankWrite 0x4000000 false 0, .shadowBankWrite 0x16000 false (2 ^ 32), .coupledFieldWrite 0x60001 false 0,
    .coupledFieldWrite 0x60000 true (2 ^ 64)] = true := by decide

set_option exponentiation.threshold 600 in
theorem test_wf_power : refused [.powerUp 0 65536 bay0 0 true, .powerUp 0 0 { bay0 with serial := 2 ^ 128 } 0 true, .powerUp 0 0 { bay0 with bay := 256 } 0 true,
    .powerUp 0 0 { bay0 with twinBay := 256 } 0 true, .powerUp 0 0 { bay0 with hint := 4096 } 0 true, .powerUp 0 0 bay0 512 true, .holdupMeasure 65536 0,
    .functionLevelReset 3, .configRequest 0x100, .d3hotEntry 0x141, .shutdownNotification 0x200, .controllerEnable 0x241, .slotPower 16 true,
    .coldReset 0 { bay0 with bay := 256 } 0, .coldReset 0 bay0 512, .cartridgeThermalHold 0 65536, .cartridgeThermalRelease 0 65536,
    .thermalStepRise { climate0 with sensor := 256 } 0, .thermalStepRise { climate0 with hottest := 65536 } 0,
    .thermalStepFall { climate0 with inlet := 65536 }, .thermalStepFall { climate0 with flow := 65536 },
    .thermalStepFall { climate0 with volts := 65536 }, .thermalStepFall { climate0 with watts := 65536 },
    .cartridgeInsert 0 { cart0 with badBlocks := [(128, 0)] }, .cartridgeInsert 0 { cart0 with badBlocks := [(0, 8448)] },
    .cartridgeInsert 0 { cart0 with offsets := [(32768, 0)] }, .cartridgeInsert 0 { cart0 with offsets := [(0, 256)] },
    .cartridgeInsert 0 { cart0 with counters := [(64, 0)] }, .cartridgeInsert 0 { cart0 with counters := [(0, 2 ^ 512)] }] = true := by decide

theorem test_wf_units : refused [.laneDatapathFault 0 0 0 0 256, .coreClusterFault 0 0 none 256, .dieFault 0 256, .packageFault 256,
    .inPackageLinkFailure 256, .regulatorPhaseFault 256 none, .domainReq 32 true, .domainSwitchDone 32, .powerOnSelfTest 0 [.lane 4 0 0 0],
    .powerOnSelfTest 0 [.lane 0 26 0 0], .powerOnSelfTest 0 [.lane 0 0 9 0], .powerOnSelfTest 0 [.lane 0 0 0 66], .powerOnSelfTest 0 [.hbm 4],
    .powerOnSelfTest 0 [.limuc 8 0], .powerOnSelfTest 0 [.limuc 0 9], .retestDone [⟨.engine, 4, 0, 0, 0⟩], .retestDone [⟨.engine, 0, 26, 0, 0⟩],
    .retestDone [⟨.engine, 0, 0, 9, 0⟩], .retestDone [⟨.engine, 0, 0, 0, 66⟩], .retestDone [⟨.die, 0, 1, 0, 0⟩],
    .sramUncorrectable (.clusterStore 4 0), .sramUncorrectable (.clusterStore 0 26), .sramUncorrectable (.domeTag 4 [])] = true := by decide

theorem test_wf_clock : refused [.transitMessage 0 0 { transit0 with epoch := 2 ^ 48 } 0, .transitMessage 0 0 { transit0 with srcModule := 4096 } 0,
    .transitMessage 0 0 { transit0 with hops := 256 } 0, .transitMessage 0 0 { transit0 with state := 4 } 0,
    .transitMessage 0 0 { transit0 with pathDelay := 2 ^ 32 } 0, .transitMessage 0 0 { transit0 with period := 2 ^ 32 } 0,
    .transitMessage 0 0 { transit0 with nextPeriod := 2 ^ 32 } 0, .transitMessage 0 0 { transit0 with nextEpoch := 2 ^ 48 } 0] = true := by decide

theorem test_wf_chart : refused [.loadPartial 4 0, .loadPartial 0 32, .setOption [] [], .coupledCommitApply 65536] = true := by decide
theorem test_wf_programBank (l : List Byte) (h : 2 ^ 24 < l.length) : (Instr.programBank 0 l).wf = false := by
  simp only [Instr.wf, decide_eq_false_iff_not]; omega
theorem test_wf_setOption (l k : List Byte) (h : 4096 < k.length) : (Instr.setOption l k).wf = false := by
  simp only [Instr.wf, Bool.and_eq_false_iff, decide_eq_false_iff_not]; omega
theorem test_wf_calibrationWrite (l : List Byte) (h : 4096 < l.length) : (Instr.calibrationWrite l true true).wf = false := by
  simp only [Instr.wf, decide_eq_false_iff_not]; omega

set_option exponentiation.threshold 600 in
theorem test_wf_cores : refused [.passBoundary 0 0 0 { pass0 with rows := 0 } 0 [], .passBoundary 0 0 0 { pass0 with rows := 257 } 0 [],
    .passBoundary 0 0 0 { pass0 with lanes := 0 } 0 [], .passBoundary 0 0 0 { pass0 with lanes := 65 } 0 [], .passBoundary 0 0 0 { pass0 with fmtA := 256 } 0 [],
    .passBoundary 0 0 0 { pass0 with fmtB := 256 } 0 [], .passBoundary 0 0 0 pass0 0 [⟨3 * 2 ^ 19, [0]⟩],
    .weightSlotWrite 0 0 0 0 0 true .staging (3 * 2 ^ 19) 1 0 [], .weightSlotWrite 0 0 0 0 0 true .staging 0 1 0 [⟨3 * 2 ^ 19, [0]⟩],
    .rowTotalWrite 0 0 0 0 0 [⟨3 * 2 ^ 19, [0]⟩], .drainWriteRow 0 0 0 65536 0 0, .drainWriteRow 0 0 0 0 (2 ^ 32) 0, .drainWriteRow 0 0 0 0 0 (2 ^ 32),
    .coreEccUncorrectable 0 0 0 .plates 0 (3 * 2 ^ 19) false false, .macroComplete 0 0 [.plates 8 0 []], .macroComplete 0 0 [.scalar 8 0 0],
    .macroComplete 0 0 [.scalar 0 32 0], .macroComplete 0 0 [.scalar 0 0 (2 ^ 64)], .macroComplete 0 0 [.vector 8 0 0], .macroComplete 0 0 [.vector 0 32 0],
    .macroComplete 0 0 [.vector 0 0 (2 ^ 512)], .macroFault 0 0 256, .compensatedAdd 0 (2 ^ 47) 0, .compensatedAdd 0 4 0,
    .demandPromotion 0 (2 ^ 26) none none, .farPageWrite 0 (2 ^ 26), .farWriteDone 0 (2 ^ 26), .sweepStart 0 0 201] = true := by decide

theorem test_wf_media : refused [.flashRead 0 0 0 0 0 .host, .flashRead 0 0 0 0 17 .host, .flashReadDone 0 0 0 false false [⟨16, 0, 0, 0, 0⟩],
    .flashReadDone 0 0 0 false false [⟨0, 512, 0, 0, 0⟩], .scrubStripe 0 0 [⟨0, 0, 16, 0, 0⟩], .scrubStripe 0 0 [⟨0, 0, 0, 8, 0⟩],
    .erasedStateCheck 0 0 65536, .hbmCorrectable ⟨8, 0⟩, .hbmUncorrectable ⟨8, 0⟩, .scrubHbm 0 0 [⟨8, 0, 1, false⟩]] = true := by decide

theorem test_wf_nvme : refused [.searchBatch (2 ^ 32) 1 0 [], .searchBatch 0 0 0 [], .searchBatch 0 1 65536 [], .nvmeRead (2 ^ 32) 1 1 0 1, .nvmeRead 0 0 1 0 1,
    .nvmeRead 0 1 (2 ^ 32) 0 1, .nvmeRead 0 1 1 (2 ^ 64) 1, .nvmeRead 0 1 1 0 0, .nvmeRead 0 1 1 0 65537, .nvmeWrite (2 ^ 32) 1 1 0 [0], .nvmeWrite 0 3 1 0 [0],
    .nvmeWrite 0 1 (2 ^ 32) 0 [0], .nvmeWrite 0 1 1 (2 ^ 64) [0], .nvmeWrite 0 1 1 0 [], .writeZeroes (2 ^ 32) 1 1 0 1, .writeZeroes 0 3 1 0 1,
    .writeZeroes 0 1 (2 ^ 32) 0 1, .writeZeroes 0 1 1 (2 ^ 64) 1, .writeZeroes 0 1 1 0 0, .writeZeroes 0 1 1 0 65537, .flush (2 ^ 32) 1, .flush 0 0,
    .datasetManagement (2 ^ 32) 1 1 [(0, 1)], .datasetManagement 0 0 1 [(0, 1)], .datasetManagement 0 1 (2 ^ 32) [(0, 1)], .datasetManagement 0 1 1 [],
    .secureDeallocate (2 ^ 32) 1 1 [(0, 1)], .secureDeallocate 0 0 1 [(0, 1)],
    .secureDeallocate 0 1 (2 ^ 32) [(0, 1)], .secureDeallocate 0 1 1 []] = true := by decide

theorem test_wf_longRanges (l : List (Nat × Nat)) (h : 256 < l.length) :
    (Instr.datasetManagement 0 1 1 l).wf = false ∧ (Instr.secureDeallocate 0 1 1 l).wf = false := by
  simp only [Instr.wf, Bool.and_eq_false_iff, decide_eq_false_iff_not]; omega
theorem test_wf_longParams (l : List Byte) (h : 2 ^ 32 < l.length) :
    (Instr.searchBatch 0 1 0 l).wf = false ∧ (Instr.executeProgram 0 1 0 0 l).wf = false := by
  simp only [Instr.wf, Bool.and_eq_false_iff, decide_eq_false_iff_not]; omega
theorem test_wf_longWrites (l : List Sector) (h : 65536 < l.length) :
    (Instr.nvmeWrite 0 1 1 0 l).wf = false ∧ (Instr.zoneAppend 0 1 1 0 l).wf = false := by
  simp only [Instr.wf, Bool.and_eq_false_iff, decide_eq_false_iff_not]; omega

theorem test_wf_copiesAndZones : refused [.nvmeCopy (2 ^ 32) 1 1 0 [⟨1, 0, 1⟩], .nvmeCopy 0 0 1 0 [⟨1, 0, 1⟩], .nvmeCopy 0 1 (2 ^ 32) 0 [⟨1, 0, 1⟩],
    .nvmeCopy 0 1 1 (2 ^ 64) [⟨1, 0, 1⟩], .nvmeCopy 0 1 1 0 [], .nvmeCopy 0 1 1 0 [⟨2 ^ 32, 0, 1⟩], .nvmeCopy 0 1 1 0 [⟨1, 0, 0⟩],
    .zoneAppend (2 ^ 32) 1 1 0 [0], .zoneAppend 0 0 1 0 [0], .zoneAppend 0 1 (2 ^ 32) 0 [0], .zoneAppend 0 1 1 (2 ^ 64) [0], .zoneAppend 0 1 1 0 [],
    .zoneOpen (2 ^ 32) 1 1 0, .zoneOpen 0 0 1 0, .zoneOpen 0 1 (2 ^ 32) 0, .zoneOpen 0 1 1 (2 ^ 64), .zoneFinish (2 ^ 32) 1 1 0, .zoneFinish 0 0 1 0,
    .zoneFinish 0 1 (2 ^ 32) 0, .zoneFinish 0 1 1 (2 ^ 64), .zoneReset (2 ^ 32) 1 1 0, .zoneReset 0 0 1 0, .zoneReset 0 1 (2 ^ 32) 0,
    .zoneReset 0 1 1 (2 ^ 64)] = true := by decide

theorem test_wf_admin : refused [.rangeLockRelease (2 ^ 32) 1, .rangeLockRelease 0 0, .abort (2 ^ 32) 1 0 0, .abort 0 0 0 0, .abort 0 1 (2 ^ 32) 0,
    .identifyController (2 ^ 32) 1, .identifyController 0 0, .identifyNamespace (2 ^ 32) 1 1, .identifyNamespace 0 0 1, .identifyNamespace 0 1 (2 ^ 32),
    .namespaceCreate (2 ^ 32) 1 (.nvm 1 0), .namespaceCreate 0 0 (.nvm 1 0), .namespaceCreate 0 1 (.nvm 1 256), .namespaceCreate 0 1 (.zoned 1 256),
    .namespaceCreate 0 1 (.memory 65536 0 0), .namespaceCreate 0 1 (.memory 0 (2 ^ 47) 1), .namespaceDelete (2 ^ 32) 1 1, .namespaceDelete 0 0 1,
    .namespaceDelete 0 1 (2 ^ 32), .virtualizationManagement (2 ^ 32) 1 0x101 true 0, .virtualizationManagement 0 0 0x101 true 0,
    .virtualizationManagement 0 1 0x141 true 0, .virtualizationManagement 0 1 2 true 0, .virtualizationManagement 0 1 0x101 true 65536,
    .formatNvm (2 ^ 32) 1 1 0, .formatNvm 0 0 1 0, .formatNvm 0 1 (2 ^ 32) 0, .formatNvm 0 1 1 8, .sanitize (2 ^ 32) 1 true, .sanitize 0 0 true,
    .getLogPage (2 ^ 32) 1 0 true, .getLogPage 0 0 0 true, .getLogPage 0 1 256 true] = true := by decide

theorem test_wf_programs : refused [.loadProgram (2 ^ 32) 1 0 ⟨[], []⟩, .loadProgram 0 0 0 ⟨[], []⟩, .loadProgram 0 1 65536 ⟨[], []⟩,
    .loadProgram 0 1 0 ⟨[], [(100, [])]⟩, .programActivation (2 ^ 32) 1 0 true, .programActivation 0 0 0 true, .programActivation 0 1 65536 true,
    .createMemoryRangeSet (2 ^ 32) 1 [], .createMemoryRangeSet 0 0 [], .createMemoryRangeSet 0 1 [⟨2 ^ 32, 0, 1, true⟩],
    .createMemoryRangeSet 0 1 [⟨1, 0, 0, true⟩], .executeProgram (2 ^ 32) 1 0 0 [], .executeProgram 0 0 0 0 [], .executeProgram 0 1 65536 0 [],
    .executeProgram 0 1 0 65536 [], .memoryRead (2 ^ 32) 1 1 0 1, .memoryRead 0 0 1 0 1, .memoryRead 0 1 (2 ^ 32) 0 1, .memoryRead 0 1 1 (2 ^ 64) 1,
    .memoryRead 0 1 1 0 (2 ^ 64), .memoryWrite (2 ^ 32) 1 1 0 [0], .memoryWrite 0 0 1 0 [0], .memoryWrite 0 1 (2 ^ 32) 0 [0],
    .memoryWrite 0 1 1 (2 ^ 64) [0], .memoryWrite 0 1 1 0 [], .memoryCopy (2 ^ 32) 1 1 0 [⟨1, 0, 1⟩], .memoryCopy 0 0 1 0 [⟨1, 0, 1⟩],
    .memoryCopy 0 1 (2 ^ 32) 0 [⟨1, 0, 1⟩], .memoryCopy 0 1 1 (2 ^ 64) [⟨1, 0, 1⟩], .memoryCopy 0 1 1 0 [], .memoryCopy 0 1 1 0 [⟨2 ^ 32, 0, 1⟩],
    .memoryCopy 0 1 1 0 [⟨1, 0, 0⟩]] = true := by decide

theorem test_wf_access : refused [.hostWindowRead 0 0, .hostWindowRead 1 (2 ^ 38), .hostWindowWrite 0 [], .hostWindowWrite (2 ^ 38) [0],
    .securityNonce (2 ^ 32) 1, .securityNonce 0 0, .debugUnlock (2 ^ 32) 1 [0], .debugUnlock 0 0 [0], .debugUnlock 0 1 [], .debugUnlockRelease (2 ^ 32) 1,
    .debugUnlockRelease 0 0, .ownershipRelease (2 ^ 32) 1 [0], .ownershipRelease 0 0 [0], .ownershipRelease 0 1 [], .getCertificate 16,
    .challenge (2 ^ 256), .getMeasurements 256, .keyExchange (2 ^ 32), .finish (2 ^ 32), .endSession (2 ^ 32), .readNvmeMiDataStructure 256,
    .controllerHealthStatusPoll 0, .configurationGet 256, .configurationSet 256 0, .configurationSet 0 (2 ^ 32), .vpdRead .module 262144 1, .vpdRead .module 0 0,
    .tunnelledAdminCommand (.identifyNamespace (2 ^ 32)), .tunnelledAdminCommand (.getLogPage 256 true), .tunnelledAdminCommand (.getFeatures 256),
    .tunnelledAdminCommand (.securitySend 65536 [0]), .tunnelledAdminCommand (.securitySend 0 []), .tunnelledAdminCommand (.securityReceive 65536),
    .clearEventRecords 65536] = true := by decide

theorem test_wf_links : refused [.linkDetect 0 512, .linkTrained 0 ⟨4096, 0, 0, 0, false⟩ 0, .linkTrained 0 ⟨0, 8, 0, 0, false⟩ 0,
    .linkTrained 0 ⟨0, 0, 2 ^ 64, 0, false⟩ 0, .linkTrained 0 ⟨0, 0, 0, 4, false⟩ 0, .linkTrained 0 ⟨0, 0, 0, 0, false⟩ (2 ^ 32),
    .flitReceive 0 { flit0 with seq := 1024 } 0 0, .flitReceive 0 { flit0 with ack := 1024 } 0 0, .flitReceive 0 { flit0 with msgs := [{ msg0 with tc := 8 }] } 0 0,
    .flitReceive 0 { flit0 with msgs := List.replicate 16 msg0 } 0 0, .nakReceive 0 1024, .notReadyRetry 65536, .spanRequestTimeout 65536,
    .resyncCopy 0 0 0, .resyncCopy 0 1 122880] = true := by decide

/-- Each header field of Table 13-5, and a body that is too long or no whole number of units. -/
def badMsgs : List LMsg := [{ msg0 with type := 256 }, { msg0 with tc := 8 }, { msg0 with hops := 16 }, { msg0 with dst := 4096 }, { msg0 with src := 4096 },
  { msg0 with tag := 65536 }, { msg0 with addr := 2 ^ 52 }, { msg0 with status := 16 }, { msg0 with data := [0] }]

theorem test_wf_messages : (badMsgs.all fun m => refused [.probe 0 m 0, .credit 0 m, .read64 0 m, .write64 0 m, .cadd 0 m, .bulk 0 m, .act 0 m, .dir 0 m,
    .dirBcast 0 m, .rdata 0 m, .wack 0 m, .back 0 m, .aack 0 m, .dirr 0 m, .twack 0 m 0, .tcrsp 0 m, .join 0 m, .alive 0 m, .peerState 0 m, .masterChange 0 m,
    .dirSync 0 m, .mapReq 0 m, .partnerQuery 0 m, .twinWrite 0 m, .twinOp 0 m, .twinCkpt 0 m, .twinCopy 0 m, .twinMap 0 m, .hello 0 m,
    .twinDetachNotice 0 m, .resyncDone 0 m, .pairedNotice 0 m, .picked 0 m]) = true := by decide
theorem test_wf_longMessage (l : List Byte) (h : 2040 < l.length) : (Instr.bulk 0 { msg0 with data := l }).wf = false := by
  simp only [Instr.wf, LMsg.wf, Bool.and_eq_false_iff, decide_eq_false_iff_not]; omega

/-! ### Values that the spec's tables and worked examples give -/

/-- What a command leaves of the module. -/
def after (c : Instr) (m : Mdl) : Mdl := match step ⟨m, [c]⟩ with
  | .next s => s.toMdl
  | _ => m

/-- FP32 patterns of Table 6-10's inputs: 2.5, 300.0, 470.0, -0.0009, +infinity, NaN. -/
def inputs : List F32 := [0x40200000#32, 0x43960000#32, 0x43EB0000#32, 0xBA6BEDFA#32, 0x7F800000#32, 0x7FC00000#32]
def conversions (f : Fmt) (nonsat : Bool) : List (Nat × Bool) := inputs.map fun x => ((convert f nonsat .rne x).bits, (convert f nonsat .rne x).clamped)

/-- Table 6-10, E4M3 saturating. -/
theorem test_conversions_e4m3 :
    (conversions .e4m3 false).take 5 = [(0x42, false), (0x79, false), (0x7E, true), (0x80, false), (0x7E, true)] ∧
      ((conversions .e4m3 false).map Prod.fst).getLast? = some 0x7F := by decide
/-- Table 6-10, E4M3 with NONSAT. -/
theorem test_conversions_nonsat :
    (conversions .e4m3 true).take 5 = [(0x42, false), (0x79, false), (0x7F, true), (0x80, false), (0x7F, true)] := by decide
/-- Table 6-10, E5M2. -/
theorem test_conversions_e5m2 :
    (conversions .e5m2 false).take 5 = [(0x41, false), (0x5D, false), (0x5F, false), (0x93, false), (0x7C, true)] ∧
      ((conversions .e5m2 false).map Prod.fst).getLast? = some 0x7E := by decide
/-- Table 6-10, INT8: ties to even, and every value out of range clamped. -/
theorem test_conversions_int8 :
    conversions .int8 false = [(0x02, false), (0x7F, true), (0x7F, true), (0x00, false), (0x7F, true), (0x00, true)] := by decide
/-- The text below R305: 460 converts to 448 without clamping. -/
theorem test_conversions_460 : convert .e4m3 false .rne 0x43E60000#32 = ⟨0x7E, false⟩ := by decide
/-- The example of R306: amax 5.0 has scale byte 0x7F; 5.0 becomes 4 (code 6) and 0.3 becomes 0.5 (code 1) in E2M1. -/
theorem test_mxfp4 : mxScale .mxfp4 [0x40A00000#32, 0x3E99999A#32] = 0x7F ∧ mxElem .mxfp4 .rne 0x7F 0x40A00000#32 = 6 ∧
    mxElem .mxfp4 .rne 0x7F 0x3E99999A#32 = 1 := by decide
/-- The carried block's example: AMAX 1,500 rises by 2; AMAX 100 is headroom. -/
theorem test_carriedBlock : riseBy 0x44BB8000#32 448 = 2 ∧ headroom 0x42C80000#32 448 = true := by decide
/-- The example of R320: 1.0, then 2^-30 once; and 2^-20 reached first, then 1.0. -/
theorem test_compensatedAdd :
    compensatedAdd F32.zero F32.zero 0x3F800000#32 = (0x3F800000#32, F32.zero) ∧
      compensatedAdd 0x3F800000#32 F32.zero 0x30800000#32 = (0x3F800000#32, 0x30800000#32) ∧
      compensatedAdd 0x35800000#32 F32.zero 0x3F800000#32 = (0x3F800008#32, F32.zero) := by decide

set_option maxRecDepth 20000 in
/-- The mapping example: cluster 11 retired, logical 11 on physical 12; core 3 retired, logical 3 on physical 4; lane 17 retired, S = 1. -/
theorem test_mapping : (mapUnits 26 25 (fun i => i == 11))[11]? = some 12 ∧ maskOf (mapUnits 26 25 (fun i => i == 11)) = 0x3FFF7FF ∧
    (mapUnits 9 8 (fun i => i == 3))[3]? = some 4 ∧ maskOf (mapUnits 9 8 (fun i => i == 3)) = 0x1F7 ∧ spareInUse [17] = 1 ∧
    windowOf 0x198000 = (2, 12) := by decide

/-- R6, R7: a 64-bit register keeps the words written to its halves. -/
theorem test_registerHalves :
    (after (.registerWrite 0x20014 false 0x12) (after (.registerWrite 0x20010 false 0x34567000) live)).reg Reg.CHT_DMA_ADDR_ADDR = 0x1234567000 := by decide
/-- Table 0-4: a read of a read-to-clear field answers its value and clears it. -/
theorem test_readClears :
    let m := after (.readClearRegisterRead 0x18040 false) (liveWith [(Reg.EPH_OVERRUN_OVERRUNS 0, 7)])
    m.reg (Reg.EPH_OVERRUN_OVERRUNS 0) = 0 ∧ m.out = [.read 7 4] := by decide
/-- Table 0-4, R52: a 1 written to VALID clears it and leaves the rest of the record. -/
theorem test_writeOneClears :
    let m := after (.registerWrite 0x8400 false 1) (liveWith [(Reg.SVC_HIER_FAULT_VALID, 1), (Reg.SVC_HIER_FAULT_OVERFLOW, 1), (Reg.SVC_HIER_FAULT_LEVEL, 4)])
    m.reg Reg.SVC_HIER_FAULT_VALID = 0 ∧ m.reg Reg.SVC_HIER_FAULT_OVERFLOW = 1 ∧ m.reg Reg.SVC_HIER_FAULT_LEVEL = 4 := by decide
/-- R668. -/
theorem test_locate : (after (.attnPressRelease 1999) live).reg Reg.SVC_CTRL_LOCATE = 1 ∧ (after (.attnPressRelease 2000) live).reg Reg.SVC_CTRL_LOCATE = 0 := by
  decide
set_option maxRecDepth 20000 in
/-- R90 and R86: a number set is the next epoch's. -/
theorem test_epochSet : (after (.epochBoundary 40000000) (after (.epochSet 100) live)).epoch = 100 := by decide
/-- R415: the first acquire owns, the second waits. -/
theorem test_semaphore :
    let m := (live.setCluster 0 0 { ClusterSt.init with job := some 3 }).setCluster 0 1 { ClusterSt.init with job := some 4 }
    (after (.semAcquire 0 1 2 9) (after (.semAcquire 0 0 0 9) m)).sem 9 = ⟨some 3, [⟨4, coreKey 0 1 2⟩]⟩ := by decide
/-- Table 12-14: Flush of a controller that takes commands ends with Success. -/
theorem test_flush : (after (.flush 7 1) (live.setCtl 1 { Ctl.init with enabled := true, ready := true })).out = [.completion 7 1 .success 0 0 0] := by decide
/-- R45, Table 1-12: the takeover is recorded as a package fault of KIND 0x0E. -/
theorem test_takeover :
    let m := after .serviceProcessorTakeover live
    m.reg Reg.SVC_STATUS_SP = 1 ∧ m.reg Reg.SVC_HIER_FAULT_LEVEL = 4 ∧ m.reg Reg.SVC_HIER_FAULT_KIND = 0x0E := by decide
set_option maxRecDepth 20000 in
/-- From reset, an insertion and a POWER_UP start the module, and the queue's commands run in order. -/
theorem test_powerUp : (after (.powerUp 0 1600 bay0 0 true) (after .moduleInsert Mdl.reset)).powered = true := by decide
/-- The table gives no row bits: no word spells a command, and withFetchWord leaves the state. -/
theorem test_noWordSpellsACommand : decodeTableWord 32 5 = none ∧ State.reset.withFetchWord 32 5 = State.reset := ⟨rfl, rfl⟩
/-- First in, first out: the command in front runs, and the other one stays. -/
theorem test_queueOrder : (match step ⟨live, [.svcLockSet, .arm]⟩ with
    | .next s => s.pending == [.arm] && s.reg Reg.SVC_LOCK_LOCK == 1
    | _ => false) = true := by decide

end Sys2Proof.Tests
end

/-! Proofs of the scope chapter: BAR2 accesses and the completion of the bus and power commands. -/
namespace Sys2Proof.Machine

/-! ### Commands that need no power -/

/-- A command that the module takes whatever its power. -/
theorem next_always (m : Mdl) (q : List Instr) (f : Mdl → Mdl) :
    (Host.Outcome.next (State.always ⟨m, q⟩ f) : Host.Outcome State Fault Refusal) = .next ⟨f m, q⟩ := rfl

/-! ### Misaligned accesses (R11) -/

/-- A misaligned write does nothing. -/
theorem Mdl.busWrite_misaligned (s : Mdl) {a : Nat} {wide : Bool} (v : Nat) (h : a % (if wide then 8 else 4) ≠ 0) :
    s.busWrite a wide v = s := by
  rw [Mdl.busWrite, if_pos h]

/-- A misaligned read returns all ones of its width, and clears nothing. -/
theorem Mdl.busRead_misaligned (s : Mdl) {a : Nat} {wide : Bool} (h : a % (if wide then 8 else 4) ≠ 0) :
    s.busRead a wide = s.emit (.read (2 ^ (8 * if wide then 8 else 4) - 1) (if wide then 8 else 4)) := by
  rw [Mdl.busRead]
  exact if_pos h

/-! ### Plain register writes (R6) -/

/-- An aligned 32-bit write of a ready module is one access of the word. -/
theorem Mdl.busWrite_aligned32 (s : Mdl) {a v : Nat} (hr : 2 ≤ s.stage) (ha : a % 4 = 0) (hv : v < 2 ^ 32) :
    s.busWrite a false v = s.write32 a v := by
  have hns : ¬ s.stage < 2 := by omega
  simp only [Mdl.busWrite, Bool.false_eq_true, if_false, ha, ne_eq, not_true_eq_false, hns, Bool.not_false, if_true, Nat.mod_eq_of_lt hv]

/-- A word in service, not coupled and with no effect of its own is written field by field. -/
theorem Mdl.write32_plain (s : Mdl) {a v : Nat} (hd : s.deadWindow a = false) (hs : s.spareWindow a = false) (hc : coupledAt a = none)
    (hk : s.writeClock a v = none) (hb : s.writeBlock a v = none) : s.write32 a v = s.writePlain a v := by
  simp [Mdl.write32, hd, hs, hc, hk, hb]

/-- Writing the fields of a list changes register fields alone. -/
theorem Mdl.writeFields_eq (a v : Nat) (l : List Fld) : ∀ s : Mdl,
    l.foldl (fun (s : Mdl) f => s.writeField a v f) s = { s with regs := (l.foldl (fun (s : Mdl) f => s.writeField a v f) s).regs } := by
  induction l with
  | nil => intro s; rfl
  | cons f t ih =>
    intro s
    have hf := s.writeField_eq a v f
    rw [List.foldl_cons, ih (s.writeField a v f)]
    generalize s.writeField a v f = x at hf ⊢
    rw [hf]

/-- A plain write changes only fields of its word. -/
theorem Mdl.onlyRegs_writePlain (s : Mdl) (a v : Nat) : s.onlyRegs (s.writePlain a v) (fieldsAt a) :=
  ⟨Mdl.writeFields_eq a v (fieldsAt a) s, fun g hg => Mdl.writeFields_other a v g (fieldsAt a) s hg⟩

/-- What a field of the word reads as after a plain write that does not reach SVC_LOCK: as after a write of it alone, in a state in which it and
SVC_LOCK read as before. -/
theorem Mdl.reg_writePlain (s : Mdl) {a : Nat} (v : Nat) {f : Fld} (hf : f ∈ fieldsAt a) (hl : ∀ g ∈ fieldsAt a, g.key ≠ Reg.SVC_LOCK_LOCK.key) :
    ∃ x : Mdl, x.reg f = s.reg f ∧ x.reg Reg.SVC_LOCK_LOCK = s.reg Reg.SVC_LOCK_LOCK ∧
      (s.writePlain a v).reg f = (x.writeField a v f).reg f := by
  obtain ⟨x, hx, ho, hw⟩ := Mdl.writeFields_at a v f (fieldsAt a) s (fieldsAt_nodup a) hf
  exact ⟨x, hx, ho _ fun g hg => (hl g hg).symm, hw⟩

/-- A write leaves a read-only, read-to-clear or write-only field alone. -/
theorem Mdl.writeField_readOnly (s : Mdl) (a v : Nat) {f : Fld} (h : f.acc = .ro ∨ f.acc = .rc ∨ f.acc = .wo) : s.writeField a v f = s := by
  rcases h with h | h | h <;> simp [Mdl.writeField, h]

/-- A write leaves a locked field alone while SVC_LOCK is set. -/
theorem Mdl.writeField_locked (s : Mdl) (a v : Nat) {f : Fld} (h : f.acc = .rwl) (hl : s.reg Reg.SVC_LOCK_LOCK = 1) : s.writeField a v f = s := by
  simp [Mdl.writeField, h, (s.flag_iff _).2 hl]

/-- A read-write field takes the bits written, unless the value is one that is ignored. -/
theorem Mdl.reg_writeField_readWrite (s : Mdl) (a v : Nat) {f : Fld} (h : f.acc = .rw ∨ f.acc = .rws)
    (hi : s.ignored f (f.merge a (s.reg f) v) = false) : (s.writeField a v f).reg f = f.merge a (s.reg f) v % 2 ^ f.width := by
  rcases h with h | h <;> simp [Mdl.writeField, h, hi]

/-- A write-1-to-clear field loses the bits that it holds and the word has as 1. -/
theorem Mdl.reg_writeField_oneToClear (s : Mdl) (a v : Nat) {f : Fld} (h : f.acc = .rw1c) (hw : s.reg f < 2 ^ f.width) :
    (s.writeField a v f).reg f = s.reg f - Nat.land (s.reg f) (bits v (f.span a).2.2 (f.span a).2.1 * 2 ^ (f.span a).1) := by
  have hlt := Nat.lt_of_le_of_lt (Nat.sub_le (s.reg f) (Nat.land (s.reg f) (bits v (f.span a).2.2 (f.span a).2.1 * 2 ^ (f.span a).1))) hw
  simp only [Mdl.writeField, h]
  rw [Mdl.reg_setReg_same, Nat.mod_eq_of_lt hlt]

end Sys2Proof.Machine

section
open Sys2Proof Sys2Proof.Machine

/-- Settles O17: the word is written field by field (`Mdl.reg_writePlain`), and each access type has its rule. -/
theorem accessTypesGovernPlainWrites : Obligations.AccessTypesGovernPlainWrites := by
  intro m q a v hp hr ha hv hl hd hs hc hk hb
  have hrun : m.busWrite a false v = m.writePlain a v := (m.busWrite_aligned32 hr ha hv).trans (m.write32_plain hd hs hc hk hb)
  refine ⟨m.writePlain a v, next_whenOn hp hrun, m.onlyRegs_writePlain a v,
    fun f hf hacc => ?readOnly, fun f hf hacc hlock => ?locked, fun f hf hacc hign => ?readWrite, fun f hf hacc hw => ?oneToClear⟩
  all_goals obtain ⟨x, hxf, hxl, hx⟩ := m.reg_writePlain v hf hl
  case readOnly => rw [hx, x.writeField_readOnly a v hacc, hxf]
  case locked => rw [hx, x.writeField_locked a v hacc (hxl.trans hlock), hxf]
  case readWrite => rw [hx, ← hxf, x.reg_writeField_readWrite a v hacc (hxf ▸ hign x)]
  case oneToClear => rw [hx, ← hxf, x.reg_writeField_oneToClear a v hacc (hxf ▸ hw)]

/-- Settles O1: each command is its own operation, run with the module's power, as a register write, or whatever the power. -/
theorem busAndPowerCommandsComplete : Obligations.BusAndPowerCommandsComplete := by
  intro m _
  refine ⟨fun hp => ?running, fun hp hr => ?ready, ?always⟩
  case running => and_intros <;> intros <;> exact next_whenOn hp rfl
  case ready => and_intros <;> intros <;> exact next_onBus hp hr rfl
  case always => and_intros <;> intros <;> exact next_always m _ _

/-- Settles O16: BAR2_BAD_ACCESS is the access itself, and a register access that is not aligned meets the alignment test first. -/
theorem badWidthOrAlignmentHasNoEffect : Obligations.BadWidthOrAlignmentHasNoEffect := by
  intro m q hp
  exact ⟨fun _ => next_whenOn hp rfl, fun _ => next_whenOn hp rfl,
    fun _ v h => next_whenOn hp (m.busWrite_misaligned v h), fun _ v h => next_whenOn hp (m.busWrite_misaligned v h),
    fun _ h => next_whenOn hp (m.busRead_misaligned h), fun _ h => next_whenOn hp (m.busRead_misaligned h)⟩

/-- Settles O18: SVC_LOCK_SET sets one field of one bit. -/
theorem lockIsSet : Obligations.LockIsSet := fun m _ hp hr =>
  ⟨m.lockSet, next_onBus hp hr rfl, m.reg_setReg_same Reg.SVC_LOCK_LOCK 1, m.onlyRegs_setReg Reg.SVC_LOCK_LOCK 1⟩

end

/-! Proofs of the package and hierarchy chapter: a module without power, the fault record, controllers that take commands, input power. -/
namespace Sys2Proof.Machine

/-! ### How a command runs: as a register write, with the module's power, or whatever the power -/

/-- A command that is a register write of its own runs on the bus. -/
theorem exec_onBus {c : Instr} (h : isBusWrite c = true) : ∃ f : Mdl → Mdl, ∀ s : State, exec c s = .next (s.onBus f) := by
  cases c <;> cases h <;> exact ⟨_, fun _ => rfl⟩

/-- Every other command but those that a module without power answers to runs with the module's power. -/
theorem exec_whenOn {c : Instr} (hw : wakes c = false) (hb : isBusWrite c = false) :
    ∃ f : Mdl → Mdl, ∀ s : State, exec c s = .next (s.whenOn f) := by
  cases c <;> cases hw <;> cases hb <;> exact ⟨_, fun _ => rfl⟩

/-- A module without power keeps its whole state at every command but those that it answers to without power. -/
theorem exec_off {c : Instr} {s : State} (hp : s.powered = false) (hw : wakes c = false) : exec c s = .next s := by
  cases hb : isBusWrite c with
  | true =>
    obtain ⟨f, hf⟩ := exec_onBus hb
    rw [hf, State.onBus_off f hp]
  | false =>
    obtain ⟨f, hf⟩ := exec_whenOn hw hb
    rw [hf, State.whenOn_off f hp]

/-- A module without power idles. -/
theorem step_off_empty {s : State} (hp : s.powered = false) (hq : s.pending = []) : step s = .next s := by
  rw [step, hq]
  exact congrArg _ (State.whenOn_off _ hp)

/-! ### A module that has not started (Table 14-1) -/

/-- What a command leaves of a module that has not started: it still has not, and all it holds is as before but the service state, the host's
state, its answers, the index of free values, and the two register fields that show the input's state and the time since it came. -/
def Mdl.staysUnstarted (m t : Mdl) : Prop :=
  t.svc.started = false ∧ m.keepsRegs t [Reg.PWR_DOMAIN_STATUS_ON, Reg.SVC_UPTIME_MS] ∧
    t = { m with regs := t.regs, svc := t.svc, host := t.host, out := t.out, free := t.free }

/-- A module that has not started has no power (R19, R660). -/
theorem Mdl.powered_of_unstarted {m : Mdl} (h : m.svc.started = false) : m.powered = false := by simp [Mdl.powered, h]

theorem Mdl.staysUnstarted_refl {m : Mdl} (h : m.svc.started = false) : m.staysUnstarted m := ⟨h, m.keepsRegs_refl _, rfl⟩

/-- The stage is none of the two fields, so it is as before. -/
theorem Mdl.staysUnstarted.stage {m t : Mdl} (h : m.staysUnstarted t) : t.stage = m.stage := by
  obtain ⟨-, hr, -⟩ := h
  exact hr Reg.SVC_STATUS_STAGE (by decide)

/-- Answers of the management endpoint, which runs from P54 alone. -/
theorem Mdl.staysUnstarted_mgmt {m : Mdl} {f : Mdl → Mdl} (h : m.svc.started = false) (hf : m.staysUnstarted (f m)) :
    m.staysUnstarted (m.mgmt f) := by
  unfold Mdl.mgmt
  split
  · exact hf
  · exact Mdl.staysUnstarted_refl h

theorem Mdl.staysUnstarted_emit {m : Mdl} (h : m.svc.started = false) (o : Out) : m.staysUnstarted (m.emit o) := ⟨h, fun _ _ => rfl, rfl⟩

/-- A change of the service state, then one of the domains that are on. -/
theorem Mdl.staysUnstarted_domains {m : Mdl} {v : SvcSt} (h : v.started = false) (n : Nat) :
    m.staysUnstarted ({ m with svc := v }.setReg Reg.PWR_DOMAIN_STATUS_ON n) :=
  ⟨h, fun g hg => Mdl.reg_setReg_other { m with svc := v } n (hg Reg.PWR_DOMAIN_STATUS_ON (by simp)), rfl⟩

theorem Mdl.moduleInsert_staysUnstarted {m : Mdl} (h : m.svc.started = false) : m.staysUnstarted m.moduleInsert := by
  unfold Mdl.moduleInsert
  split
  · exact Mdl.staysUnstarted_refl h
  · exact Mdl.staysUnstarted_domains (v := { m.svc with p54 := true, charged := false, bay := none }) h _

/-- The clock's source is chosen by a module that has started (R70). -/
theorem Mdl.sourceTime_unstarted {m : Mdl} (h : m.svc.started = false) (t : Nat) : m.sourceTime t = m := by simp [Mdl.sourceTime, h]

/-- Only a module that has started reports ready. -/
theorem Mdl.tryReady_unstarted {m : Mdl} (h : m.svc.started = false) : m.tryReady = m := by simp [Mdl.tryReady, h]

theorem Mdl.holdupCharged_staysUnstarted {m : Mdl} (h : m.svc.started = false) (ms : Nat) : m.staysUnstarted (m.holdupCharged ms) := by
  unfold Mdl.holdupCharged
  split
  · exact Mdl.staysUnstarted_refl h
  · obtain ⟨x, hx⟩ : ∃ x : Mdl, x = { m with svc := { m.svc with charged := true } } := ⟨_, rfl⟩
    have hs : x.svc.started = false := by rw [hx]; exact h
    rw [← hx, Mdl.atMs, Mdl.sourceTime_unstarted hs, Mdl.tryReady_unstarted ((congrArg _ (Mdl.setReg_svc ..)).trans hs)]
    exact ⟨hs, fun g hg => (Mdl.reg_setReg_other x _ (hg Reg.SVC_UPTIME_MS (by simp))).trans (Mdl.reg_of_regs (by rw [hx]) g), by rw [hx]; rfl⟩

/-- A module that has not started has nothing to save when its input goes. -/
theorem Mdl.inputOut_staysUnstarted {m : Mdl} (h : m.svc.started = false) (used : Nat) : m.staysUnstarted (m.inputOut used) := by
  unfold Mdl.inputOut
  simp only [Mdl.powered_of_unstarted h, Bool.false_eq_true, if_false]
  split
  · exact Mdl.staysUnstarted_refl h
  · exact Mdl.staysUnstarted_domains rfl _

theorem Mdl.miData_staysUnstarted {m : Mdl} (h : m.svc.started = false) (type : Nat) : m.staysUnstarted (m.miData type) := by
  refine Mdl.staysUnstarted_mgmt h ?_
  dsimp only
  split
  · exact Mdl.staysUnstarted_emit h _
  · exact ⟨h, fun _ _ => rfl, rfl⟩

theorem Mdl.miSet_staysUnstarted {m : Mdl} (h : m.svc.started = false) (id v : Nat) : m.staysUnstarted (m.miSet id v) :=
  Mdl.staysUnstarted_mgmt h ⟨h, fun _ _ => rfl, rfl⟩

theorem Mdl.vpdRead_staysUnstarted {m : Mdl} (h : m.svc.started = false) (mem : IdMem) (off n : Nat) : m.staysUnstarted (m.vpdRead mem off n) := by
  unfold Mdl.vpdRead
  cases mem with
  | module => exact Mdl.staysUnstarted_emit h _
  | bay => exact Mdl.staysUnstarted_emit h _
  | cartridge slot =>
    dsimp only
    split
    · exact Mdl.staysUnstarted_emit h _
    · exact Mdl.staysUnstarted_refl h

/-- Before ready a tunnelled command ends with Admin Command Media Not Ready (R606). -/
theorem Mdl.tunnelled_staysUnstarted {m : Mdl} (h : m.svc.started = false) (h2 : m.stage ≠ 2) (h6 : m.stage ≠ 6) (t : Tunnel) :
    m.staysUnstarted (m.tunnelled t) := by
  refine Mdl.staysUnstarted_mgmt h ?_
  rw [if_pos (by simp [h2, h6])]
  exact Mdl.staysUnstarted_emit h _

/-- Every command but POWER_UP leaves a module that has not started so. -/
theorem exec_staysUnstarted {c : Instr} (hc : isPowerUp c = false) {m : Mdl} (h : m.svc.started = false) (h2 : m.stage ≠ 2) (h6 : m.stage ≠ 6)
    (q : List Instr) : ∃ t : Mdl, exec c ⟨m, q⟩ = .next ⟨t, q⟩ ∧ m.staysUnstarted t := by
  cases hw : wakes c with
  | false => exact ⟨m, exec_off (Mdl.powered_of_unstarted h) hw, Mdl.staysUnstarted_refl h⟩
  | true =>
    cases c
    case powerUp => cases hc
    case moduleInsert => exact ⟨_, rfl, Mdl.moduleInsert_staysUnstarted h⟩
    case holdupCharged ms => exact ⟨_, rfl, Mdl.holdupCharged_staysUnstarted h ms⟩
    case inputOutOfRange used => exact ⟨_, rfl, Mdl.inputOut_staysUnstarted h used⟩
    case readNvmeMiDataStructure type => exact ⟨_, rfl, Mdl.miData_staysUnstarted h type⟩
    case subsystemHealthStatusPoll => exact ⟨m.miHealth, rfl, Mdl.staysUnstarted_mgmt h (Mdl.staysUnstarted_emit h _)⟩
    case controllerHealthStatusPoll ctl => exact ⟨m.miController ctl, rfl, Mdl.staysUnstarted_mgmt h (Mdl.staysUnstarted_emit h _)⟩
    case configurationGet id => exact ⟨m.miGet id, rfl, Mdl.staysUnstarted_mgmt h (Mdl.staysUnstarted_emit h _)⟩
    case configurationSet id v => exact ⟨_, rfl, Mdl.miSet_staysUnstarted h id v⟩
    case vpdRead mem off n => exact ⟨_, rfl, Mdl.vpdRead_staysUnstarted h mem off n⟩
    case tunnelledAdminCommand t => exact ⟨_, rfl, Mdl.tunnelled_staysUnstarted h h2 h6 t⟩
    all_goals cases hw

/-! ### The fault record (R51, R52) -/

/-- A field of a list of writes to different fields reads as the value written, cut to its width. -/
theorem Mdl.reg_setRegs_mem {p : Fld × Nat} : ∀ (l : List (Fld × Nat)) (s : Mdl), (l.map fun x => x.1.key).Nodup → p ∈ l →
    (s.setRegs l).reg p.1 = p.2 % 2 ^ p.1.width
  | [], _, _, h => absurd h List.not_mem_nil
  | (f, v) :: t, s, hn, hp => by
    obtain ⟨hf, ht⟩ := List.nodup_cons.1 hn
    rw [Mdl.setRegs_cons]
    rcases List.mem_cons.1 hp with rfl | hp
    · have ho : ∀ x ∈ t, f.key ≠ x.1.key := fun x hx e => hf (List.mem_map.2 ⟨x, hx, e.symm⟩)
      rw [Mdl.reg_setRegs_other f t _ ho, Mdl.reg_setReg_same]
    · exact Mdl.reg_setRegs_mem t _ ht hp

/-- Posting an event changes only the service state and the answers. -/
theorem Mdl.postEvent_eq (s : Mdl) (i p : Nat) : s.postEvent i p = { s with svc := (s.postEvent i p).svc, out := (s.postEvent i p).out } := by
  unfold Mdl.postEvent
  split <;> rfl

@[simp] theorem Mdl.postEvent_hierLog (s : Mdl) (i p : Nat) : (s.postEvent i p).svc.hierLog = s.svc.hierLog := by
  unfold Mdl.postEvent
  split <;> rfl

@[simp] theorem Mdl.postEvent_logBook (s : Mdl) (i p : Nat) : (s.postEvent i p).svc.logBook = s.svc.logBook := by
  unfold Mdl.postEvent
  split <;> rfl

/-- The newest record of the log book is the one just written. -/
theorem Mdl.logBook_newest (s : Mdl) (kind data : Nat) :
    ((s.logBook kind data).svc.logBook.head?.map fun r => (r.kind, r.data)) = some (kind, data % 2 ^ 80) := rfl

/-- What a fault of a unit puts into SVC_HIER_FAULT and SVC_HIER_FAULT_EPOCH (Tables 1-9, 1-10). -/
def faultValues (u : UnitAddr) (kind action epoch : Nat) : List (Fld × Nat) :=
  [(Reg.SVC_HIER_FAULT_VALID, 1), (Reg.SVC_HIER_FAULT_LEVEL, u.level.code), (Reg.SVC_HIER_FAULT_DIE, u.die), (Reg.SVC_HIER_FAULT_CLUSTER, u.cluster),
    (Reg.SVC_HIER_FAULT_CORE, u.core), (Reg.SVC_HIER_FAULT_LANE, u.lane), (Reg.SVC_HIER_FAULT_KIND, kind), (Reg.SVC_HIER_FAULT_ACTION, action),
    (Reg.SVC_HIER_FAULT_EPOCH_EPOCH, epoch)]

theorem faultValues_fields (u : UnitAddr) (kind action epoch : Nat) : (faultValues u kind action epoch).map Prod.fst = faultRecord := rfl

theorem faultRecord_nodup : (faultRecord.map Fld.key).Nodup := by decide

theorem faultValues_nodup (u : UnitAddr) (kind action epoch : Nat) : ((faultValues u kind action epoch).map fun x => x.1.key).Nodup :=
  faultRecord_nodup

/-- A fault found while VALID is 0 sets the fields of the record, each to its value, and of the rest changes the service state and the answers
alone. -/
theorem Mdl.hierRecord_first_spec (m : Mdl) (u : UnitAddr) (kind action : Nat) (hv : m.reg Reg.SVC_HIER_FAULT_VALID ≠ 1) :
    (∀ p ∈ faultValues u kind action m.epoch, (m.hierRecord u kind action).reg p.1 = p.2 % 2 ^ p.1.width) ∧
      m.keepsRegs (m.hierRecord u kind action) faultRecord ∧
      m.hierRecord u kind action = { m with
        regs := (m.hierRecord u kind action).regs, svc := (m.hierRecord u kind action).svc, out := (m.hierRecord u kind action).out } := by
  obtain ⟨x, hx, -, he⟩ := m.hierRecord_first u kind action hv
  obtain ⟨hset, hkeep⟩ := x.onlyRegs_setRegs (faultValues u kind action m.epoch)
  rw [faultValues_fields] at hkeep
  change m.hierRecord u kind action = (x.setRegs (faultValues u kind action m.epoch)).postEvent 0 0xC0 at he
  have hregs : ∀ f, x.reg f = m.reg f := fun f => Mdl.reg_of_regs (by rw [hx]) f
  refine ⟨fun p hp => ?values, fun g hg => ?others, ?frame⟩
  case values => rw [he, Mdl.reg_postEvent, Mdl.reg_setRegs_mem _ x (faultValues_nodup ..) hp]
  case others => rw [he, Mdl.reg_postEvent, hkeep g hg, hregs]
  case frame =>
    have hp := Mdl.postEvent_eq (x.setRegs (faultValues u kind action m.epoch)) 0 0xC0
    rw [← he, hset, hx] at hp
    rw [hp]

/-- A fault found while VALID is 1 sets OVERFLOW and no other field, and reaches the fault log and the log book. -/
theorem Mdl.hierRecord_further_spec (m : Mdl) (u : UnitAddr) (kind action : Nat) (hv : m.reg Reg.SVC_HIER_FAULT_VALID = 1) :
    (m.hierRecord u kind action).reg Reg.SVC_HIER_FAULT_OVERFLOW = 1 ∧
      m.keepsRegs (m.hierRecord u kind action) [Reg.SVC_HIER_FAULT_OVERFLOW] ∧
      (m.hierRecord u kind action).svc.hierLog.head? = some ⟨u, kind, action, m.epoch, m.svc.hierTotal + 1⟩ ∧
      ((m.hierRecord u kind action).svc.logBook.head?.map fun r => (r.kind, r.data)) = some (0x05, hierWord u kind action % 2 ^ 80) := by
  obtain ⟨x, hx, hlog, hbook, he⟩ := m.hierRecord_further u kind action hv
  have hregs : ∀ f, x.reg f = m.reg f := fun f => Mdl.reg_of_regs (by rw [hx]) f
  rw [he]
  refine ⟨?overflow, fun g hg => ?others, ?log, ?book⟩
  case overflow => rw [Mdl.reg_postEvent, Mdl.reg_setReg_same]; rfl
  case others => rw [Mdl.reg_postEvent, Mdl.reg_setReg_other x 1 (hg _ List.mem_cons_self), hregs]
  case log => rw [Mdl.postEvent_hierLog, Mdl.setReg_svc, hlog]
  case book => rw [Mdl.postEvent_logBook, Mdl.setReg_svc, hbook, Mdl.logBook_newest]

/-- A failed link is a fault of the package with KIND 0x0B; it is known as failed from then on (R39). -/
theorem Mdl.linkFailure_reg (m : Mdl) (n : Nat) (f : Fld) : (m.linkFailure n).reg f = (m.hierRecord unitPackage 0x0B 3).reg f := rfl

theorem Mdl.linkFailure_failedLinks (m : Mdl) (n : Nat) : (m.linkFailure n).svc.failedLinks.contains n = true := by
  unfold Mdl.linkFailure
  dsimp only
  split
  · assumption
  · simp

/-! ### The service processor (R45) -/

/-- The standby service processor takes over once. -/
theorem Mdl.takeover_again {m : Mdl} (h : m.reg Reg.SVC_STATUS_SP = 1) : m.takeover = m := by
  rw [Mdl.takeover, if_pos ((m.flag_iff _).2 h)]

theorem Mdl.takeover_first {m : Mdl} (h : m.reg Reg.SVC_STATUS_SP ≠ 1) :
    m.takeover = (m.hierRecord unitPackage 0x0E 0).setReg Reg.SVC_STATUS_SP 1 := by
  rw [Mdl.takeover, if_neg (mt (m.flag_iff _).1 h)]

/-- SVC_STATUS.SP is no field of the fault record. -/
theorem faultRecord_key_ne_sp : ∀ f ∈ faultRecord, f.key ≠ Reg.SVC_STATUS_SP.key := by decide

/-! ### Controllers that take commands (R570, R583, R584) -/

/-- A controller that takes no commands fetches none. -/
theorem Mdl.submit_refused {m : Mdl} {c : HostCmd} (h : m.ctlOk c.ctl = false) : m.submit c = m := by simp [Mdl.submit, h]

/-- A controller that takes no commands takes no admin command. -/
theorem Mdl.admin_refused {m : Mdl} {ctl : Nat} (h : m.ctlOk ctl = false) (f : Mdl → Mdl) : m.admin ctl f = m := by simp [Mdl.admin, h]

/-- A controller that takes commands performs its admin command. -/
theorem Mdl.admin_ok {m : Mdl} {ctl : Nat} (h : m.ctlOk ctl = true) (f : Mdl → Mdl) : m.admin ctl f = f m := by simp [Mdl.admin, h]

theorem Mdl.abortCmd_refused {m : Mdl} {ctl : Nat} (h : m.ctlOk ctl = false) (cid target n : Nat) : m.abortCmd cid ctl target n = m := by
  simp [Mdl.abortCmd, h]

/-- An Abort beyond the sixteen outstanding ends with Abort Command Limit Exceeded (R584). -/
theorem Mdl.abortCmd_beyondLimit {m : Mdl} {ctl n : Nat} (h : m.ctlOk ctl = true) (hn : 16 ≤ n) (cid target : Nat) :
    m.abortCmd cid ctl target n = m.complete cid ctl .abortLimitExceeded := by
  simp [Mdl.abortCmd, h, hn]

/-- No job belongs to the command. -/
theorem Mdl.jobList_find_none {m : Mdl} {i : Nat × Nat} (h : ∀ p ∈ m.jobList, p.2.cid ≠ some i) :
    (m.jobList.find? fun j => j.2.cid == some i) = none :=
  List.find?_eq_none.2 fun p hp e => h p hp (beq_iff_eq.1 e)

/-- An Abort of a command that the module no longer has, as one that waits or as a job, catches nothing (R583). -/
theorem Mdl.abortCmd_tooLate {m : Mdl} {ctl n target : Nat} (h : m.ctlOk ctl = true) (hn : n < 16) (hf : m.fetchedAt target ctl = none)
    (hj : ∀ p ∈ m.jobList, p.2.cid ≠ some (target, ctl)) (cid : Nat) : m.abortCmd cid ctl target n = m.complete cid ctl .success 1 := by
  simp [Mdl.abortCmd, h, Nat.not_le.2 hn, hf, Mdl.jobList_find_none hj]

/-! ### Input power (R19, R22, R54) and the hold-up bank (R21) -/

theorem Mdl.moduleInsert_first {m : Mdl} (h : m.svc.p54 = false) :
    m.moduleInsert = { m with svc := { m.svc with p54 := true, charged := false, bay := none } }.setReg Reg.PWR_DOMAIN_STATUS_ON (2 ^ 28 + 2 ^ 29) := by
  simp [Mdl.moduleInsert, h]

/-- When the input goes, domain 29 alone stays on, whatever the power-loss sequence of a module that ran has left. -/
theorem Mdl.inputOut_present {m : Mdl} (h : m.svc.p54 = true) (used : Nat) :
    ∃ x : Mdl, m.inputOut used =
      { x with svc := { x.svc with p54 := false, charged := false, started := false } }.setReg Reg.PWR_DOMAIN_STATUS_ON (2 ^ 29) :=
  ⟨if m.powered then m.powerLoss used else m, by simp [Mdl.inputOut, h]⟩

/-- The fields that a measurement of the hold-up energy sets. -/
def holdupValues (energy : Nat) : List (Fld × Nat) := [(Reg.PWR_HOLDUP_ENERGY, energy), (Reg.PWR_HOLDUP_LOW, b2n (decide (energy < 1600)))]

theorem holdupValues_nodup (energy : Nat) : ((holdupValues energy).map fun x => x.1.key).Nodup :=
  (by decide : [Reg.PWR_HOLDUP_ENERGY.key, Reg.PWR_HOLDUP_LOW.key].Nodup)

/-- A record of the log book changes the service state alone, and not the power-on hours. -/
theorem Mdl.logBook_eq (s : Mdl) (kind data : Nat) : s.logBook kind data = { s with svc := (s.logBook kind data).svc } := rfl
@[simp] theorem Mdl.logBook_poh (s : Mdl) (kind data : Nat) : (s.logBook kind data).svc.poh = s.svc.poh := rfl

/-- A module is itself with its own service state. -/
theorem Mdl.eq_withSvc {s : Mdl} {v : SvcSt} (h : s.svc = v) : s = { s with svc := v } := by
  subst h
  rfl

/-- Register fields are set whatever the service state. -/
theorem Mdl.setRegs_withSvc (v : SvcSt) (l : List (Fld × Nat)) : ∀ m : Mdl, { m with svc := v }.setRegs l = { m.setRegs l with svc := v } := by
  induction l with
  | nil => intro m; rfl
  | cons p t ih => intro m; exact ih (m.setReg p.1 p.2)

/-- A measurement sets its two fields; a change of LOW is recorded in the log book. -/
theorem Mdl.holdup_cases (s : Mdl) (energy : Nat) : s.holdup energy = s.setRegs (holdupValues energy) ∨
    ∃ data, s.holdup energy = (s.setRegs (holdupValues energy)).logBook 0x03 data := by
  by_cases h : s.flag Reg.PWR_HOLDUP_LOW = decide (energy < 1600)
  · exact .inl (if_pos h)
  · exact .inr ⟨_, if_neg h⟩

/-- A measurement changes its two fields and the service state alone, and not the power-on hours. -/
theorem Mdl.holdup_eq (s : Mdl) (energy : Nat) :
    ∃ v : SvcSt, v.poh = s.svc.poh ∧ s.holdup energy = { s.setRegs (holdupValues energy) with svc := v } := by
  have hsvc := s.setRegs_svc (holdupValues energy)
  obtain h | ⟨data, h⟩ := s.holdup_cases energy
  · exact ⟨_, rfl, h.trans (Mdl.eq_withSvc hsvc)⟩
  · exact ⟨_, (Mdl.logBook_poh _ 0x03 data).trans (congrArg SvcSt.poh hsvc), h.trans (Mdl.logBook_eq _ 0x03 data)⟩

/-- HOLDUP_MEASURE counts 24 power-on hours, and otherwise changes the two fields and the service state alone. -/
theorem Mdl.holdupMeasure_eq (m : Mdl) (energy wh : Nat) :
    ∃ v : SvcSt, v.poh = m.svc.poh + 24 ∧ m.holdupMeasure energy wh = { m.setRegs (holdupValues energy) with svc := v } := by
  obtain ⟨w, data, hm, hw⟩ : ∃ (w : SvcSt) (data : Nat),
      m.holdupMeasure energy wh = ({ m with svc := w }.holdup energy).logBook 0x0D data ∧ w.poh = m.svc.poh + 24 := ⟨_, _, rfl, rfl⟩
  obtain ⟨v, hv, he⟩ := Mdl.holdup_eq { m with svc := w } energy
  rw [Mdl.setRegs_withSvc] at he
  rw [hm, he]
  exact ⟨_, ((Mdl.logBook_poh _ 0x0D data).trans hv).trans hw, Mdl.logBook_eq _ 0x0D data⟩

end Sys2Proof.Machine

section
open Sys2Proof Sys2Proof.Machine

/-- Settles O13: no command but POWER_UP starts the module (`exec_staysUnstarted`), and without power it idles. -/
theorem onlyPowerUpStartsTheModule : Obligations.OnlyPowerUpStartsTheModule := by
  intro s s' ⟨hs, h2, h6, hq⟩ hstep
  obtain ⟨m, q⟩ := s
  cases q with
  | nil =>
    cases (step_off_empty (Mdl.powered_of_unstarted hs) rfl).symm.trans hstep
    exact ⟨⟨hs, h2, h6, hq⟩, m.keepsRegs_refl _, rfl⟩
  | cons c q =>
    obtain ⟨t, hexec, hkeep⟩ := exec_staysUnstarted (hq c List.mem_cons_self) hs h2 h6 q
    cases hexec.symm.trans hstep
    have hstage := hkeep.stage
    obtain ⟨hs', hr, he⟩ := hkeep
    exact ⟨⟨hs', hstage.trans_ne h2, hstage.trans_ne h6, fun d hd => hq d (List.mem_cons_of_mem c hd)⟩, hr, he⟩

/-- Settles O12: every command that needs power runs on the bus or with the module's power (`exec_off`). -/
theorem withoutPowerNothingHappens : Obligations.WithoutPowerNothingHappens :=
  fun _ _ _ hp hw => exec_off hp hw

/-- Settles O24: a failed link is recorded by the operation that records every fault. -/
theorem furtherFaultKeepsTheRecord : Obligations.FurtherFaultKeepsTheRecord := by
  intro m hv
  refine ⟨fun u kind action => m.hierRecord_further_spec u kind action hv, fun q n hp => ⟨m.linkFailure n, next_whenOn hp rfl, ?_⟩⟩
  obtain ⟨hover, hkeep, -, -⟩ := m.hierRecord_further_spec unitPackage 0x0B 3 hv
  exact ⟨(m.linkFailure_reg n _).trans hover, fun g hg => (m.linkFailure_reg n g).trans (hkeep g hg), m.linkFailure_failedLinks n⟩

/-- Settles O25: each value of a unit in range fits its field. -/
theorem firstFaultIsRecorded : Obligations.FirstFaultIsRecorded := by
  intro m u kind action hv hd hc hk hl hkind haction hepoch
  obtain ⟨hval, hkeep, hframe⟩ := m.hierRecord_first_spec u kind action hv
  simp only [faultValues, List.forall_mem_cons] at hval
  obtain ⟨hvalid, hlevel, hdie, hcluster, hcore, hlane, hkindv, hactionv, hepochv, -⟩ := hval
  have hcode : u.level.code < 2 ^ 3 := by cases u.level <;> decide
  exact ⟨hvalid, hlevel.trans (Nat.mod_eq_of_lt hcode), hdie.trans (Nat.mod_eq_of_lt hd), hcluster.trans (Nat.mod_eq_of_lt (hc.trans (by decide))),
    hcore.trans (Nat.mod_eq_of_lt (hk.trans (by decide))), hlane.trans (Nat.mod_eq_of_lt (hl.trans (by decide))),
    hkindv.trans (Nat.mod_eq_of_lt hkind), hactionv.trans (Nat.mod_eq_of_lt haction), hepochv.trans (Nat.mod_eq_of_lt hepoch), hkeep, hframe⟩

/-- Settles O26: the takeover is the fault's record and one more field, which is none of the record's. -/
theorem standbyServiceProcessorTakesOver : Obligations.StandbyServiceProcessorTakesOver := by
  intro m q hp
  refine ⟨fun hsp => next_whenOn hp (Mdl.takeover_again hsp), fun hsp hv => ⟨_, next_whenOn hp (Mdl.takeover_first hsp), ?_⟩⟩
  obtain ⟨hval, hkeep, hframe⟩ := m.hierRecord_first_spec unitPackage 0x0E 0 hv
  simp only [faultValues, List.forall_mem_cons] at hval
  obtain ⟨hvalid, hlevel, -, -, -, -, hkind, -⟩ := hval
  obtain ⟨-, hother⟩ := (m.hierRecord unitPackage 0x0E 0).onlyRegs_setReg Reg.SVC_STATUS_SP 1
  have record : ∀ f ∈ faultRecord, ((m.hierRecord unitPackage 0x0E 0).setReg Reg.SVC_STATUS_SP 1).reg f = (m.hierRecord unitPackage 0x0E 0).reg f :=
    fun f hf => Mdl.reg_setReg_other _ 1 (faultRecord_key_ne_sp f hf)
  refine ⟨Mdl.reg_setReg_same _ _ _, (record _ (by simp [faultRecord])).trans hvalid, (record _ (by simp [faultRecord])).trans hlevel,
    (record _ (by simp [faultRecord])).trans hkind, fun g hg => ?others, ?frame⟩
  case others =>
    rw [hother g fun f hf => hg f (List.mem_cons.2 (.inl (List.mem_singleton.1 hf)))]
    exact hkeep g fun f hf => hg f (List.mem_cons_of_mem _ hf)
  case frame => exact congrArg (fun x : Mdl => x.setReg Reg.SVC_STATUS_SP 1) hframe

/-- Settles O56: a controller that takes no command leaves the module as it is; Flush completes at once, and an Abort by its branch. -/
theorem onlyReadyControllersTakeCommands : Obligations.OnlyReadyControllersTakeCommands := by
  intro m q cid ctl hp
  refine ⟨fun hctl c hc => ?refused, fun hctl => ⟨?flush, fun target n hn => ?beyondLimit, fun target n hn hf hj => ?tooLate⟩⟩
  case refused =>
    have notFetched : ∀ op : HostOp, m.submit ⟨cid, ctl, op⟩ = m := fun _ => Mdl.submit_refused hctl
    have notAdmitted : ∀ f : Mdl → Mdl, m.admin ctl f = m := fun f => Mdl.admin_refused hctl f
    obtain ⟨n, l, k, rfl⟩ | ⟨n, l, d, rfl⟩ | ⟨n, l, k, rfl⟩ | rfl | ⟨a, b, rfl⟩ | rfl | ⟨n, rfl⟩ | ⟨p, s, a, rfl⟩ | ⟨n, b, k, rfl⟩ |
      ⟨n, b, d, rfl⟩ | ⟨b, rfl⟩ | ⟨p, r, rfl⟩ | rfl | ⟨b, rfl⟩ := hc
    · exact next_whenOn hp (notFetched (.read n l k))
    · exact next_whenOn hp (notFetched (.write n l d))
    · exact next_whenOn hp (notFetched (.zeroes n l k))
    · exact next_whenOn hp (notAdmitted _)
    · exact next_whenOn hp (Mdl.abortCmd_refused hctl cid a b)
    · exact next_whenOn hp (notAdmitted _)
    · exact next_whenOn hp (notAdmitted _)
    · exact next_whenOn hp (notFetched (.execute p s a))
    · exact next_whenOn hp (notFetched (.memRead n b k))
    · exact next_whenOn hp (notFetched (.memWrite n b d))
    · exact next_whenOn hp (notFetched (.sanitize b))
    · exact next_whenOn hp (notAdmitted _)
    · exact next_whenOn hp (notAdmitted _)
    · exact next_whenOn hp (notAdmitted _)
  case flush => exact next_whenOn hp (Mdl.admin_ok hctl _)
  case beyondLimit => exact next_whenOn hp (Mdl.abortCmd_beyondLimit hctl hn cid target)
  case tooLate => exact next_whenOn hp (Mdl.abortCmd_tooLate hctl hn hf hj cid)

/-- Settles O2: each command is its own operation, run with the module's power or as a register write. -/
theorem unitAndClockCommandsComplete : Obligations.UnitAndClockCommandsComplete := by
  intro m _
  refine ⟨fun hp => ?running, fun hp hr => ?ready⟩
  case running => and_intros <;> intros <;> exact next_whenOn hp rfl
  case ready => and_intros <;> intros <;> exact next_onBus hp hr rfl

/-- Settles O20: an insertion's one write of the domains, and the last thing that a lost input does. -/
theorem inputPowerGovernsTheAlwaysOnDomains : Obligations.InputPowerGovernsTheAlwaysOnDomains := by
  intro m q
  refine ⟨fun h => ?inserted, fun h used => ?lost⟩
  case inserted =>
    refine ⟨m.moduleInsert, rfl, ?_⟩
    rw [Mdl.moduleInsert_first h]
    exact ⟨rfl, rfl, Mdl.reg_setReg_same _ _ _, fun g hg => Mdl.reg_setReg_other _ _ (hg _ List.mem_cons_self), rfl, rfl, rfl⟩
  case lost =>
    obtain ⟨x, hx⟩ := Mdl.inputOut_present h used
    refine ⟨m.inputOut used, rfl, ?_⟩
    rw [hx]
    exact ⟨rfl, rfl, rfl, Mdl.reg_setReg_same _ _ _⟩

/-- Settles O21: the two fields and the hours of `Mdl.holdupMeasure_eq`; an energy below 2^16 fits its field. -/
theorem holdupMeasurementSetsLow : Obligations.HoldupMeasurementSetsLow := by
  intro m q energy wh hp he
  obtain ⟨v, hv, hm⟩ := m.holdupMeasure_eq energy wh
  refine ⟨_, next_whenOn hp hm, ?_⟩
  have hval := fun p hp => Mdl.reg_setRegs_mem (p := p) (holdupValues energy) m (holdupValues_nodup energy) hp
  simp only [holdupValues, List.forall_mem_cons] at hval
  obtain ⟨henergy, hlow, -⟩ := hval
  obtain ⟨hset, hkeep⟩ := m.onlyRegs_setRegs (holdupValues energy)
  refine ⟨henergy.trans (Nat.mod_eq_of_lt he), hlow.trans ?low, hkeep, hv, ?frame⟩
  case low => by_cases h : energy < 1600 <;> simp [h, b2n, Reg.PWR_HOLDUP_LOW]
  case frame => exact congrArg (fun x : Mdl => { x with svc := v }) hset

end

/-! Proofs of the transit and Ephemeris chapter: the boundary, epoch numbers and periods, the clock drive's table, the pin's filter, journal blocks,
the armed swap, and the reset state. -/
namespace Sys2Proof.Machine

/-! ### Register fields alone -/

/-- Two changes of register fields alone, one after the other. -/
theorem Mdl.onlyRegs_trans {m t u : Mdl} {l k : List Fld} (h : m.onlyRegs t l) (h' : t.onlyRegs u k) : m.onlyRegs u (l ++ k) := by
  obtain ⟨ht, hl⟩ := h
  obtain ⟨hu, hk⟩ := h'
  exact ⟨hu.trans (congrArg (fun x : Mdl => { x with regs := u.regs }) ht), Mdl.keepsRegs_trans hl hk⟩

/-- An event of the clock drive reaches the log and the host (R84), not the registers nor the drive. -/
@[simp] theorem Mdl.reg_driveEvent (s : Mdl) (e : Nat) (f : Fld) : (s.driveEvent e).reg f = s.reg f := by simp [Mdl.driveEvent]
@[simp] theorem Mdl.driveEvent_trn (s : Mdl) (e : Nat) : (s.driveEvent e).trn = s.trn := by simp [Mdl.driveEvent]

/-- Register fields are set whatever the drive's state. -/
theorem Mdl.setReg_withTrn (m : Mdl) (v : TransitSt) (f : Fld) (n : Nat) :
    ({ m.setReg f n with trn := v } : Mdl) = { m with trn := v }.setReg f n := rfl

/-- Fields set, and an event of the clock drive posted: no other field changes. -/
theorem Mdl.keepsRegs_setRegs_driveEvent {m s : Mdl} (h : s.regs = m.regs) (l : List (Fld × Nat)) (e : Nat) :
    m.keepsRegs ((s.setRegs l).driveEvent e) (l.map Prod.fst) :=
  fun g hg => (Mdl.reg_driveEvent _ e g).trans (((s.onlyRegs_setRegs l).2 g hg).trans (Mdl.reg_of_regs h g))

/-! ### The boundary's part of the clock drive (R66, R67, R86) -/

/-- The number of the epoch that begins at the coming boundary (R67, R90). -/
def Mdl.comingEpoch (m : Mdl) : Nat := m.trn.nextNumber.getD (m.epoch + 1) % 2 ^ 48

theorem Mdl.comingEpoch_eq (m : Mdl) : m.trn.nextNumber.getD (m.epoch + 1) % 2 ^ 48 = m.comingEpoch := rfl

/-- The announced period begins at the coming boundary (R86). -/
abbrev Mdl.periodDue (m : Mdl) : Prop :=
  m.reg Reg.TRN_NEXT_PERIOD_NEXT_PERIOD ≠ 0 ∧ m.comingEpoch = m.reg Reg.TRN_NEXT_EPOCH_NEXT_EPOCH

/-- The drive's state of the epoch that begins at a boundary at time `t`. -/
def Mdl.boundaryTrn (m : Mdl) (t : Nat) : TransitSt :=
  { m.trn with
    start := t, tracked := if m.periodDue then m.reg Reg.TRN_NEXT_PERIOD_NEXT_PERIOD else m.trn.tracked, nextAdjust := 0
    accepted := m.trn.acceptedNext, acceptedNext := false, strayPrev := m.trn.strayNow && (!m.trn.accepted && !m.trn.acceptedNext)
    strayNow := false, nextNumber := none }

/-- The fields that a boundary at time `t` sets, but HOLDOVER_EPOCHS. -/
def Mdl.boundaryFields (m : Mdl) (t : Nat) : List (Fld × Nat) :=
  (Reg.TRN_EPOCH_EPOCH, m.comingEpoch) :: (if m.periodDue then [(Reg.TRN_NEXT_PERIOD_NEXT_PERIOD, 0)] else []) ++
    [(Reg.TRN_PERIOD_PERIOD, adjusted (m.boundaryTrn t).tracked m.trn.nextAdjust), (Reg.TRN_PHASE_PHASE, 0)]

theorem Mdl.boundaryFields_nodup (m : Mdl) (t : Nat) : ((m.boundaryFields t).map fun x => x.1.key).Nodup := by
  unfold Mdl.boundaryFields
  split
  · exact (by decide : [Reg.TRN_EPOCH_EPOCH.key, Reg.TRN_NEXT_PERIOD_NEXT_PERIOD.key, Reg.TRN_PERIOD_PERIOD.key, Reg.TRN_PHASE_PHASE.key].Nodup)
  · exact (by decide : [Reg.TRN_EPOCH_EPOCH.key, Reg.TRN_PERIOD_PERIOD.key, Reg.TRN_PHASE_PHASE.key].Nodup)

theorem Mdl.boundaryFields_fst (m : Mdl) (t : Nat) : ∀ f ∈ (m.boundaryFields t).map Prod.fst,
    f ∈ [Reg.TRN_EPOCH_EPOCH, Reg.TRN_NEXT_PERIOD_NEXT_PERIOD, Reg.TRN_PERIOD_PERIOD, Reg.TRN_PHASE_PHASE] := by
  intro f hf
  unfold Mdl.boundaryFields at hf
  split at hf <;> simp at hf ⊢ <;> tauto

/-- A boundary sets the drive's state and the fields, and then counts an epoch of HOLDOVER. -/
theorem Mdl.driveBoundary_onlyRegs (m : Mdl) (t : Nat) :
    ({ m with trn := m.boundaryTrn t }.setRegs (m.boundaryFields t)).onlyRegs (m.driveBoundary t) [Reg.TRN_STATUS_HOLDOVER_EPOCHS] := by
  obtain ⟨x, hx⟩ : ∃ x : Mdl, x = { m with trn := m.boundaryTrn t }.setRegs (m.boundaryFields t) := ⟨_, rfl⟩
  have hc := m.comingEpoch_eq
  have hn (n : Nat) : (m.setReg Reg.TRN_EPOCH_EPOCH n).reg Reg.TRN_NEXT_PERIOD_NEXT_PERIOD = m.reg Reg.TRN_NEXT_PERIOD_NEXT_PERIOD :=
    Mdl.reg_setReg_other m n (by decide)
  have he (n : Nat) : (m.setReg Reg.TRN_EPOCH_EPOCH n).reg Reg.TRN_NEXT_EPOCH_NEXT_EPOCH = m.reg Reg.TRN_NEXT_EPOCH_NEXT_EPOCH :=
    Mdl.reg_setReg_other m n (by decide)
  have hrun : m.driveBoundary t = if x.drive = holdover ∧ (!m.trn.accepted && !m.trn.acceptedNext) = true then
      x.setReg Reg.TRN_STATUS_HOLDOVER_EPOCHS (min 64 (x.reg Reg.TRN_STATUS_HOLDOVER_EPOCHS + 1)) else x := by
    simp only [hx, Mdl.driveBoundary, Mdl.boundaryFields, Mdl.boundaryTrn, Mdl.periodDue, hc, hn, he]
    by_cases hd : m.reg Reg.TRN_NEXT_PERIOD_NEXT_PERIOD ≠ 0 ∧ m.comingEpoch = m.reg Reg.TRN_NEXT_EPOCH_NEXT_EPOCH
    · simp only [if_pos hd, Mdl.setRegs_cons, Mdl.setRegs_nil, List.cons_append, List.nil_append, Mdl.setReg_trn, Mdl.setReg_withTrn]
    · simp only [if_neg hd, Mdl.setRegs_cons, Mdl.setRegs_nil, List.cons_append, List.nil_append, Mdl.setReg_trn, Mdl.setReg_withTrn]
  rw [← hx, hrun]
  split
  · exact x.onlyRegs_setReg _ _
  · exact x.onlyRegs_refl _

theorem Mdl.driveBoundary_trn (m : Mdl) (t : Nat) : (m.driveBoundary t).trn = m.boundaryTrn t := by
  obtain ⟨hframe, -⟩ := m.driveBoundary_onlyRegs t
  rw [hframe]
  exact Mdl.setRegs_trn _ _

theorem Mdl.driveBoundary_eq (m : Mdl) (t : Nat) :
    m.driveBoundary t = { m with regs := (m.driveBoundary t).regs, trn := (m.driveBoundary t).trn } := by
  obtain ⟨hframe, -⟩ := m.driveBoundary_onlyRegs t
  rw [Mdl.driveBoundary_trn]
  exact hframe.trans (congrArg (fun x : Mdl => { x with regs := (m.driveBoundary t).regs }) (Mdl.setRegs_eq (m.boundaryFields t) _))

theorem Mdl.driveBoundary_keepsRegs (m : Mdl) (t : Nat) : m.keepsRegs (m.driveBoundary t)
    [Reg.TRN_EPOCH_EPOCH, Reg.TRN_NEXT_PERIOD_NEXT_PERIOD, Reg.TRN_PERIOD_PERIOD, Reg.TRN_PHASE_PHASE, Reg.TRN_STATUS_HOLDOVER_EPOCHS] := by
  obtain ⟨-, hset⟩ := Mdl.onlyRegs_setRegs { m with trn := m.boundaryTrn t } (m.boundaryFields t)
  obtain ⟨-, hcount⟩ := m.driveBoundary_onlyRegs t
  exact Mdl.keepsRegs_trans (Mdl.keepsRegs_mono hset (m.boundaryFields_fst t)) hcount

/-- A field that a boundary sets reads as the value set, cut to its width. -/
theorem Mdl.reg_driveBoundary {m : Mdl} {t : Nat} {p : Fld × Nat} (hp : p ∈ m.boundaryFields t) :
    (m.driveBoundary t).reg p.1 = p.2 % 2 ^ p.1.width := by
  have hne : ∀ f ∈ [Reg.TRN_EPOCH_EPOCH, Reg.TRN_NEXT_PERIOD_NEXT_PERIOD, Reg.TRN_PERIOD_PERIOD, Reg.TRN_PHASE_PHASE],
      f.key ≠ Reg.TRN_STATUS_HOLDOVER_EPOCHS.key := by decide
  obtain ⟨-, hcount⟩ := m.driveBoundary_onlyRegs t
  rw [hcount p.1 fun f hf => List.mem_singleton.1 hf ▸ hne _ (m.boundaryFields_fst t _ (List.mem_map_of_mem hp))]
  exact Mdl.reg_setRegs_mem _ _ (m.boundaryFields_nodup t) hp

theorem Mdl.driveBoundary_epoch (m : Mdl) (t : Nat) : (m.driveBoundary t).epoch = m.comingEpoch :=
  (Mdl.reg_driveBoundary (p := (Reg.TRN_EPOCH_EPOCH, m.comingEpoch)) List.mem_cons_self).trans (Nat.mod_mod _ _)

/-! ### TRN_EPOCH_SET (R90) -/

/-- A number that the in-band source rules out, or that is not greater than the current one, is refused and logged. -/
theorem Mdl.epochSet_refused {m : Mdl} {v : Nat} (hv : v < 2 ^ 48) (h : m.reg Reg.TRN_STATUS_SOURCE_USED = 2 ∨ v ≤ m.epoch) :
    m.epochSet v = (m.setReg Reg.TRN_STATUS_EPOCH_REFUSED 1).trnRecord 7 0 := by
  simp only [Mdl.epochSet, Nat.mod_eq_of_lt hv, if_pos h]

/-- Any other number is the next epoch's; a step of more than one is shown. -/
theorem Mdl.epochSet_taken {m : Mdl} {v : Nat} (hv : v < 2 ^ 48) (hs : m.reg Reg.TRN_STATUS_SOURCE_USED ≠ 2) (he : m.epoch < v) :
    (m.epochSet v).trn = { m.trn with nextNumber := some v } ∧ m.keepsRegs (m.epochSet v) [Reg.TRN_STATUS_EPOCH_STEP] ∧
      (m.epochSet v).reg Reg.TRN_STATUS_EPOCH_STEP = if m.epoch + 1 < v then 1 else m.reg Reg.TRN_STATUS_EPOCH_STEP := by
  have htaken : ¬ (m.reg Reg.TRN_STATUS_SOURCE_USED = 2 ∨ v ≤ m.epoch) := by omega
  obtain ⟨x, hx⟩ : ∃ x : Mdl, x = { m with trn := { m.trn with nextNumber := some v } } := ⟨_, rfl⟩
  have hregs : ∀ f, x.reg f = m.reg f := fun f => Mdl.reg_of_regs (by rw [hx]) f
  have hrun : m.epochSet v = if m.epoch + 1 < v then (x.setReg Reg.TRN_STATUS_EPOCH_STEP 1).trnRecord 6 0 else x := by
    have hepoch : x.epoch = m.epoch := hregs _
    simp only [Mdl.epochSet, Nat.mod_eq_of_lt hv, if_neg htaken, ← hx, hepoch]
  rw [hrun]
  split
  case isTrue =>
    have hother : x.keepsRegs (x.setReg Reg.TRN_STATUS_EPOCH_STEP 1) [Reg.TRN_STATUS_EPOCH_STEP] := (x.onlyRegs_setReg _ 1).2
    exact ⟨congrArg Mdl.trn hx, fun g hg => (hother g hg).trans (hregs g), Mdl.reg_setReg_same x _ 1⟩
  case isFalse => exact ⟨congrArg Mdl.trn hx, fun g _ => hregs g, hregs _⟩

/-- A write of TRN_EPOCH_SET changes register fields, the drive's state and the log. -/
theorem Mdl.epochSet_eq (m : Mdl) (v : Nat) :
    m.epochSet v = { m with regs := (m.epochSet v).regs, trn := (m.epochSet v).trn, svc := (m.epochSet v).svc } := by
  unfold Mdl.epochSet
  dsimp only
  split
  · rfl
  · split <;> rfl

/-! ### Periods (R89, Table 2-12) -/

theorem periodOk_iff (p : Nat) : periodOk p = true ↔ 250000 ≤ p ∧ p ≤ 100000000 := by simp [periodOk]

/-- A period out of range is refused, but for the 0 that announces nothing. -/
theorem Mdl.periodWrite_refused {m : Mdl} {next : Bool} {v : Nat} (hv : v < 2 ^ 32) (h : v < 250000 ∨ 100000000 < v)
    (hn : next = true → v ≠ 0) :
    m.periodWrite next v = m.setReg Reg.TRN_STATUS_PERIOD_REFUSED 1 := by
  have hbad : periodOk v = false := Bool.eq_false_iff.2 fun hok => by
    have := (periodOk_iff v).1 hok
    omega
  have hannounced : (next && v == 0) = false := by
    cases next with
    | false => rfl
    | true => simpa using hn rfl
  simp only [Mdl.periodWrite, Nat.mod_eq_of_lt hv, hbad, hannounced, Bool.not_false, Bool.and_self, if_true]

/-- TRN_DEFAULT_PERIOD takes a period in range, and in FREE_RUN the drive tracks it. -/
theorem Mdl.periodWrite_default {m : Mdl} {v : Nat} (hv : v < 2 ^ 32) (hok : 250000 ≤ v ∧ v ≤ 100000000) :
    m.periodWrite false v =
      { m with trn := if m.drive = Machine.freeRun then { m.trn with tracked := v } else m.trn }.setReg Reg.TRN_DEFAULT_PERIOD_DEFAULT_PERIOD v := by
  have hrun : m.periodWrite false v = m.defaultPeriod v := by
    simp only [Mdl.periodWrite, Nat.mod_eq_of_lt hv, (periodOk_iff v).2 hok, Bool.not_true, Bool.not_false, Bool.false_and, Bool.false_eq_true,
      if_false, if_true]
  rw [hrun, Mdl.defaultPeriod]
  split <;> rfl

/-- A write of TRN_NEXT_PERIOD that announces nothing or a period in range is not refused. -/
theorem Mdl.periodWrite_next {m : Mdl} {v : Nat} (hv : v < 2 ^ 32) (h : v = 0 ∨ (250000 ≤ v ∧ v ≤ 100000000)) :
    m.periodWrite true v = if m.reg Reg.TRN_STATUS_SOURCE_USED = 2 then m else m.setReg Reg.TRN_NEXT_PERIOD_NEXT_PERIOD v := by
  rcases h with rfl | hok
  · simp [Mdl.periodWrite]
  · simp only [Mdl.periodWrite, Nat.mod_eq_of_lt hv, (periodOk_iff v).2 hok, Bool.not_true, Bool.false_and, Bool.false_eq_true, if_false]

/-! ### The clock drive's table (Table 2-3) -/

theorem Mdl.holdoverEntry_due {m : Mdl} (hd : m.drive = locked) (ha : m.trn.accepted = false) : m.holdoverEntry =
    (m.setRegs [(Reg.TRN_STATUS_LOST_LOCK, 1), (Reg.TRN_STATUS_STATE, holdover), (Reg.TRN_STATUS_HOLDOVER_EPOCHS, 1),
      (Reg.TRN_PERIOD_PERIOD, m.trn.tracked)]).driveEvent 3 := by
  simp only [Mdl.holdoverEntry, hd, ha]
  rfl

theorem Mdl.holdoverEntry_idle {m : Mdl} (h : m.drive ≠ locked ∨ m.trn.accepted = true) : m.holdoverEntry = m :=
  if_neg fun ⟨hd, ha⟩ => h.elim (absurd hd) ha

/-- A drive that was not locked enters FREE_RUN, at TRN_DEFAULT_PERIOD, and leaves LOST_LOCK as it was. -/
theorem Mdl.enterFreeRun_unlocked {m : Mdl} (h : m.drive ≠ locked) : m.enterFreeRun =
    ({ m with trn := { m.trn with tracked := m.reg Reg.TRN_DEFAULT_PERIOD_DEFAULT_PERIOD, edges := 0, lastEdge := none, prevSmall := false,
                                  nextAdjust := 0 } }.setRegs
      [(Reg.TRN_STATUS_STATE, Machine.freeRun), (Reg.TRN_PERIOD_PERIOD, m.reg Reg.TRN_DEFAULT_PERIOD_DEFAULT_PERIOD)]).driveEvent 4 := by
  simp only [Mdl.enterFreeRun, Mdl.leaveLocked, if_neg h]

theorem Mdl.holdoverExpiry_due {m : Mdl} (hd : m.drive = holdover) (h64 : 64 ≤ m.reg Reg.TRN_STATUS_HOLDOVER_EPOCHS) :
    m.holdoverExpiry = m.enterFreeRun := if_pos ⟨hd, h64⟩

theorem Mdl.holdoverExpiry_idle {m : Mdl} (h : m.drive ≠ holdover ∨ m.reg Reg.TRN_STATUS_HOLDOVER_EPOCHS < 64) : m.holdoverExpiry = m :=
  if_neg fun ⟨hd, h64⟩ => h.elim (absurd hd) (Nat.not_lt.2 h64)

theorem Mdl.acqTimeout_due {m : Mdl} (hd : m.drive = acquire) (h8 : 8 ≤ m.trn.edges) : m.acqTimeout =
    ({ m with trn := { m.trn with edges := 0, lastEdge := none, prevSmall := false } }.setReg Reg.TRN_STATUS_ACQ_TIMEOUT 1).driveEvent 5 :=
  if_pos ⟨hd, h8⟩

theorem Mdl.acqTimeout_idle {m : Mdl} (h : m.drive ≠ acquire ∨ m.trn.edges < 8) : m.acqTimeout = m :=
  if_neg fun ⟨hd, h8⟩ => h.elim (absurd hd) (Nat.not_lt.2 h8)

/-! ### The pin's input filter (R68, R70) -/

/-- The source in use is all that time alone can change. -/
theorem Mdl.sourceTime_onlyRegs (m : Mdl) (t : Nat) : m.onlyRegs (m.sourceTime t) [Reg.TRN_STATUS_SOURCE_USED] := by
  unfold Mdl.sourceTime
  split
  · exact m.onlyRegs_setReg _ _
  · exact m.onlyRegs_refl _

theorem Mdl.sourceTime_sourced {m : Mdl} (h : m.reg Reg.TRN_STATUS_SOURCE_USED ≠ 3) (t : Nat) : m.sourceTime t = m :=
  if_neg fun ⟨h3, _⟩ => h h3

theorem Mdl.transitEdge_short {m : Mdl} {w : Nat} (h : w < 50) (t : Nat) (rising : Bool) : m.transitEdge t rising w = m.sourceTime t := by
  simp [Mdl.transitEdge, Mdl.filter, h]

/-- A pulse that passes the filter is nothing to the drive when the pin is not the source, or the edge not the one that marks. -/
theorem Mdl.transitEdge_unmarked {m : Mdl} {t w : Nat} {rising : Bool} (hw : 100 ≤ w)
    (h : (m.sourceTime t).reg Reg.TRN_STATUS_SOURCE_USED ≠ 1 ∨ (rising = true ↔ m.reg Reg.TRN_CTRL_EDGE = 1)) :
    m.transitEdge t rising w = m.sourceTime t := by
  obtain ⟨-, hkeep⟩ := m.sourceTime_onlyRegs t
  have hedge : (m.sourceTime t).reg Reg.TRN_CTRL_EDGE = m.reg Reg.TRN_CTRL_EDGE := hkeep _ (by decide)
  have hpass : (m.sourceTime t).filter w = (true, m.sourceTime t) := by
    simp [Mdl.filter, show ¬ w < 50 by omega, show ¬ w < 100 by omega]
  rcases h with h | h
  · simp [Mdl.transitEdge, hpass, h]
  · by_cases he : m.reg Reg.TRN_CTRL_EDGE = 1
    · simp [Mdl.transitEdge, hpass, Mdl.flag, hedge, he, h.2 he]
    · simp [Mdl.transitEdge, hpass, Mdl.flag, hedge, he, Bool.eq_false_iff.2 fun hr => he (h.1 hr)]

/-! ### Journal blocks (R98, R556) -/

/-- With nothing to write, or fewer than two cartridges with a program window, a journal block is not begun. -/
theorem Mdl.journalBlock_idle {m : Mdl} {phase : Nat} (h : m.ftl.buffer = [] ∨ (m.atPhase phase).programSlots.length < 2) :
    m.journalBlock phase = m.atPhase phase := by
  refine if_pos (h.imp_left fun hb => ?_)
  rw [show (m.atPhase phase).ftl.buffer = [] from hb]
  rfl

/-- A journal block takes the oldest records, up to 255, out of the buffer; two cartridges take a sector each. -/
theorem Mdl.journalBlock_due {m : Mdl} {phase : Nat} (hb : m.ftl.buffer ≠ []) (hs : 2 ≤ (m.atPhase phase).programSlots.length) :
    ∃ x : Mdl, x = { m.atPhase phase with ftl := { m.ftl with buffer := m.ftl.buffer.take (m.ftl.buffer.length - 255) } } ∧
      m.journalBlock phase = x.count Reg.FTL_PROGRAMMED_SECTORS 2 := by
  have hftl : (m.atPhase phase).ftl = m.ftl := rfl
  have hpos := List.length_pos_iff.2 hb
  have hrun : ¬ (min 255 m.ftl.buffer.length = 0 ∨ (m.atPhase phase).programSlots.length < 2) := by omega
  have htake : m.ftl.buffer.length - min 255 m.ftl.buffer.length = m.ftl.buffer.length - 255 := by omega
  refine ⟨_, rfl, ?_⟩
  rw [Mdl.journalBlock, hftl, if_neg hrun, htake]

/-! ### Writes below the compute dies (R61 to R63) -/

/-- A write of fields that are all read-only changes nothing. -/
theorem Mdl.writeFields_readOnly (a v : Nat) : ∀ (l : List Fld) (s : Mdl), (∀ f ∈ l, f.acc = .ro) →
    l.foldl (fun (s : Mdl) f => s.writeField a v f) s = s
  | [], _, _ => rfl
  | f :: t, s, h => by
    rw [List.foldl_cons, s.writeField_readOnly a v (.inl (h f List.mem_cons_self))]
    exact Mdl.writeFields_readOnly a v t s fun g hg => h g (List.mem_cons_of_mem f hg)

/-- A write below the windows of the compute dies that acts does so, whatever is in service. -/
theorem Mdl.write32_clock {s t : Mdl} {a v : Nat} (ha : a < 0x60000) (h : s.writeClock a v = some t) : s.write32 a v = t := by
  have hlow : ¬ 0x100000 ≤ a := by omega
  simp [Mdl.write32, Mdl.deadWindow, Mdl.spareWindow, hlow, coupledAt_below ha, h]

/-- An aligned 32-bit write of a ready module takes the low 32 bits of the value, in one access. -/
theorem Mdl.busWrite_narrow (s : Mdl) {a v : Nat} (hr : 2 ≤ s.stage) (ha : a % 4 = 0) : s.busWrite a false v = s.write32 a (v % 2 ^ 32) := by
  have hns : ¬ s.stage < 2 := by omega
  simp [Mdl.busWrite, ha, hns]

/-- A 64-bit write below the coupled fields is two 32-bit ones, lower address first (R10). -/
theorem Mdl.busWrite_wide (s : Mdl) {a v : Nat} (hr : 2 ≤ s.stage) (ha : a % 8 = 0) (hlow : a < 0x60000) :
    s.busWrite a true v = (s.write32 a (v % 2 ^ 32)).write32 (a + 4) (bits v 32 32) := by
  have hns : ¬ s.stage < 2 := by omega
  have hnd : ¬ 0x100000 ≤ a := by omega
  simp [Mdl.busWrite, Mdl.deadWindow, ha, hns, hnd, coupledAt_below hlow]

/-! ### The armed swap (R106, R107, R110) -/

/-- The words that an armed swap protects: the shadow bank, SWAP_EPOCH and SHADOW_LEN (R106). -/
def swapWord (a : Nat) : Prop :=
  (0x16000 ≤ a ∧ a < 0x18000) ∨ a / 8 * 8 = Reg.EPH_SWAP_EPOCH_SWAP_EPOCH.addr ∨ a = Reg.EPH_CYCLE_SHADOW_LEN.addr

theorem swapWord_below {a : Nat} (h : swapWord a) : a < 0x60000 := by
  simp only [swapWord, Reg.EPH_SWAP_EPOCH_SWAP_EPOCH, Reg.EPH_CYCLE_SHADOW_LEN] at h
  omega

/-- The upper half of a 64-bit access to a protected word is another, or EPH_GRANT. -/
theorem swapWord_next {a : Nat} (h : swapWord a) (ha : a % 8 = 0) : a + 4 = 0x18014 ∨ swapWord (a + 4) := by
  simp only [swapWord, Reg.EPH_SWAP_EPOCH_SWAP_EPOCH, Reg.EPH_CYCLE_SHADOW_LEN] at h ⊢
  omega

/-- A word of the shadow bank is written there. -/
theorem Mdl.writeClock_shadowBank (s : Mdl) {a : Nat} (v : Nat) (h : 0x16000 ≤ a ∧ a < 0x18000) :
    s.writeClock a v = some (s.shadowWrite (a - 0x16000) 4 v) := by
  simp (disch := omega) only [Mdl.writeClock, Reg.SVC_RESET_KEY, Reg.SVC_REFURB_OP, Reg.TRN_CTRL_SOURCE, Reg.TRN_DEFAULT_PERIOD_DEFAULT_PERIOD,
    Reg.TRN_NEXT_PERIOD_NEXT_PERIOD, Reg.TRN_EPOCH_SET_VALUE, Reg.TRN_NEXT_EPOCH_NEXT_EPOCH, Reg.EPH_CTRL_ARM, Reg.EPH_SWAP_EPOCH_SWAP_EPOCH,
    Reg.EPH_CYCLE_SHADOW_LEN, if_neg, if_pos]

/-- SWAP_EPOCH's two words and SHADOW_LEN's are written through the protection. -/
theorem Mdl.writeClock_swapField (s : Mdl) {a : Nat} (v : Nat) (ha : a % 4 = 0)
    (h : a / 8 * 8 = Reg.EPH_SWAP_EPOCH_SWAP_EPOCH.addr ∨ a = Reg.EPH_CYCLE_SHADOW_LEN.addr) :
    ∃ f n, s.writeClock a v = some (s.armedFieldWrite f n) := by
  have hwords : a = 0x18008 ∨ a = 0x1800C ∨ a = 0x18010 := by
    simp only [Reg.EPH_SWAP_EPOCH_SWAP_EPOCH, Reg.EPH_CYCLE_SHADOW_LEN] at h
    omega
  rcases hwords with rfl | rfl | rfl <;> exact ⟨_, _, rfl⟩

/-- While a swap is armed, a write of a word that it protects sets WRITE_WHILE_ARMED (R106). -/
theorem Mdl.write32_armed {s : Mdl} (harmed : s.reg Reg.EPH_STATUS_ARMED = 1) {a : Nat} (v : Nat) (ha : a % 4 = 0) (h : swapWord a) :
    s.write32 a v = s.setReg Reg.EPH_STATUS_WRITE_WHILE_ARMED 1 := by
  have hflag := (s.flag_iff _).2 harmed
  refine Mdl.write32_clock (swapWord_below h) ?_
  obtain hbank | hfield := h
  · rw [s.writeClock_shadowBank v hbank, Mdl.shadowWrite, if_pos hflag]
  · obtain ⟨f, n, hrun⟩ := s.writeClock_swapField v ha hfield
    rw [hrun, Mdl.armedFieldWrite, if_pos hflag]

/-- EPH_GRANT, the word above EPH_CYCLE's, shows what is open and takes no write. -/
theorem fieldsAt_grant : ∀ f ∈ fieldsAt 0x18014, f.acc = .ro := by decide

theorem Mdl.write32_grant (s : Mdl) (v : Nat) : s.write32 0x18014 v = s := by
  have hclock : s.writeClock 0x18014 v = none := rfl
  have hblock : s.writeBlock 0x18014 v = none := rfl
  rw [Mdl.write32_plain s rfl rfl (coupledAt_below (by decide)) hclock hblock]
  exact Mdl.writeFields_readOnly 0x18014 v _ s fieldsAt_grant

/-- While a swap is armed, a write of either width to what it protects sets WRITE_WHILE_ARMED, and nothing else (R106). -/
theorem Mdl.busWrite_armed {s : Mdl} (hr : 2 ≤ s.stage) (harmed : s.reg Reg.EPH_STATUS_ARMED = 1) {a : Nat} {wide : Bool} (v : Nat)
    (hal : a % (if wide then 8 else 4) = 0) (h : swapWord a) :
    (s.busWrite a wide v).reg Reg.EPH_STATUS_WRITE_WHILE_ARMED = 1 ∧ s.onlyRegs (s.busWrite a wide v) [Reg.EPH_STATUS_WRITE_WHILE_ARMED] := by
  have hset (x : Mdl) := x.onlyRegs_setReg Reg.EPH_STATUS_WRITE_WHILE_ARMED 1
  cases wide with
  | false =>
    have hrun : s.busWrite a false v = s.setReg Reg.EPH_STATUS_WRITE_WHILE_ARMED 1 := by
      rw [Mdl.busWrite_narrow s hr hal, Mdl.write32_armed harmed _ hal h]
    rw [hrun]
    exact ⟨Mdl.reg_setReg_same s _ 1, hset s⟩
  | true =>
    have ha : a % 8 = 0 := hal
    obtain ⟨x, hx⟩ : ∃ x : Mdl, x = s.setReg Reg.EPH_STATUS_WRITE_WHILE_ARMED 1 := ⟨_, rfl⟩
    have hfirst : x.reg Reg.EPH_STATUS_WRITE_WHILE_ARMED = 1 ∧ s.onlyRegs x [Reg.EPH_STATUS_WRITE_WHILE_ARMED] := by
      rw [hx]
      exact ⟨Mdl.reg_setReg_same s _ 1, hset s⟩
    have hrun : s.busWrite a true v = x.write32 (a + 4) (bits v 32 32) := by
      rw [s.busWrite_wide hr ha (swapWord_below h), Mdl.write32_armed harmed _ (by omega) h, hx]
    rw [hrun]
    obtain hgrant | hnext := swapWord_next h ha
    · rw [hgrant, Mdl.write32_grant]
      exact hfirst
    · obtain ⟨-, honly⟩ := hfirst
      have harmed' : x.reg Reg.EPH_STATUS_ARMED = 1 := (honly.2 _ (by decide)).trans harmed
      rw [Mdl.write32_armed harmed' _ (by omega) hnext]
      exact ⟨Mdl.reg_setReg_same x _ 1, Mdl.onlyRegs_mono (Mdl.onlyRegs_trans honly (hset x)) (by simp)⟩

/-- Once the swap is not armed, a word of the shadow bank is stored there (R106, R709). -/
theorem Mdl.busWrite_unarmed {s : Mdl} (hr : 2 ≤ s.stage) (harmed : s.reg Reg.EPH_STATUS_ARMED ≠ 1) {a : Nat} (v : Nat) (ha : a % 4 = 0)
    (h : 0x16000 ≤ a ∧ a < 0x18000) : s.busWrite a false v =
    { s with eph := s.eph.setBank (1 - s.activeBank) (Table.set 0 s.shadowTable ((a - 0x16000) / 8)
        (Table.get 0 s.shadowTable ((a - 0x16000) / 8) - bits (Table.get 0 s.shadowTable ((a - 0x16000) / 8)) (8 * (a % 8)) 32 * 2 ^ (8 * (a % 8))
          + v % 2 ^ 32 * 2 ^ (8 * (a % 8)))) } := by
  have hflag : s.flag Reg.EPH_STATUS_ARMED = false := Bool.eq_false_iff.2 (mt (s.flag_iff _).1 harmed)
  have hlane : (a - 0x16000) % 8 = a % 8 := by omega
  rw [Mdl.busWrite_narrow s hr ha, Mdl.write32_clock (swapWord_below (.inl h)) (s.writeClock_shadowBank _ h), Mdl.shadowWrite, hlane]
  simp only [hflag, Bool.false_eq_true, if_false, Nat.reduceMul, Nat.mod_mod]

/-- ARM while a swap is armed leaves it as it is, with ARM_ERR 0x5. -/
theorem Mdl.arm_armed {m : Mdl} (h : m.reg Reg.EPH_STATUS_ARMED = 1) : m.arm = m.setReg Reg.EPH_STATUS_ARM_ERR 5 := by
  rw [Mdl.arm, if_pos ((m.flag_iff _).2 h)]

/-- An ARM that fails reports the check and what it names. -/
def Mdl.armRefused (m : Mdl) (err bad : Nat) : Mdl := m.setRegs [(Reg.EPH_STATUS_ARM_ERR, err), (Reg.EPH_STATUS_BAD_ENTRY, bad)]

/-- An ARM that passes every check arms the swap. -/
def Mdl.armAccepted (m : Mdl) : Mdl := (m.setRegs [(Reg.EPH_STATUS_ARM_ERR, 0), (Reg.EPH_STATUS_ARMED, 1)]).showOverlap true

theorem Mdl.armRefused_err (m : Mdl) {err : Nat} (h : err < 16) (bad : Nat) : (m.armRefused err bad).reg Reg.EPH_STATUS_ARM_ERR = err := by
  simp (disch := decide) only [Mdl.armRefused, Mdl.setRegs_cons, Mdl.setRegs_nil, Mdl.reg_setReg_other, Mdl.reg_setReg_same]
  exact Nat.mod_eq_of_lt h

theorem Mdl.armRefused_bad (m : Mdl) (err : Nat) {bad : Nat} (h : bad < 1024) : (m.armRefused err bad).reg Reg.EPH_STATUS_BAD_ENTRY = bad :=
  (Mdl.reg_setReg_same _ _ bad).trans (Nat.mod_eq_of_lt h)

theorem Mdl.armRefused_armed (m : Mdl) (err bad : Nat) : (m.armRefused err bad).reg Reg.EPH_STATUS_ARMED = m.reg Reg.EPH_STATUS_ARMED := by
  simp (disch := decide) only [Mdl.armRefused, Mdl.setRegs_cons, Mdl.setRegs_nil, Mdl.reg_setReg_other]

theorem Mdl.armAccepted_eq (m : Mdl) : m.armAccepted = { m with regs := m.armAccepted.regs } :=
  (Mdl.onlyRegs_trans (m.onlyRegs_setRegs [(Reg.EPH_STATUS_ARM_ERR, 0), (Reg.EPH_STATUS_ARMED, 1)]) (Mdl.onlyRegs_setReg _ _ _)).1

theorem Mdl.armAccepted_shows (m : Mdl) :
    m.armAccepted.reg Reg.EPH_STATUS_ARM_ERR = 0 ∧ m.armAccepted.reg Reg.EPH_STATUS_ARMED = 1 := by
  constructor <;> simp (disch := decide) only [Mdl.armAccepted, Mdl.showOverlap, Mdl.setBit, Mdl.setRegs_cons, Mdl.setRegs_nil, Mdl.reg_setReg_other,
    Mdl.reg_setReg_same] <;> rfl

section
variable {m : Mdl} (h : m.reg Reg.EPH_STATUS_ARMED ≠ 1)
include h

/-- The first check of Table 2-18, 0x1: a bad entry. -/
theorem Mdl.arm_badEntry {i : Nat} (hbad : Eph.firstBad (m.reg Reg.EPH_CYCLE_SHADOW_LEN) 0 (Eph.entries m.shadowTable) = some i) :
    m.arm = m.armRefused 1 i := by
  simp only [Mdl.arm, if_neg (mt (m.flag_iff _).1 h), hbad, Mdl.armRefused]

/-- The second, 0x2: the cycle length. -/
theorem Mdl.arm_badLength (hbad : Eph.firstBad (m.reg Reg.EPH_CYCLE_SHADOW_LEN) 0 (Eph.entries m.shadowTable) = none)
    (hlen : m.reg Reg.EPH_CYCLE_SHADOW_LEN < 1 ∨ 64 < m.reg Reg.EPH_CYCLE_SHADOW_LEN) : m.arm = m.armRefused 2 0 := by
  simp only [Mdl.arm, if_neg (mt (m.flag_iff _).1 h), hbad, if_pos hlen, Mdl.armRefused]

/-- The third, 0x3: the swap's epoch is not to come. -/
theorem Mdl.arm_pastSwap (hbad : Eph.firstBad (m.reg Reg.EPH_CYCLE_SHADOW_LEN) 0 (Eph.entries m.shadowTable) = none)
    (hlen : ¬ (m.reg Reg.EPH_CYCLE_SHADOW_LEN < 1 ∨ 64 < m.reg Reg.EPH_CYCLE_SHADOW_LEN))
    (hswap : m.reg Reg.EPH_SWAP_EPOCH_SWAP_EPOCH ≠ 0 ∧ m.reg Reg.EPH_SWAP_EPOCH_SWAP_EPOCH ≤ m.epoch) : m.arm = m.armRefused 3 0 := by
  simp only [Mdl.arm, if_neg (mt (m.flag_iff _).1 h), hbad, if_neg hlen, if_pos hswap, Mdl.armRefused]

/-- An ARM with no swap armed fails at a check, 0x1 to 0x4, or arms. -/
theorem Mdl.arm_cases :
    (∃ err bad, 0 < err ∧ err < 16 ∧ m.arm = m.armRefused err bad) ∨ m.arm = m.armAccepted := by
  rw [Mdl.arm, if_neg (mt (m.flag_iff _).1 h)]
  dsimp only
  split
  · exact .inl ⟨1, _, by decide, by decide, rfl⟩
  · split
    · exact .inl ⟨2, _, by decide, by decide, rfl⟩
    · split
      · exact .inl ⟨3, _, by decide, by decide, rfl⟩
      · split
        · exact .inl ⟨4, _, by decide, by decide, rfl⟩
        · exact .inr rfl

/-- A failed ARM shows an error and leaves ARMED; one without an error has armed. Either changes register fields alone. -/
theorem Mdl.arm_outcome : m.arm = { m with regs := m.arm.regs } ∧
    ((m.arm.reg Reg.EPH_STATUS_ARM_ERR ≠ 0 ∧ m.arm.reg Reg.EPH_STATUS_ARMED = m.reg Reg.EPH_STATUS_ARMED) ∨
      (m.arm.reg Reg.EPH_STATUS_ARM_ERR = 0 ∧ m.arm.reg Reg.EPH_STATUS_ARMED = 1)) := by
  obtain ⟨err, bad, hpos, hlt, he⟩ | he := Mdl.arm_cases h <;> rw [he]
  · have hne : (m.armRefused err bad).reg Reg.EPH_STATUS_ARM_ERR ≠ 0 := by
      rw [m.armRefused_err hlt]
      exact hpos.ne'
    exact ⟨Mdl.setRegs_eq _ m, .inl ⟨hne, m.armRefused_armed err bad⟩⟩
  · exact ⟨m.armAccepted_eq, .inr m.armAccepted_shows⟩

end

end Sys2Proof.Machine

section
open Sys2Proof Sys2Proof.Machine

/-- Settles O31: the boundary sets the fields of `Mdl.boundaryFields`, and the drive's state to `Mdl.boundaryTrn`. -/
theorem boundaryNumbersTheEpoch : Obligations.BoundaryNumbersTheEpoch := by
  intro m τ
  have htrn := m.driveBoundary_trn τ
  have hepoch := m.driveBoundary_epoch τ
  have hkeep := m.driveBoundary_keepsRegs τ
  refine ⟨?number, congrArg TransitSt.start htrn, congrArg TransitSt.nextNumber htrn, ?phase, fun hnp hne => ?announced, fun hn hlt => ?next, hkeep,
    m.driveBoundary_eq τ⟩
  case number =>
    rw [hepoch, Mdl.comingEpoch]
    cases m.trn.nextNumber <;> rfl
  case phase => exact Mdl.reg_driveBoundary (p := (Reg.TRN_PHASE_PHASE, 0)) (by simp [Mdl.boundaryFields])
  case announced =>
    have hdue : m.periodDue := ⟨hnp, hepoch.symm.trans hne⟩
    refine ⟨?_, Mdl.reg_driveBoundary (p := (Reg.TRN_NEXT_PERIOD_NEXT_PERIOD, 0)) (by simp [Mdl.boundaryFields, if_pos hdue]),
      hkeep Reg.TRN_STATUS_STATE (by decide)⟩
    rw [htrn]
    exact if_pos hdue
  case next => rw [hepoch, Mdl.comingEpoch, hn, Option.getD_none, Nat.mod_eq_of_lt hlt]

/-- Settles O29: a refused number sets EPOCH_REFUSED; any other is the number of the next boundary (`Mdl.driveBoundary_epoch`). -/
theorem epochSetNumbersTheNextEpoch : Obligations.EpochSetNumbersTheNextEpoch := by
  intro m q v hp hr
  have hv := v.isLt
  obtain h | h := Decidable.em (m.reg Reg.TRN_STATUS_SOURCE_USED = 2 ∨ v.toNat ≤ m.epoch)
  · have hrun := Mdl.epochSet_refused hv h
    refine ⟨m.epochSet v.toNat, next_onBus hp hr rfl, m.epochSet_eq _, ?epoch, fun _ => ?refused, fun hs he => by omega⟩ <;> rw [hrun]
    case epoch => exact (m.onlyRegs_setReg Reg.TRN_STATUS_EPOCH_REFUSED 1).2 Reg.TRN_EPOCH_EPOCH (by decide)
    case refused => exact ⟨Mdl.reg_setReg_same m _ 1, (m.onlyRegs_setReg Reg.TRN_STATUS_EPOCH_REFUSED 1).2, rfl⟩
  · have hs : m.reg Reg.TRN_STATUS_SOURCE_USED ≠ 2 := fun e => h (.inl e)
    obtain ⟨htrn, hkeep, hstep⟩ := Mdl.epochSet_taken hv hs (by omega)
    refine ⟨m.epochSet v.toNat, next_onBus hp hr rfl, m.epochSet_eq _, hkeep _ (by decide), fun h' => absurd h' h,
      fun _ _ => ⟨fun τ => ?number, htrn, hkeep, hstep⟩⟩
    rw [Mdl.driveBoundary_epoch, Mdl.comingEpoch, htrn]
    exact Nat.mod_eq_of_lt hv

/-- Settles O30: a write of a period sets one field, PERIOD_REFUSED or the register's own. -/
theorem periodOutOfRangeIsRefused : Obligations.PeriodOutOfRangeIsRefused := by
  intro m q v hp hr
  have hv := v.isLt
  refine ⟨fun hout next hn => ?refused, fun hlo hhi => ?default, fun hs hok => ?next, fun hs hok => ?inband⟩
  case refused =>
    exact ⟨_, next_onBus hp hr (Mdl.periodWrite_refused hv hout hn), Mdl.reg_setReg_same _ _ _, Mdl.onlyRegs_setReg _ _ _⟩
  case default =>
    exact ⟨_, next_onBus hp hr (Mdl.periodWrite_default hv ⟨hlo, hhi⟩), (Mdl.reg_setReg_same _ _ _).trans (Nat.mod_eq_of_lt hv),
      (Mdl.onlyRegs_setReg _ _ _).2, rfl⟩
  case next =>
    exact ⟨_, next_onBus hp hr ((Mdl.periodWrite_next hv hok).trans (if_neg hs)), (Mdl.reg_setReg_same _ _ _).trans (Nat.mod_eq_of_lt hv),
      Mdl.onlyRegs_setReg _ _ _⟩
  case inband => exact next_onBus hp hr ((Mdl.periodWrite_next hv hok).trans (if_pos hs))

/-- Settles O33: each row of the table sets its fields, and posts its event to the log and the host. -/
theorem holdoverAndTimeoutsFollowTheClockTable : Obligations.HoldoverAndTimeoutsFollowTheClockTable := by
  intro m q hp
  refine ⟨fun hd ha => ⟨_, next_whenOn hp (Mdl.holdoverEntry_due hd ha), ?entry⟩, fun h => next_whenOn hp (Mdl.holdoverEntry_idle h),
    fun hd h64 => ?expiry, fun h => next_whenOn hp (Mdl.holdoverExpiry_idle h),
    fun hd h8 => ⟨_, next_whenOn hp (Mdl.acqTimeout_due hd h8), ?timeout⟩, fun h => next_whenOn hp (Mdl.acqTimeout_idle h)⟩
  case entry =>
    refine ⟨?_, ?_, ?_, ?_, by simp, Mdl.keepsRegs_setRegs_driveEvent (by rfl) _ 3⟩ <;>
      simp (disch := decide) [Mdl.drive, Mdl.reg_setReg_other] <;> rfl
  case expiry =>
    have hun : m.drive ≠ locked := by rw [hd]; decide
    refine ⟨_, next_whenOn hp ((Mdl.holdoverExpiry_due hd h64).trans (Mdl.enterFreeRun_unlocked hun)), ?_, by simp, ?_,
      Mdl.keepsRegs_setRegs_driveEvent (by rfl) _ 4⟩ <;> simp (disch := decide) [Mdl.drive, Mdl.reg_setReg_other] <;> rfl
  case timeout =>
    exact ⟨(Mdl.reg_driveEvent _ 5 _).trans (Mdl.reg_setReg_same _ _ 1), by simp,
      Mdl.keepsRegs_setRegs_driveEvent (by rfl) [(Reg.TRN_STATUS_ACQ_TIMEOUT, 1)] 5⟩

/-- Settles O34: what the protection covers is written through `Mdl.write32_armed` while a swap is armed; DISARM clears one field. -/
theorem armedSwapIsProtected : Obligations.ArmedSwapIsProtected := by
  intro m q hp hr
  refine ⟨fun harmed a wide v hal ha => ?whileArmed, m.disarm, next_onBus hp hr rfl, Mdl.reg_setReg_same m _ 0, m.onlyRegs_setReg _ 0,
    fun a v hlo hhi hal => ?stored⟩
  case whileArmed => exact ⟨_, next_whenOn hp (if_pos ha), Mdl.busWrite_armed hr harmed v hal ha⟩
  case stored =>
    have hstage : m.disarm.stage = m.stage := (m.onlyRegs_setReg Reg.EPH_STATUS_ARMED 0).2 Reg.SVC_STATUS_STAGE (by decide)
    have hunarmed : m.disarm.reg Reg.EPH_STATUS_ARMED ≠ 1 := by
      rw [Mdl.disarm, Mdl.reg_setReg_same]
      decide
    exact next_whenOn (m := m.disarm) hp ((if_pos (.inl ⟨hlo, hhi⟩)).trans (Mdl.busWrite_unarmed (hstage ▸ hr) hunarmed v hal ⟨hlo, hhi⟩))

/-- Settles O35: the checks come in the order of `Mdl.arm`, and each outcome is a refusal or an armed swap (`Mdl.arm_cases`). -/
theorem armChecksInOrder : Obligations.ArmChecksInOrder := by
  intro m q hp hr
  refine ⟨fun harmed => ?again, fun harmed => ?checked⟩
  case again => exact ⟨_, next_onBus hp hr (Mdl.arm_armed harmed), Mdl.reg_setReg_same m _ 5, m.onlyRegs_setReg _ 5⟩
  case checked =>
    obtain ⟨hframe, houtcome⟩ := Mdl.arm_outcome harmed
    refine ⟨m.arm, next_onBus hp hr rfl, hframe, fun i hbad hi => ?entry, fun hbad hlen => ?length, fun hbad hlo hhi h0 hpast => ?swap,
      fun herr => ?failed, fun herr => ?passed⟩
    case entry =>
      rw [Mdl.arm_badEntry harmed hbad]
      exact ⟨m.armRefused_err (by decide) i, m.armRefused_bad 1 hi⟩
    case length =>
      rw [Mdl.arm_badLength harmed hbad hlen]
      exact m.armRefused_err (by decide) 0
    case swap =>
      rw [Mdl.arm_pastSwap harmed hbad (by omega) ⟨h0, hpast⟩]
      exact m.armRefused_err (by decide) 0
    case failed => exact houtcome.elim And.right fun ⟨hzero, _⟩ => absurd hzero herr
    case passed => exact houtcome.elim (fun ⟨hne, _⟩ => absurd herr hne) And.right

/-- Settles O32: the filter stops the pulse, or the edge is none of the drive's. -/
theorem shortPulseIsRejected : Obligations.ShortPulseIsRejected := fun m _ t _ rising hp =>
  ⟨m.sourceTime_onlyRegs t, fun h => Mdl.sourceTime_sourced h t, fun h => next_whenOn hp (Mdl.transitEdge_short h t rising),
    fun hw h => next_whenOn hp (Mdl.transitEdge_unmarked hw h)⟩

/-- Settles O55: a journal block that is due takes records and counts sectors; TRN_PHASE.PHASE is none of its fields. -/
theorem journalBlockTakesTheOldestRecords : Obligations.JournalBlockTakesTheOldestRecords := by
  intro m q phase hp
  refine ⟨fun h => next_whenOn hp (Mdl.journalBlock_idle h), fun hb hs => ?due⟩
  obtain ⟨x, hx, hrun⟩ := Mdl.journalBlock_due (m := m) (phase := phase) hb hs
  have hregs : ∀ f, x.reg f = (m.atPhase phase).reg f := fun f => Mdl.reg_of_regs (by rw [hx]) f
  refine ⟨_, next_whenOn hp hrun, ?buffer, ?ftl, ?sectors, fun g hg => ?kept, ?frame⟩
  case buffer => rw [Mdl.count_ftl, hx]
  case ftl => rw [Mdl.count_ftl, hx]
  case sectors => rw [Mdl.count, Mdl.reg_setReg_same, hregs, Mdl.atPhase, Mdl.reg_setReg_other m _ (by decide)]
  case kept =>
    rw [Mdl.count, Mdl.reg_setReg_other x _ (hg _ (by simp)), hregs, Mdl.atPhase, Mdl.reg_setReg_other m _ (hg _ (by simp))]
  case frame =>
    have hframe : x = { m with regs := x.regs, ftl := x.ftl } := by rw [hx]; rfl
    exact congrArg (fun y : Mdl => { y with regs := (x.count Reg.FTL_PROGRAMMED_SECTORS 2).regs }) hframe

/-- Settles O11: the reset state lists no register, so every field reads as its reset value. -/
theorem resetLeavesTheSpecsValues : Obligations.ResetLeavesTheSpecsValues := by
  have hreg : ∀ f : Fld, State.reset.reg f = f.reset := fun _ => rfl
  exact ⟨rfl, rfl, rfl, rfl, rfl, rfl, rfl, rfl, rfl, rfl, rfl, hreg, hreg _, hreg _, hreg _, hreg _, hreg _, hreg _, hreg _, hreg _,
    hreg _, hreg _, hreg _, fun _ => hreg _, hreg _, hreg _⟩

end

/-! Proofs of the charts chapter: refused chart commands, the bank in force, an erase and what waits behind it, and the completion of the
chart, coupled-field, row and lane commands. -/
namespace Sys2Proof.Machine

/-! ### How a chart command ends (Tables 3-19, 3-20) -/

theorem Mdl.chartBusy_iff (m : Mdl) : m.chartBusy = true ↔ m.reg Reg.CHT_STATUS_BUSY = 1 := m.flag_iff _

/-- An end shows its error. -/
theorem Mdl.reg_chartEnd_err (m : Mdl) {err : Nat} (h : err < 32) : (m.chartEnd err).reg Reg.CHT_STATUS_ERR = err := by
  simp (disch := decide) only [Mdl.chartEnd, Mdl.chartDone, Mdl.setRegs_cons, Mdl.setRegs_nil, Mdl.reg_setReg_other, Mdl.reg_setReg_same]
  exact Nat.mod_eq_of_lt h

/-- An end sets DONE. -/
theorem Mdl.reg_chartEnd_done (m : Mdl) (err : Nat) : (m.chartEnd err).reg Reg.CHT_STATUS_DONE = 1 := by
  simp (disch := decide) only [Mdl.chartEnd, Mdl.chartDone, Mdl.setRegs_cons, Mdl.setRegs_nil, Mdl.reg_setReg_other, Mdl.reg_setReg_same]
  rfl

/-- The end of one command leaves BUSY to the command that runs. -/
theorem Mdl.reg_chartEnd_busy (m : Mdl) (err : Nat) : (m.chartEnd err).reg Reg.CHT_STATUS_BUSY = m.reg Reg.CHT_STATUS_BUSY :=
  (m.chartEnd_onlyRegs err).2 _ (by decide)

/-- When the operation under way ends, BUSY shows whether a partial load that the host asked for is left (R149). -/
theorem Mdl.reg_chartIdle_busy (m : Mdl) (err : Nat) : (m.chartIdle err).reg Reg.CHT_STATUS_BUSY = b2n !m.cht.partials.isEmpty := by
  simp (disch := decide) only [Mdl.chartIdle, Mdl.chartStop, Mdl.setRegs_cons, Mdl.setRegs_nil, Mdl.reg_setReg_other, Mdl.reg_setReg_same]
  cases m.cht.partials <;> rfl

/-! ### Which commands are refused (R134, R149, R150) -/

/-- A bank is held by the chart in force from it, or by the load whose chart it holds. -/
theorem Mdl.bankHeld_iff (m : Mdl) (b : Nat) : m.bankHeld b = true ↔
    (m.cht.chart ≠ none ∧ m.reg Reg.CHT_STATUS_IN_FORCE_BANK = b) ∨ ∃ c, m.cht.next = some (c, b) := by
  have hchart : m.cht.chart.isSome = true ↔ m.cht.chart ≠ none := Option.isSome_iff_ne_none
  cases hn : m.cht.next with
  | none => simp [Mdl.bankHeld, hn, hchart]
  | some n => simp [Mdl.bankHeld, hn, hchart, Prod.ext_iff]

section
variable {m : Mdl} {b : Nat}

theorem Mdl.eraseBank_refused (h : m.chartBusy = true ∨ m.bankHeld b = true) : m.eraseBank b = m.chartEnd 0x0C := by
  rw [Mdl.eraseBank, if_pos (Bool.or_eq_true_iff.2 h)]

theorem Mdl.programBank_refused (h : m.chartBusy = true ∨ m.bankHeld b = true) (data : List Byte) :
    m.programBank b data = m.chartEnd 0x0C := by
  simp only [Mdl.programBank, Bool.or_eq_true_iff.2 h, Bool.true_or, if_true]

theorem Mdl.verifyBank_refused (h : m.chartBusy = true) : m.verifyBank b = m.chartEnd 0x0C := by
  rw [Mdl.verifyBank, if_pos h]

theorem Mdl.loadPartial_refused (h : m.chartBusy = true) (ld lc : Nat) : m.loadPartial ld lc = m.chartEnd 0x0C := by
  simp only [Mdl.loadPartial, h, Bool.true_or, if_true]

theorem Mdl.setOption_refused (h : m.chartBusy = true) (record auth : List Byte) : m.setOption record auth = m.chartEnd 0x0C := by
  simp only [Mdl.setOption, h, Bool.true_or, if_true]

/-- A full load is refused while an erase, a program, a verification or another full load runs; partial loads do not refuse it. -/
theorem Mdl.loadFull_refused (h : m.cht.op ≠ none ∨ m.cht.next ≠ none ∨ m.cht.nextBuiltin = true) : m.loadFull b = m.chartEnd 0x0C := by
  rw [Mdl.loadFull, if_pos]
  simpa [Mdl.fullLoad, Option.isSome_iff_ne_none] using h

/-! ### An erase ends (R712) -/

/-- An erase that ends leaves BUSY to the partial loads that the host asked for. -/
theorem Mdl.eraseBankDone_busy {d : Nat} (h : m.cht.op = some (.erase b d)) :
    (m.eraseBankDone false).reg Reg.CHT_STATUS_BUSY = b2n !m.cht.partials.isEmpty := by
  simp only [Mdl.eraseBankDone, h, Bool.false_eq_true, if_false, Mdl.reg_chartIdle_busy, Mdl.bankState, Mdl.setReg_cht]
  unfold ChartSt.setBank
  split <;> rfl

end

end Sys2Proof.Machine

section
open Sys2Proof Sys2Proof.Machine

/-- Settles O36: each of the commands ends at its first test, as `Mdl.chartEnd` with error 0x0C. -/
theorem runningChartCommandRefusesOthers : Obligations.RunningChartCommandRefusesOthers := by
  intro m q hp hr hbusy c hc
  have hrun := m.chartBusy_iff.2 hbusy
  refine ⟨m.chartEnd 0x0C, ?refused, m.reg_chartEnd_err (by decide), (m.reg_chartEnd_busy _).trans hbusy, m.reg_chartEnd_done _,
    m.chartEnd_onlyRegs _⟩
  obtain ⟨b, rfl⟩ | ⟨b, d, rfl⟩ | ⟨b, rfl⟩ | ⟨d, k, rfl⟩ | ⟨r, a, rfl⟩ | ⟨hload, b, rfl⟩ := hc
  · exact next_onBus hp hr (Mdl.eraseBank_refused (.inl hrun))
  · exact next_onBus hp hr (Mdl.programBank_refused (.inl hrun) d)
  · exact next_onBus hp hr (Mdl.verifyBank_refused hrun)
  · exact next_onBus hp hr (Mdl.loadPartial_refused hrun d k)
  · exact next_onBus hp hr (Mdl.setOption_refused hrun r a)
  · exact next_onBus hp hr (Mdl.loadFull_refused hload)

/-- Settles O38: the bank is held (`Mdl.bankHeld_iff`), or the load's verification is the command that runs. -/
theorem heldBankIsNotErasedOrProgrammed : Obligations.HeldBankIsNotErasedOrProgrammed := by
  intro m q b hp hr h c hc
  have hheld : m.chartBusy = true ∨ m.bankHeld b = true := by
    obtain hforce | hload | ⟨hbusy, -⟩ := h
    · exact .inr ((m.bankHeld_iff b).2 (.inl hforce))
    · exact .inr ((m.bankHeld_iff b).2 (.inr hload))
    · exact .inl (m.chartBusy_iff.2 hbusy)
  refine ⟨m.chartEnd 0x0C, ?refused, m.reg_chartEnd_err (by decide), m.chartEnd_onlyRegs _⟩
  obtain rfl | ⟨d, rfl⟩ := hc
  · exact next_onBus hp hr (Mdl.eraseBank_refused hheld)
  · exact next_onBus hp hr (Mdl.programBank_refused hheld d)

/-- Refutes O37: BUSY other than 1 does not say that no partial load is pending, and the end of an erase shows a pending one as BUSY 1 (R149,
`Mdl.eraseBankDone_busy`), where the statement has 0. The module here is ready and idle, with one partial load pending. The other hypotheses
would have to be joined by `m.cht.partials = []`. -/
theorem not_eraseBankRunsAndCompletes : ¬ Obligations.EraseBankRunsAndCompletes := by
  intro h
  obtain ⟨m, hm⟩ : ∃ m : Mdl, m = { Mdl.reset.setReg Reg.SVC_STATUS_STAGE 2 with
    svc := { SvcSt.init with started := true, p54 := true }, cht := { ChartSt.init with partials := [(0, 0)] } } := ⟨_, rfl⟩
  have hp : m.powered = true := by rw [hm]; decide
  have hr : 2 ≤ m.stage := by rw [hm]; decide
  have hbusy : m.reg Reg.CHT_STATUS_BUSY ≠ 1 := by rw [hm]; decide
  have hheld : m.bankHeld (0 : Fin 2) = false := by rw [hm]; decide
  have hpending : m.cht.partials = [(0, 0)] := by rw [hm]
  obtain ⟨t, u, f, -, hu, -, -, -, -, hcht, -, -, hdone, -, -, -, -, -, -, -, -, -, hframe, -⟩ := h m [] 0 hp hr hbusy hheld
  have hpt : t.powered = true := by rw [hframe]; exact hp
  have hend : u = t.eraseBankDone false := by
    cases hu.symm.trans (next_whenOn hpt rfl)
    rfl
  have hleft : u.reg Reg.CHT_STATUS_BUSY = 1 := by
    rw [hend, Mdl.eraseBankDone_busy (congrArg ChartSt.op hcht), congrArg ChartSt.partials hcht, hpending]
    rfl
  exact absurd (hleft.symm.trans hdone) (by decide)

/-- Settles O3: each command is its own operation, run with the module's power or as a register write. -/
theorem chartAndLaneCommandsComplete : Obligations.ChartAndLaneCommandsComplete := by
  intro m _
  refine ⟨fun hp => ?running, fun hp hr => ?ready⟩
  case running => and_intros <;> intros <;> exact next_whenOn hp rfl
  case ready => and_intros <;> intros <;> exact next_onBus hp hr rfl

end

/-! Proofs of the lanes and rows chapter: counters of corrected errors, the bank of a first pass, the end of a freeze, and the weight port. -/
namespace Sys2Proof

/-! ### Little-endian bytes (R5) -/

theorem leNat_lt : ∀ l : List Byte, leNat l < 256 ^ l.length
  | [] => Nat.one_pos
  | b :: t => by
    have hb : b.toNat < 256 := b.isLt
    have ht := leNat_lt t
    rw [leNat, List.length_cons, Nat.pow_succ]
    omega

/-- Bytes come back from their number. -/
theorem leBytes_leNat : ∀ l : List Byte, leBytes l.length (leNat l) = l
  | [] => rfl
  | b :: t => by
    have hb : b.toNat < 256 := b.isLt
    have hlow : BitVec.ofNat 8 (leNat (b :: t)) = b := by
      apply BitVec.eq_of_toNat_eq
      rw [BitVec.toNat_ofNat, leNat]
      omega
    have hhigh : leNat (b :: t) / 256 = leNat t := by
      rw [leNat]
      omega
    rw [List.length_cons, leBytes, hlow, hhigh, leBytes_leNat t]

/-- A slot's 256 bits hold the 32 bytes written into it. -/
theorem leBytes_slotData {l : List Byte} (h : l.length = 32) : leBytes 32 (BitVec.ofNat 256 (leNat l)).toNat = l := by
  have hlt : leNat l < 2 ^ 256 := by simpa [h] using leNat_lt l
  rw [BitVec.toNat_ofNat, Nat.mod_eq_of_lt hlt, ← h, leBytes_leNat]

end Sys2Proof

namespace Sys2Proof.Machine

/-! ### Cores and their counters -/

/-- A core reads as last set. -/
@[simp] theorem Mdl.core_setCore_same (s : Mdl) (d c k : Nat) (v : CoreSt) : (s.setCore d c k v).core d c k = v :=
  Table.get_set_same _ _ _ _

/-- Setting a core leaves every other entry of the table of cores alone. -/
theorem Mdl.cores_setCore_other (s : Mdl) {d c k n : Nat} (v : CoreSt) (h : n ≠ coreKey d c k) :
    Table.get CoreSt.init (s.setCore d c k v).cores n = Table.get CoreSt.init s.cores n :=
  Table.get_set_other _ _ _ h

/-- A saturating counter rises by what is added, up to the greatest value of its field. -/
theorem Mdl.reg_countSat_same (s : Mdl) (f : Fld) (n : Nat) : (s.countSat f n).reg f = min (s.reg f + n) (2 ^ f.width - 1) := by
  have hpos : 0 < 2 ^ f.width := Nat.two_pow_pos f.width
  rw [Mdl.countSat, Mdl.reg_setReg_same, Nat.mod_eq_of_lt (by omega)]

/-- Counting changes the counter alone. -/
theorem Mdl.onlyRegs_countSat (s : Mdl) (f : Fld) (n : Nat) : s.onlyRegs (s.countSat f n) [f] := s.onlyRegs_setReg f _

/-! ### The bank of a first pass (R207) -/

section
variable {x : CoreSt} {p : Pass}

theorem CoreSt.entry_compareExchange (h : p.mode.val = 1) : x.entry p = .take p.bank.val := by
  simp only [CoreSt.entry, if_pos h]

theorem CoreSt.entry_firstNarrow (hm : p.mode.val ≠ 1) (hf : p.firstK = true) (hw : p.wide = false) :
    x.entry p = if (x.bank p.bank.val).state = .free then .take p.bank.val
      else if (x.bank (1 - p.bank.val)).state = .free then .take (1 - p.bank.val)
      else if x.bank0.state = .accum ∧ x.bank1.state = .accum then .overflow else .drain := by
  simp only [CoreSt.entry, if_neg hm, hf, hw, if_true, Bool.false_eq_true, if_false]

theorem CoreSt.entry_firstWide (hm : p.mode.val ≠ 1) (hf : p.firstK = true) (hw : p.wide = true) :
    x.entry p = if x.bank0.state = .free ∧ x.bank1.state = .free then .take 0
      else if x.bank0.state = .accum ∨ x.bank1.state = .accum then .overflow else .drain := by
  simp only [CoreSt.entry, if_neg hm, hf, hw, if_true]

/-- With both banks taken, no number names a free one. -/
theorem CoreSt.bank_ne_free (h0 : x.bank0.state ≠ .free) (h1 : x.bank1.state ≠ .free) (n : Nat) : (x.bank n).state ≠ .free := by
  unfold CoreSt.bank
  split
  · exact h0
  · exact h1

end

/-! ### The end of a freeze (R196, R200) -/

theorem Mdl.freezeEnd_waits {s : Mdl} {d c k : Nat}
    (h : (s.core d c k).frozen = 0 ∨ (s.core d c k).dummy ≠ (s.core d c k).holding ∨ (s.core d c k).stale (s.lanePlaces d c k) = true) :
    s.freezeEnd d c k = s := if_pos h

theorem Mdl.freezeEnd_thaws {s : Mdl} {d c k : Nat} (hf : (s.core d c k).frozen ≠ 0) (hl : (s.core d c k).dummy = (s.core d c k).holding)
    (hs : (s.core d c k).stale (s.lanePlaces d c k) = false) : s.freezeEnd d c k = s.thaw d c k :=
  if_neg (by simp [hf, hl, hs])

/-- STATE and FREEZE_CAUSE of a core are different fields. -/
theorem state_key_ne_freezeCause (d c k : Nat) : (Reg.SEQ_CORE_STATUS_STATE d c k).key ≠ (Reg.SEQ_CORE_STATUS_FREEZE_CAUSE d c k).key := by
  simp only [Fld.key, Reg.SEQ_CORE_STATUS_STATE, Reg.SEQ_CORE_STATUS_FREEZE_CAUSE]
  omega

section
variable (s : Mdl) (d c k : Nat)

theorem Mdl.thaw_core :
    (s.thaw d c k).core d c k = { s.core d c k with frozen := 0, dummy := 0, holding := 0, fallen := 0 } :=
  s.core_setCore_same d c k _

theorem Mdl.thaw_state : (s.thaw d c k).reg (Reg.SEQ_CORE_STATUS_STATE d c k) = 1 := by
  rw [Mdl.thaw, Mdl.setRegs_cons, Mdl.setRegs_cons, Mdl.setRegs_nil, Mdl.reg_setReg_other _ _ (state_key_ne_freezeCause d c k),
    Mdl.reg_setReg_same]
  rfl

theorem Mdl.thaw_freezeCause : (s.thaw d c k).reg (Reg.SEQ_CORE_STATUS_FREEZE_CAUSE d c k) = 0 := Mdl.reg_setReg_same _ _ 0

theorem Mdl.thaw_keepsRegs : s.keepsRegs (s.thaw d c k) [Reg.SEQ_CORE_STATUS_STATE d c k, Reg.SEQ_CORE_STATUS_FREEZE_CAUSE d c k] :=
  (Mdl.onlyRegs_setRegs (s.setCore d c k _) [(Reg.SEQ_CORE_STATUS_STATE d c k, 1), (Reg.SEQ_CORE_STATUS_FREEZE_CAUSE d c k, 0)]).2

theorem Mdl.thaw_eq : s.thaw d c k = { s with regs := (s.thaw d c k).regs, cores := (s.thaw d c k).cores } := rfl

end

/-! ### The generation that the weight port writes a slot for (R191) -/

section
variable (x : CoreSt) (lane slot : Nat) (tag : Bool)

/-- A generation of the tag, after the one that the slot holds, whose operands use the slot: those of a pass in the row, or the ones to come. -/
def CoreSt.slotAwaits (g : Nat) : Prop :=
  (x.slot lane slot).now.gen < g ∧ bit g 0 = tag ∧ (g = x.gen + 1 ∨ ∃ r ∈ x.passes, r.gen = g ∧ r.dummy = false ∧ slot < r.pass.slots)

/-- The test that the port makes of a generation: its tag, and whether its operands use the slot. -/
def CoreSt.servesGen (g : Nat) : Bool :=
  bit g 0 == tag && (g == x.gen + 1 || x.passes.any fun q => q.gen == g && !q.dummy && decide (slot < q.pass.slots))

theorem CoreSt.slotAwaits_iff (g : Nat) : x.slotAwaits lane slot tag g ↔ (x.slot lane slot).now.gen < g ∧ x.servesGen slot tag g = true := by
  simp [CoreSt.slotAwaits, CoreSt.servesGen, and_assoc]

/-- The port looks through the generations from the slot's up to the one to come. -/
theorem CoreSt.nextGen_eq_find : x.nextGen lane slot tag =
    (List.range' ((x.slot lane slot).now.gen + 1) (x.gen + 1 - (x.slot lane slot).now.gen)).find? (x.servesGen slot tag) := by
  rw [List.range'_eq_map_range]
  rfl

variable {x lane slot tag}

/-- No generation is due when the slot awaits none up to the one to come. -/
theorem CoreSt.nextGen_none (h : ∀ g, x.slotAwaits lane slot tag g → x.gen + 1 < g) : x.nextGen lane slot tag = none := by
  rw [CoreSt.nextGen_eq_find, List.find?_eq_none]
  intro g hg hserves
  obtain ⟨hfirst, hlast⟩ := List.mem_range'_1.1 hg
  have := h g ((x.slotAwaits_iff lane slot tag g).2 ⟨hfirst, hserves⟩)
  omega

/-- The least generation that the slot awaits is due, if it comes no later than the next. -/
theorem CoreSt.nextGen_some {g : Nat} (h : x.slotAwaits lane slot tag g) (hle : g ≤ x.gen + 1)
    (hmin : ∀ h, x.slotAwaits lane slot tag h → g ≤ h) : x.nextGen lane slot tag = some g := by
  obtain ⟨hnow, hserves⟩ := (x.slotAwaits_iff lane slot tag g).1 h
  rw [CoreSt.nextGen_eq_find, List.find?_range'_eq_some, List.mem_range'_1]
  refine ⟨hserves, by omega, fun j hj hjg => ?_⟩
  rw [Bool.not_eq_true', Bool.eq_false_iff]
  exact fun hj' => Nat.not_le.2 hjg (hmin j ((x.slotAwaits_iff lane slot tag j).2 ⟨hj, hj'⟩))

end

/-! ### Writing a weight slot (R191, R194, R226) -/

/-- A core with a slot of a lane replaced. -/
def CoreSt.setSlot (x : CoreSt) (lane slot : Nat) (w : WSlot) : CoreSt :=
  { x with slots := Table.set WSlot.init x.slots (lane * 128 + slot) w }

@[simp] theorem CoreSt.slot_setSlot_same (x : CoreSt) (lane slot : Nat) (w : WSlot) : (x.setSlot lane slot w).slot lane slot = w :=
  Table.get_set_same _ _ _ _

theorem CoreSt.slots_setSlot_other (x : CoreSt) {lane slot n : Nat} (w : WSlot) (h : n ≠ lane * 128 + slot) :
    Table.get WSlot.init (x.setSlot lane slot w).slots n = Table.get WSlot.init x.slots n :=
  Table.get_set_other _ _ _ h

theorem CoreSt.setSlot_eq (x : CoreSt) (lane slot : Nat) (w : WSlot) :
    x.setSlot lane slot w = { x with slots := (x.setSlot lane slot w).slots } := rfl

/-- What a slot held stays for the beats that have passed it, while their row totals are to be written (R188). -/
theorem CoreSt.mem_loaded_old {x : CoreSt} {w : WSlot} (v : WGen) (h : ∃ r ∈ x.passes, r.gen = w.now.gen ∧ r.over = false) :
    w.now ∈ (x.loaded w v).old := by
  obtain ⟨r, hr, hgen, hover⟩ := h
  exact List.mem_filter.2 ⟨List.mem_cons_self, List.any_eq_true.2 ⟨r, hr, by simp [hgen, hover]⟩⟩

/-- The 32 bytes that the weight port takes through `byte`: those of 6-bit elements are widened to one byte each (R292). -/
def portBytes (f : Fmt) (byte : Nat → Byte) : List Byte :=
  (List.range 32).map fun i => if f.width = 6 then BitVec.ofNat 8 (f.raw byte 0 i) else byte i

theorem portBytes_length (f : Fmt) (byte : Nat → Byte) : (portBytes f byte).length = 32 := by simp [portBytes]

/-- What the weight port writes for a generation: its bytes, and the scale bytes that follow an MX operand's in weight staging (R291, R292). -/
def portGen (g : Nat) (src : WeightSource) (f : Fmt) (byte : Nat → Byte) : WGen :=
  let mx := decide (src = .staging) && f.isMx
  ⟨g, BitVec.ofNat 256 (leNat (portBytes f byte)), if mx then (byte 32).toNat else 127, if mx && f.width == 4 then (byte 33).toNat else 127⟩

theorem portGen_bytes (g : Nat) (src : WeightSource) (f : Fmt) (byte : Nat → Byte) :
    leBytes 32 (portGen g src f byte).data.toNat = portBytes f byte := leBytes_slotData (portBytes_length f byte)

theorem portGen_scale0 (g : Nat) (src : WeightSource) (f : Fmt) (byte : Nat → Byte) :
    (portGen g src f byte).scale0 = if src = .staging ∧ f.isMx = true then (byte 32).toNat else 127 := by
  simp [portGen]

section
variable {m s : Mdl} {d c k lane slot adv : Nat} {tag : Bool} {src : WeightSource} {off : Nat} {fmt : Fin 16} {arrived : List Arrival}

/-- The port's test for the ascending order of a lane's slots (R194). -/
theorem CoreSt.writtenFrom_iff {x : CoreSt} {g : Nat} : ((List.range (128 - slot)).any fun i => (x.slot lane (slot + i)).now.gen == g) = true ↔
    ∃ n, slot ≤ n ∧ n < 128 ∧ (x.slot lane n).now.gen = g := by
  simp only [List.any_eq_true, List.mem_range, beq_iff_eq]
  constructor
  · rintro ⟨i, hi, hg⟩
    exact ⟨slot + i, Nat.le_add_right slot i, by omega, hg⟩
  · rintro ⟨n, hn, hlt, hg⟩
    exact ⟨n - slot, by omega, by rwa [Nat.add_sub_cancel' hn]⟩

variable (hs : (m.rowAdvance d c k adv).staged d c k (weightUse src) arrived = s)
include hs

/-- With no generation due, only the cycles pass and the bytes arrive. -/
theorem Mdl.weightWrite_none (hg : (s.core d c k).nextGen lane slot tag = none) :
    m.weightWrite d c k lane slot tag src off fmt adv arrived = s := by
  simp only [Mdl.weightWrite, hs, hg]

variable {g : Nat} (hg : (s.core d c k).nextGen lane slot tag = some g)
include hg

/-- A slot not yet released, or behind one that the port has written, waits. -/
theorem Mdl.weightWrite_waits (h : (s.core d c k).released g lane slot = false ∨ ∃ n, slot ≤ n ∧ n < 128 ∧ ((s.core d c k).slot lane n).now.gen = g) :
    m.weightWrite d c k lane slot tag src off fmt adv arrived = s := by
  simp only [Mdl.weightWrite, hs, hg]
  exact if_pos (h.symm.imp CoreSt.writtenFrom_iff.2 fun hr => by simp [hr])

/-- A released slot takes what the port reads at the offset. -/
theorem Mdl.weightWrite_released (hr : (s.core d c k).released g lane slot = true)
    (hn : ∀ n, slot ≤ n → n < 128 → ((s.core d c k).slot lane n).now.gen ≠ g) :
    m.weightWrite d c k lane slot tag src off fmt adv arrived = s.setCore d c k ((s.core d c k).setSlot lane slot
      ((s.core d c k).loaded ((s.core d c k).slot lane slot)
        (portGen g src ((Fmt.ofCode fmt.val).getD .none) fun i => s.partByte d c k (weightUse src) (off + i)))) := by
  simp only [Mdl.weightWrite, hs, hg]
  refine if_neg (not_or.2 ⟨fun h => ?_, by simp [hr]⟩)
  obtain ⟨n, hle, hlt, hgen⟩ := CoreSt.writtenFrom_iff.1 h
  exact hn n hle hlt hgen

end

end Sys2Proof.Machine

section
open Sys2Proof Sys2Proof.Machine

/-- Settles O43: each of the three counters is 16 bits wide. -/
theorem correctedCoreErrorsSaturate : Obligations.CorrectedCoreErrorsSaturate := by
  intro m q d c k x hp
  refine ⟨m.coreCorrected d c k x, next_whenOn hp rfl, ?_⟩
  cases x <;> exact ⟨m.reg_countSat_same _ 1, m.onlyRegs_countSat _ 1⟩

/-- Settles O44: FREEZE_END is its test, and then the row runs again (`Mdl.thaw`). -/
theorem freezeEndsWhenTheLanesAreBusy : Obligations.FreezeEndsWhenTheLanesAreBusy := by
  intro m q d c k hp
  refine ⟨fun h => next_whenOn hp (Mdl.freezeEnd_waits h), fun hf hl hs => ?_⟩
  exact ⟨m.thaw d c k, next_whenOn hp (Mdl.freezeEnd_thaws hf hl hs), m.thaw_core d c k, m.thaw_state d c k, m.thaw_freezeCause d c k,
    m.thaw_keepsRegs d c k, m.thaw_eq d c k⟩

/-- Settles O41: the tests of a narrow and of a wide first pass, each clause at its branch. -/
theorem firstPassNeedsAFreeBank : Obligations.FirstPassNeedsAFreeBank := by
  intro x p
  refine ⟨CoreSt.entry_compareExchange, fun hm hf => ⟨?ownBank, ?otherBank, ?narrowOverflow, ?narrowDrain, ?bothBanks, ?wideOverflow, ?wideDrain⟩⟩
  case ownBank =>
    intro hw hfree
    rw [CoreSt.entry_firstNarrow hm hf hw, if_pos hfree]
  case otherBank =>
    intro hw hown hfree
    rw [CoreSt.entry_firstNarrow hm hf hw, if_neg hown, if_pos hfree]
  case narrowOverflow =>
    intro hw h0 h1
    have hbusy := CoreSt.bank_ne_free (x := x) (by simp [h0]) (by simp [h1])
    rw [CoreSt.entry_firstNarrow hm hf hw, if_neg (hbusy _), if_neg (hbusy _), if_pos ⟨h0, h1⟩]
  case narrowDrain =>
    intro hw h0 h1 hdrain
    have hbusy := CoreSt.bank_ne_free h0 h1
    have hnot : ¬ (x.bank0.state = .accum ∧ x.bank1.state = .accum) := by rcases hdrain with h | h <;> simp [h]
    rw [CoreSt.entry_firstNarrow hm hf hw, if_neg (hbusy _), if_neg (hbusy _), if_neg hnot]
  case bothBanks =>
    intro hw h0 h1
    rw [CoreSt.entry_firstWide hm hf hw, if_pos ⟨h0, h1⟩]
  case wideOverflow =>
    intro hw haccum
    have hnot : ¬ (x.bank0.state = .free ∧ x.bank1.state = .free) := by rcases haccum with h | h <;> simp [h]
    rw [CoreSt.entry_firstWide hm hf hw, if_neg hnot, if_pos haccum]
  case wideDrain =>
    intro hw hdrain h0 h1
    have hnot : ¬ (x.bank0.state = .free ∧ x.bank1.state = .free) := by rcases hdrain with h | h <;> simp [h]
    rw [CoreSt.entry_firstWide hm hf hw, if_neg hnot, if_neg (not_or.2 ⟨h0, h1⟩)]

/-- Settles O40: the generation that the port serves is the least that the slot awaits (`CoreSt.nextGen_some`), and the write replaces the slot
alone (`Mdl.weightWrite_released`). -/
theorem weightSlotIsWrittenOncePerPass : Obligations.WeightSlotIsWrittenOncePerPass := by
  intro m q d c k lane slot tag src off fmt adv arrived hp s x old fits key f byte
  refine ⟨fun hnone => next_whenOn hp (Mdl.weightWrite_none rfl (CoreSt.nextGen_none hnone)), fun g hfits hle hmin => ?_⟩
  have hg : x.nextGen lane slot tag = some g := CoreSt.nextGen_some hfits hle hmin
  refine ⟨fun hwait => next_whenOn hp (Mdl.weightWrite_waits rfl hg hwait), fun hfree hlater => ?_⟩
  obtain ⟨y, hy⟩ : ∃ y, y = x.setSlot lane slot (x.loaded (x.slot lane slot) (portGen g src f byte)) := ⟨_, rfl⟩
  have hslot : y.slot lane slot = x.loaded (x.slot lane slot) (portGen g src f byte) := by rw [hy, CoreSt.slot_setSlot_same]
  refine ⟨s.setCore d c k y, next_whenOn hp (hy ▸ Mdl.weightWrite_released rfl hg hfree hlater), ?_⟩
  rw [Mdl.core_setCore_same, hslot]
  refine ⟨rfl, fun hbeats => CoreSt.mem_loaded_old _ hbeats, portGen_bytes g src f byte, portGen_scale0 g src f byte, fun n hn => ?slots, ?core, rfl,
    fun n hn => s.cores_setCore_other y hn⟩
  case slots => rw [hy, x.slots_setSlot_other _ hn]
  case core => rw [hy]; exact x.setSlot_eq lane slot _

end

/-! Proofs of the tensor sequencer chapter: writes of EYE_CTRL, reads of EYE_DATA, and the completion of the macro-operation, mark, Eyepiece,
tier and channel commands. -/
namespace Sys2Proof.Machine

/-! ### What a cluster shows of its sequencer (Tables 5-11, 5-12) -/

/-- The fields that show a cluster's sequencer. -/
def seqFields (d c : Nat) : List Fld := [Reg.SEQ_STATUS_STATE d c, Reg.SEQ_STATUS_SEL_UNSPEC d c, Reg.SEQ_STATUS_QUEUE d c,
  Reg.SEQ_CURRENT_OPCODE d c, Reg.SEQ_CURRENT_TAG d c]

/-- Showing a sequencer changes only the fields that show it. -/
theorem Mdl.onlyRegs_showSeq (m : Mdl) (d c : Nat) : m.onlyRegs (m.showSeq d c) (seqFields d c) := m.onlyRegs_setRegs _

/-! ### The Eyepiece's fields in the register map -/

/-- The fields that show a sequencer lie before EYE_CTRL in the cluster's window. -/
theorem seqFields_key_lt_halt (d c : Nat) : ∀ f ∈ seqFields d c, f.key < (Reg.EYE_CTRL_HALT d c).key := by
  simp only [seqFields, List.forall_mem_cons, List.not_mem_nil, false_imp_iff, implies_true, and_true, Fld.key, Reg.EYE_CTRL_HALT,
    Reg.SEQ_STATUS_STATE, Reg.SEQ_STATUS_SEL_UNSPEC, Reg.SEQ_STATUS_QUEUE, Reg.SEQ_CURRENT_OPCODE, Reg.SEQ_CURRENT_TAG]
  omega

/-- EYE_CTRL lies before EYE_STATUS. -/
theorem halt_key_lt_halted (d c : Nat) : (Reg.EYE_CTRL_HALT d c).key < (Reg.EYE_STATUS_HALTED d c).key := by
  simp only [Fld.key, Reg.EYE_CTRL_HALT, Reg.EYE_STATUS_HALTED]
  omega

/-- Showing a sequencer leaves the fields that lie from EYE_CTRL on alone. -/
theorem Mdl.reg_showSeq_eye (m : Mdl) {d c : Nat} {f : Fld} (h : (Reg.EYE_CTRL_HALT d c).key ≤ f.key) : (m.showSeq d c).reg f = m.reg f :=
  (m.onlyRegs_showSeq d c).2 f fun g hg => (Nat.lt_of_lt_of_le (seqFields_key_lt_halt d c g hg) h).ne'

/-! ### The Eyepiece (R279 to R282) -/

section
variable {m : Mdl} {d c : Nat}

/-- A write of EYE_CTRL in a cluster in service acts (R62, R63). -/
theorem Mdl.eyeAccess_inService (f : Mdl → Mdl) (hd : m.deadWindow (Reg.EYE_CTRL_HALT d c).addr = false)
    (hs : m.spareWindow (Reg.EYE_CTRL_HALT d c).addr = false) : m.eyeAccess d c f = f m := by
  simp [Mdl.eyeAccess, hd, hs]

theorem Mdl.eyeAllowed_iff : m.eyeAllowed d c = true ↔ m.reg (Reg.EYE_STATUS_ENABLED d c) = 1 ∧ m.reg Reg.SVC_STATUS_DEBUG = 1 := by
  simp [Mdl.eyeAllowed, m.flag_iff]

theorem Mdl.not_eyeAllowed_iff :
    ¬ m.eyeAllowed d c = true ↔ m.reg (Reg.EYE_STATUS_ENABLED d c) ≠ 1 ∨ m.reg Reg.SVC_STATUS_DEBUG ≠ 1 := by
  rw [Mdl.eyeAllowed_iff, Classical.not_and_iff_not_or_not]

theorem Mdl.eyeHalt_allowed (h : m.eyeAllowed d c = true) : m.eyeHalt d c = m.setReg (Reg.EYE_CTRL_HALT d c) 1 := if_pos h

theorem Mdl.eyeHalt_refused (h : ¬ m.eyeAllowed d c = true) : m.eyeHalt d c = m.setReg (Reg.EYE_STATUS_REFUSED d c) 1 := if_neg h

theorem Mdl.eyeResume_refused (h : ¬ m.eyeAllowed d c = true) : m.eyeResume d c = m.setReg (Reg.EYE_STATUS_REFUSED d c) 1 := if_neg h

/-- A read of EYE_DATA needs a halted cluster and a use of the Eyepiece that is allowed. -/
theorem Mdl.eyeRead_refused (lane : Nat) (h : m.reg (Reg.EYE_STATUS_HALTED d c) ≠ 1 ∨ ¬ m.eyeAllowed d c = true) :
    m.eyeRead d c lane = (2 ^ 32 - 1, m.setReg (Reg.EYE_STATUS_REFUSED d c) 1) := by
  have htest : (!m.flag (Reg.EYE_STATUS_HALTED d c) || !m.eyeAllowed d c) = true := by
    rcases h with hh | ha
    · simp [mt (m.flag_iff _).1 hh]
    · simp [ha]
  rw [Mdl.eyeRead, if_pos htest]

end

section
variable (m : Mdl) (d c : Nat)

/-- A cluster whose halt has ended, before its sequencer shows it. -/
def Mdl.unhalted : Mdl := m.setRegs [(Reg.EYE_CTRL_HALT d c, 0), (Reg.EYE_STATUS_HALTED d c, 0)]

theorem Mdl.unhalted_halt : (m.unhalted d c).reg (Reg.EYE_CTRL_HALT d c) = 0 := by
  rw [Mdl.unhalted, Mdl.setRegs_cons, Mdl.setRegs_cons, Mdl.setRegs_nil, Mdl.reg_setReg_other _ _ (halt_key_lt_halted d c).ne, Mdl.reg_setReg_same,
    Nat.zero_mod]

theorem Mdl.unhalted_halted : (m.unhalted d c).reg (Reg.EYE_STATUS_HALTED d c) = 0 := Mdl.reg_setReg_same _ _ 0

/-- The end of a halt, as the sequencer shows it, changes register fields alone. -/
theorem Mdl.unhalted_showSeq_eq : (m.unhalted d c).showSeq d c = { m with regs := ((m.unhalted d c).showSeq d c).regs } :=
  (Mdl.onlyRegs_trans (m.onlyRegs_setRegs _) ((m.unhalted d c).onlyRegs_showSeq d c)).1

theorem Mdl.eyeResume_allowed (h : m.eyeAllowed d c = true) : m.eyeResume d c = (m.unhalted d c).showSeq d c := if_pos h

end

end Sys2Proof.Machine

section
open Sys2Proof Sys2Proof.Machine

/-- Settles O45: a write of HALT and a read of EYE_DATA begin with the test of EYE_EN and the unlock (`Mdl.eyeAllowed_iff`), and what a sequencer
shows at the end of a halt is none of the Eyepiece's fields (`Mdl.reg_showSeq_eye`). -/
theorem eyepieceNeedsEnableAndUnlock : Obligations.EyepieceNeedsEnableAndUnlock := by
  intro m q d c hp hr hd hs
  refine ⟨fun hoff x hx => ?refused, fun hen hdebug => ⟨?halt, ?resume⟩, fun hoff lane => ?read⟩
  case refused =>
    have hno : ¬ m.eyeAllowed d c = true := Mdl.not_eyeAllowed_iff.2 hoff
    refine ⟨m.setReg (Reg.EYE_STATUS_REFUSED d c) 1, ?_, m.reg_setReg_same _ 1, m.onlyRegs_setReg _ 1⟩
    rcases hx with rfl | rfl
    · exact next_onBus hp hr ((Mdl.eyeAccess_inService _ hd hs).trans (Mdl.eyeHalt_refused hno))
    · exact next_onBus hp hr ((Mdl.eyeAccess_inService _ hd hs).trans (Mdl.eyeResume_refused hno))
  case halt =>
    have hyes : m.eyeAllowed d c = true := Mdl.eyeAllowed_iff.2 ⟨hen, hdebug⟩
    exact ⟨m.setReg (Reg.EYE_CTRL_HALT d c) 1, next_onBus hp hr ((Mdl.eyeAccess_inService _ hd hs).trans (Mdl.eyeHalt_allowed hyes)),
      m.reg_setReg_same _ 1, m.onlyRegs_setReg _ 1⟩
  case resume =>
    have hyes : m.eyeAllowed d c = true := Mdl.eyeAllowed_iff.2 ⟨hen, hdebug⟩
    refine ⟨(m.unhalted d c).showSeq d c,
      next_onBus hp hr ((Mdl.eyeAccess_inService _ hd hs).trans (m.eyeResume_allowed d c hyes)), ?_, ?_, m.unhalted_showSeq_eq d c⟩
    · rw [Mdl.reg_showSeq_eye _ le_rfl, Mdl.unhalted_halt]
    · rw [Mdl.reg_showSeq_eye _ (halt_key_lt_halted d c).le, Mdl.unhalted_halted]
  case read => exact Mdl.eyeRead_refused lane (hoff.imp_right Mdl.not_eyeAllowed_iff.2)

/-- Settles O4: each command is its own operation, run with the module's power or as a register write. -/
theorem macroAndTierCommandsComplete : Obligations.MacroAndTierCommandsComplete := by
  intro m _
  refine ⟨fun hp => ?running, fun hp hr => ?ready⟩
  case running => and_intros <;> intros <;> exact next_whenOn hp rfl
  case ready => and_intros <;> intros <;> exact next_onBus hp hr rfl

end

/-! Proofs of the numbers and scaling chapter: the compensated add of a pair in HBM pages. -/
namespace Sys2Proof

/-! ### Numbers as little-endian bytes (R5) -/

theorem leBytes_length : ∀ n v : Nat, (leBytes n v).length = n
  | 0, _ => rfl
  | n + 1, v => congrArg (· + 1) (leBytes_length n (v / 256))

/-- A number comes back from its bytes, cut to as many bytes as there are. -/
theorem leNat_leBytes : ∀ n v : Nat, leNat (leBytes n v) = v % 256 ^ n
  | 0, v => (Nat.mod_one v).symm
  | n + 1, v => by
    rw [leBytes, leNat, leNat_leBytes n, BitVec.toNat_ofNat, Nat.pow_succ' (m := 256), Nat.mod_mul (a := 256)]

theorem leNat_leBytes_word (x : BitVec 32) : leNat (leBytes 4 x.toNat) = x.toNat :=
  (leNat_leBytes 4 x.toNat).trans (Nat.mod_eq_of_lt x.isLt)

end Sys2Proof

namespace Sys2Proof.Machine

/-- An FP32 value comes back from its bits. -/
theorem f32Of_toNat (x : BitVec 32) : f32Of x.toNat = x := BitVec.ofNat_toNat 32 x |>.trans (BitVec.setWidth_eq x)

/-! ### Two words side by side in device memory (R325) -/

theorem Memory.readBytes_add (m : Memory) (j : Nat) : ∀ k i : Nat, m.readBytes k (i + j) = m.readBytes k i ++ m.readBytes (k + i) j
  | k, 0 => by rw [Nat.zero_add]; rfl
  | k, i + 1 => by
    rw [Nat.add_right_comm i 1 j, show k + (i + 1) = k + 1 + i by omega]
    exact congrArg (m.read k :: ·) (m.readBytes_add j (k + 1) i)

/-- Within an account's range the keys of addresses are in a row. -/
theorem memKey_add {addr n : Nat} (a : Nat) (h : addr + n < 2 ^ 47) : memKey a (addr + n) = memKey a addr + n := by
  rw [memKey, memKey, Nat.mod_eq_of_lt h, Nat.mod_eq_of_lt (Nat.lt_of_le_of_lt (Nat.le_add_right addr n) h), Nat.add_assoc]

/-- Two ranges side by side read as the two halves last written. -/
theorem Mdl.memRead_memWrite_append (s : Mdl) (a : Nat) {addr : Nat} {x y : List Byte} (h : addr + x.length < 2 ^ 47) :
    (s.memWrite a addr (x ++ y)).memRead a addr x.length = x ∧ (s.memWrite a addr (x ++ y)).memRead a (addr + x.length) y.length = y := by
  have hread := s.memRead_memWrite a addr (x ++ y)
  rw [List.length_append, Mdl.memRead, Memory.readBytes_add, ← memKey_add a h] at hread
  exact List.append_inj hread (Memory.readBytes_length ..)

/-- What a compensated add writes: the two words of a pair. -/
def pairBytes (r : F32 × F32) : List Byte := leBytes 4 r.1.toNat ++ leBytes 4 r.2.toNat

theorem pairBytes_length (r : F32 × F32) : (pairBytes r).length = 8 := by
  rw [pairBytes, List.length_append, leBytes_length, leBytes_length]

/-- A pair's words read as last written. -/
theorem Mdl.memNat_pair (s : Mdl) (a : Nat) {addr : Nat} (r : F32 × F32) (h : addr + 8 ≤ 2 ^ 47) :
    (s.memWrite a addr (pairBytes r)).memNat a addr 4 = r.1.toNat ∧ (s.memWrite a addr (pairBytes r)).memNat a (addr + 4) 4 = r.2.toNat := by
  have hlen := fun x : F32 => leBytes_length 4 x.toNat
  obtain ⟨hsum, herr⟩ := s.memRead_memWrite_append a (x := leBytes 4 r.1.toNat) (y := leBytes 4 r.2.toNat) (addr := addr) (by rw [hlen]; omega)
  rw [hlen] at hsum herr
  rw [hlen] at herr
  exact ⟨(congrArg leNat hsum).trans (leNat_leBytes_word r.1), (congrArg leNat herr).trans (leNat_leBytes_word r.2)⟩

/-! ### An access to pages in HBM (R328, R338, R342) -/

/-- A page replaced by one of its own STATE leaves every page's STATE as it was. -/
theorem Mdl.state_setPage (s : Mdl) {a p : Nat} {x : Page} (h : x.state = (s.page a p).state) (b q : Nat) :
    ((s.setPage a p x).page b q).state = (s.page b q).state := by
  by_cases hk : pageKey b q = pageKey a p
  · simp only [Mdl.page, Mdl.setPage, hk, Table.get_set_same]
    exact h
  · simp only [Mdl.page, Mdl.setPage, Table.get_set_other _ _ _ hk]

/-- Another state holds the same bytes of device memory, and has every page in the same STATE. -/
def Mdl.SameMemory (s t : Mdl) : Prop := t.mem = s.mem ∧ ∀ b q, (t.page b q).state = (s.page b q).state

theorem Mdl.SameMemory.refl (s : Mdl) : s.SameMemory s := ⟨rfl, fun _ _ => rfl⟩

theorem Mdl.SameMemory.trans {s t u : Mdl} (h : s.SameMemory t) (h' : t.SameMemory u) : s.SameMemory u :=
  ⟨h'.1.trans h.1, fun b q => (h'.2 b q).trans (h.2 b q)⟩

theorem Mdl.SameMemory.memNat {s t : Mdl} (h : s.SameMemory t) (a addr n : Nat) : t.memNat a addr n = s.memNat a addr n := by
  rw [Mdl.memNat, Mdl.memRead, h.1]
  rfl

theorem Mdl.sameMemory_setPage (s : Mdl) {a p : Nat} {x : Page} (h : x.state = (s.page a p).state) : s.SameMemory (s.setPage a p x) :=
  ⟨rfl, s.state_setPage h⟩

theorem Mdl.sameMemory_touch (s : Mdl) (a p : Nat) : s.SameMemory (s.touch a p) := by
  simp only [Mdl.touch]
  split_ifs
  · exact .refl s
  · exact Mdl.sameMemory_setPage (s.fresh 1).2 rfl
  · exact .refl s

theorem Mdl.sameMemory_dirtyPage (s : Mdl) (a p : Nat) : s.SameMemory (s.dirtyPage a p) := by
  simp only [Mdl.dirtyPage]
  split_ifs <;> exact Mdl.sameMemory_setPage s rfl

/-- The dome cache and the tier map see an access; memory and the pages' STATE do not. -/
theorem Mdl.sameMemory_usePage (s : Mdl) (a p : Nat) (write : Bool) : s.SameMemory (s.usePage a p write) := by
  unfold Mdl.usePage
  split_ifs
  · exact (s.sameMemory_touch a p).trans ((s.touch a p).sameMemory_dirtyPage a p)
  · exact s.sameMemory_touch a p
  · exact .refl s

theorem Mdl.sameMemory_usePages (a : Nat) (write : Bool) :
    ∀ (l : List Nat) (s : Mdl), s.SameMemory (l.foldl (fun (s : Mdl) p => s.usePage a p write) s)
  | [], s => .refl s
  | p :: l, s => (s.sameMemory_usePage a p write).trans (Mdl.sameMemory_usePages a write l (s.usePage a p write))

section
variable {s : Mdl} {a addr n : Nat} (h : ∀ p ∈ pagesOf addr n, (s.page a p).state = .hbm)
include h

theorem Mdl.waitPage_hbm : s.waitPage a addr n = none := by
  have hnone : (pagesOf addr n).find? (fun p => (s.page a p).state != .hbm && (s.page a p).state != .remote) = none :=
    List.find?_eq_none.2 fun p hp => by simp [h p hp]
  rw [Mdl.waitPage, hnone]

theorem Mdl.waitFor_write_hbm (w : Accessor) : s.waitFor w a addr n true = none := by
  rw [Mdl.waitFor, Mdl.waitPage_hbm h]
  rfl

/-- A write access to pages in HBM takes place, and leaves memory and the pages' STATE as they are. -/
theorem Mdl.access_write_hbm (w : Accessor) : ∃ t : Mdl, s.access w a addr n true = .ok t ∧ s.SameMemory t := by
  have hnone : ((pagesOf addr n).findSome? fun p => (s.pageFault w a addr n p true).map fun f => (f, (partIn addr n p).1)) = none :=
    List.findSome?_eq_none_iff.2 fun p hp => by simp [Mdl.pageFault, h p hp]
  refine ⟨_, ?_, Mdl.sameMemory_usePages a true (pagesOf addr n) s⟩
  rw [Mdl.access, Mdl.waitFor_write_hbm h w]
  simp only [hnone]

end

/-! ### The compensated add of a pair (R320) -/

/-- A range that is not empty meets the page of its first byte. -/
theorem mem_pagesOf_first {addr n : Nat} (h : n ≠ 0) : addr / pageBytes ∈ pagesOf addr n := by
  rw [pagesOf, if_neg h]
  exact List.mem_map.2 ⟨0, List.mem_range.2 (Nat.succ_pos _), rfl⟩

/-- An add to a pair in HBM writes the pair's sum and error, once its pages have been used. -/
theorem Mdl.pairAdd_hbm {s : Mdl} {a addr : Nat} (w : Accessor) (v : Nat) (h : ∀ p ∈ pagesOf addr 8, (s.page a p).state = .hbm) :
    ∃ t : Mdl, s.SameMemory t ∧ s.pairAdd w a addr v =
      .ok (t.memWrite a addr (pairBytes (compensatedAdd (f32Of (s.memNat a addr 4)) (f32Of (s.memNat a (addr + 4) 4)) (f32Of v)))) := by
  obtain ⟨t, ht, hsame⟩ := Mdl.access_write_hbm h w
  have hlocal : (t.page a (addr / pageBytes)).state ≠ .remote := by
    rw [hsame.2, h _ (mem_pagesOf_first (by decide))]
    decide
  refine ⟨t, hsame, ?_⟩
  rw [Mdl.pairAdd, ht, Except.map, if_neg hlocal, hsame.memNat, hsame.memNat]
  rfl

end Sys2Proof.Machine

section
open Sys2Proof Sys2Proof.Machine

/-- Settles O46: the access to pages in HBM takes place and leaves memory as it is (`Mdl.pairAdd_hbm`), and the pair's 8 bytes are then the one
write. -/
theorem compensatedAddWritesOnePair : Obligations.CompensatedAddWritesOnePair := by
  intro m q acct addr v hp hend hhbm r
  obtain ⟨s, hsame, hadd⟩ := Mdl.pairAdd_hbm (.of .page) v.toNat hhbm
  rw [f32Of_toNat] at hadd
  have hrun : m.compensatedAddAt acct addr v.toNat = s.memWrite acct addr (pairBytes r) := by rw [Mdl.compensatedAddAt, hadd]
  obtain ⟨hsum, herr⟩ := s.memNat_pair acct r hend
  refine ⟨s.memWrite acct addr (pairBytes r), next_whenOn hp hrun, hsum, herr, fun k hk => ?_⟩
  rw [s.memWrite_read_other acct addr (pairBytes r) (by rwa [pairBytes_length]), hsame.1]

end

/-! Proofs of the placement and tiers chapter: device memory by account, and how a tier command begins and ends. -/
namespace Sys2Proof.Machine

/-! ### The keys of device memory (R325) -/

/-- The accounts' ranges are apart: the key of an address of another account, or of this one outside a range, lies outside the range's keys. -/
theorem memKey_outside {acct addr n b a : Nat} (hend : addr + n ≤ 2 ^ 47) (ha : a < 2 ^ 47) (h : b ≠ acct ∨ a < addr ∨ addr + n ≤ a) :
    memKey b a < memKey acct addr ∨ memKey acct addr + n ≤ memKey b a := by
  cases n with
  | zero =>
    rw [Nat.add_zero]
    exact Nat.lt_or_ge _ _
  | succ n =>
    have haddr : addr < 2 ^ 47 := by omega
    rw [memKey, memKey, Nat.mod_eq_of_lt ha, Nat.mod_eq_of_lt haddr]
    obtain hb | hb | rfl : b < acct ∨ acct < b ∨ b = acct := by omega
    · left; omega
    · right; omega
    · omega

/-! ### How a tier command ends (R350, Table 7-11) -/

/-- The fields that the end of a tier command sets. -/
def tierEndValues (err done : Nat) : List (Fld × Nat) :=
  [(Reg.TIR_CMD_STATUS_BUSY, 0), (Reg.TIR_CMD_STATUS_DONE, 1), (Reg.TIR_CMD_STATUS_ERR, err), (Reg.TIR_CMD_STATUS_PAGES_DONE, done)]

theorem tierEndValues_nodup (err done : Nat) : ((tierEndValues err done).map fun x => x.1.key).Nodup :=
  (by decide : [Reg.TIR_CMD_STATUS_BUSY.key, Reg.TIR_CMD_STATUS_DONE.key, Reg.TIR_CMD_STATUS_ERR.key, Reg.TIR_CMD_STATUS_PAGES_DONE.key].Nodup)

section
variable (m : Mdl) (err done : Nat)

theorem Mdl.reg_tierEnd {p : Fld × Nat} (hp : p ∈ tierEndValues err done) : (m.tierEnd err done).reg p.1 = p.2 % 2 ^ p.1.width :=
  Mdl.reg_setRegs_mem _ _ (tierEndValues_nodup err done) hp

@[simp] theorem Mdl.reg_tierEnd_busy : (m.tierEnd err done).reg Reg.TIR_CMD_STATUS_BUSY = 0 :=
  m.reg_tierEnd err done (p := (Reg.TIR_CMD_STATUS_BUSY, 0)) (by simp [tierEndValues])

@[simp] theorem Mdl.reg_tierEnd_done : (m.tierEnd err done).reg Reg.TIR_CMD_STATUS_DONE = 1 :=
  m.reg_tierEnd err done (p := (Reg.TIR_CMD_STATUS_DONE, 1)) (by simp [tierEndValues])

@[simp] theorem Mdl.reg_tierEnd_err : (m.tierEnd err done).reg Reg.TIR_CMD_STATUS_ERR = err % 2 ^ 4 :=
  m.reg_tierEnd err done (p := (Reg.TIR_CMD_STATUS_ERR, err)) (by simp [tierEndValues])

@[simp] theorem Mdl.reg_tierEnd_pagesDone : (m.tierEnd err done).reg Reg.TIR_CMD_STATUS_PAGES_DONE = done % 2 ^ 32 :=
  m.reg_tierEnd err done (p := (Reg.TIR_CMD_STATUS_PAGES_DONE, done)) (by simp [tierEndValues])

/-- The end of a tier command leaves every page where it is. -/
@[simp] theorem Mdl.tierEnd_map : (m.tierEnd err done).tir.map = m.tir.map := by rw [Mdl.tierEnd, Mdl.setRegs_tir]

@[simp] theorem Mdl.tierEnd_mem : (m.tierEnd err done).mem = m.mem := by rw [Mdl.tierEnd, Mdl.setRegs_mem]

end

/-! ### How a tier command begins (R350, Table 7-4) -/

/-- The commands of Table 7-3 are the operation codes 1 to 6 of TIR_CMD. -/
theorem exec_tierCommand {m : Mdl} {q : List Instr} {tier : Fin 4} {home : Die} {acct : Account} {c : Instr} (hp : m.powered = true)
    (hr : 2 ≤ m.stage)
    (hc : c = .map tier home acct ∨ c = .unmap tier home acct ∨ c = .pin tier home acct ∨ c = .unpin tier home acct ∨
      c = .move tier home acct ∨ c = .setHome tier home acct) :
    ∃ op, 1 ≤ op ∧ op ≤ 6 ∧ exec c ⟨m, q⟩ = .next ⟨m.tierCommand op tier home acct, q⟩ := by
  rcases hc with rfl | rfl | rfl | rfl | rfl | rfl
  · exact ⟨1, by decide, by decide, next_onBus hp hr rfl⟩
  · exact ⟨2, by decide, by decide, next_onBus hp hr rfl⟩
  · exact ⟨3, by decide, by decide, next_onBus hp hr rfl⟩
  · exact ⟨4, by decide, by decide, next_onBus hp hr rfl⟩
  · exact ⟨5, by decide, by decide, next_onBus hp hr rfl⟩
  · exact ⟨6, by decide, by decide, next_onBus hp hr rfl⟩

/-- A command whose pages are all done ends without error, whatever is left of the bound. -/
theorem Mdl.tierRun_allDone (m : Mdl) {c : TierCmd} (h : c.count ≤ c.done) : ∀ n, m.tierRun c n = m.tierEnd 0 c.done
  | 0 => rfl
  | _ + 1 => by rw [Mdl.tierRun, if_pos h]

section
variable {m : Mdl} {op tier home acct : Nat}

theorem Mdl.tierCommand_busy (h : m.reg Reg.TIR_CMD_STATUS_BUSY = 1) :
    m.tierCommand op tier home acct = m.setReg Reg.TIR_CMD_STATUS_ERR 5 := by
  rw [Mdl.tierCommand, if_pos ((m.flag_iff _).2 h)]

/-- Account 0xFFFF, and an address that is no page's or that lies past the range, end a command with error 4. -/
theorem Mdl.tierCommand_badArguments (hbusy : m.reg Reg.TIR_CMD_STATUS_BUSY ≠ 1)
    (h : acct = 0xFFFF ∨ m.reg Reg.TIR_CMD_ADDR_ADDR % pageBytes ≠ 0 ∨ 2 ^ 47 ≤ m.reg Reg.TIR_CMD_ADDR_ADDR) :
    m.tierCommand op tier home acct = m.tierEnd 4 0 := by
  rw [Mdl.tierCommand, if_neg (mt (m.flag_iff _).1 hbusy)]
  exact if_pos (h.imp_right (Or.imp_right .inl))

/-- A command with good arguments and no page to do ends at once. -/
theorem Mdl.tierCommand_noPages (hbusy : m.reg Reg.TIR_CMD_STATUS_BUSY ≠ 1) (hacct : acct ≠ 0xFFFF)
    (halign : m.reg Reg.TIR_CMD_ADDR_ADDR % pageBytes = 0) (hrange : m.reg Reg.TIR_CMD_ADDR_ADDR < 2 ^ 47)
    (hcount : m.reg Reg.TIR_CMD_ARG_COUNT = 0) (htier : tier ≤ 2) (hop : 1 ≤ op) (hop' : op ≤ 6) :
    m.tierCommand op tier home acct = m.tierEnd 0 0 := by
  rw [Mdl.tierCommand, if_neg (mt (m.flag_iff _).1 hbusy)]
  have hgood : ¬ (acct = 0xFFFF ∨ m.reg Reg.TIR_CMD_ADDR_ADDR % pageBytes ≠ 0 ∨ 2 ^ 47 ≤ m.reg Reg.TIR_CMD_ADDR_ADDR ∨
      ((op = 1 ∨ op = 5) ∧ 2 < tier) ∨ op < 1 ∨ 6 < op) := by omega
  exact (if_neg hgood).trans (m.tierRun_allDone hcount.le _)

end

end Sys2Proof.Machine

section
open Sys2Proof Sys2Proof.Machine

/-- Settles O47: the bytes written are read back, and every other byte's key lies outside the range's (`memKey_outside`). -/
theorem memoryReadsWhatWasWritten : Obligations.MemoryReadsWhatWasWritten := fun m acct addr l hend =>
  ⟨m.memRead_memWrite acct addr l, fun _ _ ha hout => m.memWrite_read_other acct addr l (memKey_outside hend ha hout),
    m.memWrite_wf acct addr l, m.memWrite_regs acct addr l⟩

/-- Settles O48: each of the six is `Mdl.tierCommand` with its code, which a running command refuses, and which a bad argument or an empty
range ends at once. -/
theorem tierCommandChecksItsArguments : Obligations.TierCommandChecksItsArguments := by
  intro m q tier home acct hp hr addr count ends c hc
  obtain ⟨op, hop, hop', hexec⟩ := exec_tierCommand hp hr hc
  refine ⟨m.tierCommand op tier home acct, hexec, fun hbusy => ?running, fun hbusy hbad => ?badArguments,
    fun hbusy hacct halign hrange hcount htier => ?noPages⟩
  case running =>
    rw [Mdl.tierCommand_busy hbusy]
    exact ⟨m.reg_setReg_same _ 5, m.onlyRegs_setReg _ 5⟩
  case badArguments =>
    rw [Mdl.tierCommand_badArguments hbusy hbad]
    exact ⟨m.reg_tierEnd_err 4 0, m.reg_tierEnd_pagesDone 4 0, m.reg_tierEnd_done 4 0, m.tierEnd_keepsRegs 4 0, m.tierEnd_map 4 0,
      m.tierEnd_mem 4 0⟩
  case noPages =>
    rw [Mdl.tierCommand_noPages hbusy hacct halign hrange hcount htier hop hop']
    exact ⟨m.reg_tierEnd_err 0 0, m.reg_tierEnd_pagesDone 0 0, m.reg_tierEnd_done 0 0, m.reg_tierEnd_busy 0 0, m.tierEnd_keepsRegs 0 0,
      m.tierEnd_map 0 0, m.tierEnd_mem 0 0⟩

end

/-! Proofs of the serving and scheduling chapter: sequences and groups, semaphores, and engine time. -/
namespace Sys2Proof.Machine

/-! ### Sequences (R400) -/

@[simp] theorem Mdl.seq_setSeq_same (m : Mdl) (i : Nat) (e : SeqEntry) : (m.setSeq i e).seq i = e := Table.get_set_same _ _ _ _

theorem Mdl.seq_setSeq_other (m : Mdl) {i j : Nat} (e : SeqEntry) (h : j ≠ i) : (m.setSeq i e).seq j = m.seq j := Table.get_set_other _ _ _ h

/-- A cancel of an entry that holds no sequence, or whose sequence leaves, is ignored. -/
theorem Mdl.cancelSeq_ignored {m : Mdl} {i : Nat} (h : (m.seq i).state = .free ∨ (m.seq i).state = .leaving) : m.cancelSeq i = m := by
  rcases h with h | h <;> simp only [Mdl.cancelSeq, h]

theorem Mdl.cancelSeq_marks {m : Mdl} {i : Nat} (hf : (m.seq i).state ≠ .free) (hl : (m.seq i).state ≠ .leaving) :
    m.cancelSeq i = m.setSeq i { m.seq i with cancel := true } := by
  rw [Mdl.cancelSeq]
  split
  · exact absurd ‹_› hf
  · exact absurd ‹_› hl
  · rfl

/-! ### Groups (R376, Table 8-9) -/

/-- STATE and FAILS are two fields of SQT_GRP_STATUS (Table 8-16). -/
theorem groupState_key_ne_fails (g : Nat) : (Reg.SQT_GRP_STATUS_STATE g).key ≠ (Reg.SQT_GRP_STATUS_FAILS g).key := by
  simp only [Fld.key, Reg.SQT_GRP_STATUS_STATE, Reg.SQT_GRP_STATUS_FAILS]
  omega

/-- ENABLE lies in SQT_GRP_CFG, another word of the group than SQT_GRP_STATUS. -/
theorem groupEnable_key_ne_fails (g : Nat) : (Reg.SQT_GRP_CFG_ENABLE g).key ≠ (Reg.SQT_GRP_STATUS_FAILS g).key := by
  simp only [Fld.key, Reg.SQT_GRP_CFG_ENABLE, Reg.SQT_GRP_STATUS_FAILS]
  omega

/-- A staged value depends on the field itself and on what is staged. -/
theorem Mdl.stagedValue_setReg_other (m : Mdl) {f h : Fld} (g v : Nat) (hk : h.key ≠ f.key) :
    (m.setReg f v).stagedValue g h = m.stagedValue g h := by
  simp only [Mdl.stagedValue, Mdl.setReg_cht, Mdl.reg_setReg_other m v hk]

/-- Whether a group closes depends on its ENABLE and the pending commits, not on its failures. -/
theorem Mdl.closing_setReg_fails (m : Mdl) (g v : Nat) : (m.setReg (Reg.SQT_GRP_STATUS_FAILS g) v).closing g = m.closing g := by
  have hk := groupEnable_key_ne_fails g
  simp only [Mdl.closing, Mdl.flag, Mdl.setReg_cht, Mdl.reg_setReg_other m v hk, Mdl.stagedValue_setReg_other m _ v hk]

section
variable {m : Mdl} {g : Nat}

theorem Mdl.resumeGroup_halted (h : m.reg (Reg.SQT_GRP_STATUS_STATE g) = 2) :
    m.resumeGroup g = (m.setReg (Reg.SQT_GRP_STATUS_FAILS g) 0).setReg (Reg.SQT_GRP_STATUS_STATE g) (if m.closing g then 3 else 1) := by
  rw [Mdl.resumeGroup, Mdl.reg_setReg_other m 0 (groupState_key_ne_fails g), if_pos h, Mdl.closing_setReg_fails]

theorem Mdl.resumeGroup_notHalted (h : m.reg (Reg.SQT_GRP_STATUS_STATE g) ≠ 2) :
    m.resumeGroup g = m.setReg (Reg.SQT_GRP_STATUS_FAILS g) 0 := by
  rw [Mdl.resumeGroup, Mdl.reg_setReg_other m 0 (groupState_key_ne_fails g), if_neg h]

end

theorem Mdl.reg_resumeGroup_fails (m : Mdl) (g : Nat) : (m.resumeGroup g).reg (Reg.SQT_GRP_STATUS_FAILS g) = 0 := by
  by_cases h : m.reg (Reg.SQT_GRP_STATUS_STATE g) = 2
  · rw [Mdl.resumeGroup_halted h, Mdl.reg_setReg_other _ _ (groupState_key_ne_fails g).symm, Mdl.reg_setReg_same, Nat.zero_mod]
  · rw [Mdl.resumeGroup_notHalted h, Mdl.reg_setReg_same, Nat.zero_mod]

theorem Mdl.reg_resumeGroup_state (m : Mdl) (g : Nat) : (m.resumeGroup g).reg (Reg.SQT_GRP_STATUS_STATE g) =
    if m.reg (Reg.SQT_GRP_STATUS_STATE g) = 2 then (if m.closing g then 3 else 1) else m.reg (Reg.SQT_GRP_STATUS_STATE g) := by
  by_cases h : m.reg (Reg.SQT_GRP_STATUS_STATE g) = 2
  · rw [Mdl.resumeGroup_halted h, if_pos h, Mdl.reg_setReg_same]
    split <;> rfl
  · rw [Mdl.resumeGroup_notHalted h, if_neg h, Mdl.reg_setReg_other m 0 (groupState_key_ne_fails g)]

theorem Mdl.resumeGroup_onlyRegs (m : Mdl) (g : Nat) :
    m.onlyRegs (m.resumeGroup g) [Reg.SQT_GRP_STATUS_FAILS g, Reg.SQT_GRP_STATUS_STATE g] := by
  have hfails := m.onlyRegs_setReg (Reg.SQT_GRP_STATUS_FAILS g) 0
  by_cases h : m.reg (Reg.SQT_GRP_STATUS_STATE g) = 2
  · rw [Mdl.resumeGroup_halted h]
    exact Mdl.onlyRegs_trans hfails (Mdl.onlyRegs_setReg _ _ _)
  · rw [Mdl.resumeGroup_notHalted h]
    exact Mdl.onlyRegs_mono hfails (List.cons_subset_cons _ (List.nil_subset _))

/-! ### Semaphores (R415 to R417, Table 8-28) -/

/-- The fields that show a semaphore, with what they show of it. -/
def semValues (n : Nat) (x : SemSt) : List (Fld × Nat) :=
  [(Reg.SCH_SEM_HELD n, b2n x.owner.isSome), (Reg.SCH_SEM_WAITERS n, b2n (!x.waiters.isEmpty)), (Reg.SCH_SEM_OWNER n, x.owner.getD 0)]

theorem semValues_nodup (n : Nat) (x : SemSt) : ((semValues n x).map fun p => p.1.key).Nodup := by
  simp [semValues, Fld.key, Reg.SCH_SEM_HELD, Reg.SCH_SEM_WAITERS, Reg.SCH_SEM_OWNER]

section
variable (m : Mdl) (n : Nat) (x : SemSt)

/-- A semaphore is written and then shown. -/
theorem Mdl.setSem_eq_setRegs :
    m.setSem n x = { m with sch := { m.sch with sems := Table.set .init m.sch.sems n x } }.setRegs (semValues n x) := rfl

@[simp] theorem Mdl.setSem_sch : (m.setSem n x).sch = { m.sch with sems := Table.set .init m.sch.sems n x } := by
  rw [Mdl.setSem_eq_setRegs, Mdl.setRegs_sch]

@[simp] theorem Mdl.sem_setSem_same : (m.setSem n x).sem n = x := by
  rw [Mdl.sem, Mdl.setSem_sch, Table.get_set_same]

theorem Mdl.sem_setSem_other {i : Nat} (h : i ≠ n) : (m.setSem n x).sem i = m.sem i := by
  rw [Mdl.sem, Mdl.setSem_sch, Table.get_set_other _ _ _ h, Mdl.sem]

/-- Writing a semaphore changes the semaphores and register fields alone. -/
theorem Mdl.setSem_eq :
    m.setSem n x = { m with regs := (m.setSem n x).regs, sch := { m.sch with sems := (m.setSem n x).sch.sems } } := by
  conv_lhs => rw [Mdl.setSem_eq_setRegs, Mdl.setRegs_eq, ← Mdl.setSem_eq_setRegs]
  rw [Mdl.setSem_sch]

theorem Mdl.setSem_keepsRegs : m.keepsRegs (m.setSem n x) [Reg.SCH_SEM_HELD n, Reg.SCH_SEM_WAITERS n, Reg.SCH_SEM_OWNER n] :=
  (Mdl.onlyRegs_setRegs { m with sch := { m.sch with sems := Table.set .init m.sch.sems n x } } (semValues n x)).2

theorem Mdl.reg_setSem {p : Fld × Nat} (hp : p ∈ semValues n x) : (m.setSem n x).reg p.1 = p.2 % 2 ^ p.1.width :=
  Mdl.reg_setRegs_mem _ _ (semValues_nodup n x) hp

theorem Mdl.reg_setSem_held (j : Nat) (l : List SemWaiter) : (m.setSem n ⟨some j, l⟩).reg (Reg.SCH_SEM_HELD n) = 1 :=
  m.reg_setSem n ⟨some j, l⟩ (p := (Reg.SCH_SEM_HELD n, 1)) List.mem_cons_self

theorem Mdl.reg_setSem_waiters (o : Option Nat) (l : List SemWaiter) (w : SemWaiter) :
    (m.setSem n ⟨o, l ++ [w]⟩).reg (Reg.SCH_SEM_WAITERS n) = 1 := by
  have hshown : (Reg.SCH_SEM_WAITERS n, b2n !(l ++ [w]).isEmpty) ∈ semValues n ⟨o, l ++ [w]⟩ := List.mem_cons_of_mem _ List.mem_cons_self
  have hsome : (l ++ [w]).isEmpty = false := by simp
  rw [m.reg_setSem n _ hshown, hsome]
  rfl

end

/-- A semaphore that its owner has released: its first waiter's, or nobody's. -/
def SemSt.released (x : SemSt) : SemSt := match x.waiters with
  | [] => ⟨none, []⟩
  | w :: t => ⟨some w.job, t⟩

theorem Mdl.grantNext_eq (m : Mdl) (n : Nat) : m.grantNext n = m.setSem n (m.sem n).released := by
  unfold Mdl.grantNext SemSt.released
  cases (m.sem n).waiters <;> rfl

@[simp] theorem Mdl.sem_setJob (m : Mdl) (j : Nat) (x : Option Job) (n : Nat) : (m.setJob j x).sem n = m.sem n := rfl

/-- What a job inherits is no part of a semaphore. -/
@[simp] theorem Mdl.sem_endInherit (m : Mdl) (j n : Nat) : (m.endInherit j).sem n = m.sem n := by
  unfold Mdl.endInherit
  split
  · rfl
  · split
    · exact Mdl.sem_setJob _ _ _ _
    · rfl

section
variable {m : Mdl} {d c k n j : Nat} (hj : (m.cluster d c).job = some j)
include hj

theorem Mdl.semAcquire_waits (hw : m.coreWaits d c k = true) : m.semAcquire d c k n = m := by
  simp only [Mdl.semAcquire, hj, hw, if_true]

theorem Mdl.semRelease_waits (hw : m.coreWaits d c k = true) : m.semRelease d c k n = m := by
  simp only [Mdl.semRelease, hj, hw, if_true]

variable (hw : m.coreWaits d c k = false)
include hw

theorem Mdl.semAcquire_unowned (ho : (m.sem n).owner = none) : m.semAcquire d c k n = m.setSem n ⟨some j, (m.sem n).waiters⟩ := by
  simp [Mdl.semAcquire, hj, hw, ho]

theorem Mdl.semAcquire_owned {o : Nat} (ho : (m.sem n).owner = some o) (hne : o ≠ j) :
    m.semAcquire d c k n = m.setSem n ⟨some o, (m.sem n).waiters ++ [⟨j, coreKey d c k⟩]⟩ := by
  simp [Mdl.semAcquire, hj, hw, ho, hne]

theorem Mdl.semAcquire_byOwner (ho : (m.sem n).owner = some j) : m.semAcquire d c k n = m.faultGlue d c .computeProgramFault 0x21 := by
  simp [Mdl.semAcquire, hj, hw, ho]

theorem Mdl.semRelease_byOther (ho : (m.sem n).owner ≠ some j) : m.semRelease d c k n = m.faultGlue d c .computeProgramFault 0x21 := by
  simp [Mdl.semRelease, hj, hw, ho]

theorem Mdl.semRelease_byOwner (ho : (m.sem n).owner = some j) :
    m.semRelease d c k n = (m.setSem n (m.sem n).released).endInherit j := by
  simp [Mdl.semRelease, hj, hw, ho, Mdl.grantNext_eq]

end

/-! ### Engine time (R408) -/

/-- Jobs, balances and times after `us` microseconds of engine time for job `j`. -/
def SchedSt.charged (y : SchedSt) (j : Nat) (x : Job) (us : Nat) : SchedSt :=
  { y with
    jobs := Table.set none y.jobs j (some { x with charged := x.charged + us })
    balances := Table.set 0 y.balances x.acct (Table.get 0 y.balances x.acct - 256 * us)
    times := Table.set 0 y.times x.acct ((Table.get 0 y.times x.acct + 256 * us) % 2 ^ 64) }

section
variable {m : Mdl} {d c : Nat}

theorem Mdl.charge_noJob (h : (m.cluster d c).job = none) (us : Nat) : m.charge d c us = m := by
  simp only [Mdl.charge, h]

variable {j : Nat} {x : Job} (hj : (m.cluster d c).job = some j) (hx : m.job j = some x) (us : Nat)
include hj hx

/-- A charge writes the scheduler's tables, and shows the count of jobs and the class's backlog. -/
theorem Mdl.charge_eq :
    m.charge d c us = { m with sch := m.sch.charged j x us, regs := (m.charge d c us).regs } := by
  have h : m.charge d c us = ({ m.setReg Reg.SCH_STATUS_JOBS (m.sch.charged j x us).jobs.length with sch := m.sch.charged j x us } : Mdl).showBacklog
      x.cls := by
    simp only [Mdl.charge, hj, hx]
    rfl
  rw [h, Mdl.showBacklog, Mdl.setRegs_eq]
  rfl

theorem Mdl.charge_sch : (m.charge d c us).sch = m.sch.charged j x us := by rw [Mdl.charge_eq hj hx us]

theorem Mdl.charge_mem : (m.charge d c us).mem = m.mem := by rw [Mdl.charge_eq hj hx us]

theorem Mdl.charge_cores : (m.charge d c us).cores = m.cores := by rw [Mdl.charge_eq hj hx us]

theorem Mdl.charge_clusters : (m.charge d c us).clusters = m.clusters := by rw [Mdl.charge_eq hj hx us]

theorem Mdl.balance_charge_same : (m.charge d c us).balance x.acct = m.balance x.acct - 256 * us := by
  rw [Mdl.balance, Mdl.charge_sch hj hx us, SchedSt.charged, Table.get_set_same, Mdl.balance]

theorem Mdl.times_charge_same :
    Table.get 0 (m.charge d c us).sch.times x.acct = (Table.get 0 m.sch.times x.acct + 256 * us) % 2 ^ 64 := by
  rw [Mdl.charge_sch hj hx us, SchedSt.charged, Table.get_set_same]

theorem Mdl.balance_charge_other {a : Nat} (ha : a ≠ x.acct) : (m.charge d c us).balance a = m.balance a := by
  rw [Mdl.balance, Mdl.charge_sch hj hx us, SchedSt.charged, Table.get_set_other _ _ _ ha, Mdl.balance]

theorem Mdl.times_charge_other {a : Nat} (ha : a ≠ x.acct) :
    Table.get 0 (m.charge d c us).sch.times a = Table.get 0 m.sch.times a := by
  rw [Mdl.charge_sch hj hx us, SchedSt.charged, Table.get_set_other _ _ _ ha]

theorem Mdl.job_charge_same : (m.charge d c us).job j = some { x with charged := x.charged + us } := by
  rw [Mdl.job, Mdl.charge_sch hj hx us, SchedSt.charged, Table.get_set_same]

theorem Mdl.job_charge_other {i : Nat} (hi : i ≠ j) : (m.charge d c us).job i = m.job i := by
  rw [Mdl.job, Mdl.charge_sch hj hx us, SchedSt.charged, Table.get_set_other _ _ _ hi, Mdl.job]

end

end Sys2Proof.Machine

section
open Sys2Proof Sys2Proof.Machine

/-- Settles O49: a cancel writes one mark of one entry (`Mdl.cancelSeq_marks`), and a resume writes FAILS, and STATE where the group is halted;
whether the group closes (R376, log entry 59) does not depend on FAILS (`Mdl.closing_setReg_fails`). -/
theorem cancelMarksAndResumeRuns : Obligations.CancelMarksAndResumeRuns := by
  intro m q hp hr
  refine ⟨fun i => ⟨fun hgone => ?ignored, fun hf hl => ?marked⟩, fun g => ?resumed⟩
  case ignored => exact next_onBus hp hr (Mdl.cancelSeq_ignored hgone)
  case marked =>
    exact ⟨m.setSeq i { m.seq i with cancel := true }, next_onBus hp hr (Mdl.cancelSeq_marks hf hl), m.seq_setSeq_same _ _,
      fun _ hne => m.seq_setSeq_other _ hne, rfl⟩
  case resumed =>
    exact ⟨m.resumeGroup g, next_onBus hp hr rfl, m.reg_resumeGroup_fails g, m.reg_resumeGroup_state g, m.resumeGroup_onlyRegs g⟩

/-- Settles O50: an acquire that is granted or that waits, and a release by the owner, each write one semaphore (`Mdl.setSem`); misuse is
`Mdl.faultGlue`. What the releasing job inherited is no part of a semaphore (`Mdl.sem_endInherit`). -/
theorem semaphoresGrantInRequestOrder : Obligations.SemaphoresGrantInRequestOrder := by
  intro m q d c k n j hp hj
  refine ⟨fun hw => ⟨?acquireWaits, ?releaseWaits⟩, fun hw => ⟨fun ho => ?unowned, fun o ho hne => ?owned, fun ho => ?acquireByOwner,
    fun ho => ?releaseByOther, fun ho => ?releaseByOwner⟩⟩
  case acquireWaits => exact next_whenOn hp (Mdl.semAcquire_waits hj hw)
  case releaseWaits => exact next_whenOn hp (Mdl.semRelease_waits hj hw)
  case unowned =>
    exact ⟨_, next_whenOn hp (Mdl.semAcquire_unowned hj hw ho), m.sem_setSem_same n _, m.reg_setSem_held n j _,
      fun _ hi => m.sem_setSem_other n _ hi, m.setSem_keepsRegs n _, m.setSem_eq n _⟩
  case owned =>
    exact ⟨_, next_whenOn hp (Mdl.semAcquire_owned hj hw ho hne), m.sem_setSem_same n _, m.reg_setSem_waiters n _ _ _,
      fun _ hi => m.sem_setSem_other n _ hi, m.setSem_eq n _⟩
  case acquireByOwner => exact next_whenOn hp (Mdl.semAcquire_byOwner hj hw ho)
  case releaseByOther => exact next_whenOn hp (Mdl.semRelease_byOther hj hw ho)
  case releaseByOwner =>
    refine ⟨_, next_whenOn hp (Mdl.semRelease_byOwner hj hw ho), ?_, fun i hi => ?_⟩
    · rw [Mdl.sem_endInherit, Mdl.sem_setSem_same]
      rfl
    · rw [Mdl.sem_endInherit, Mdl.sem_setSem_other m n _ hi]

/-- Settles O51: a charge writes the job, and the balance and the time of its account (`Mdl.charge_eq`). -/
theorem engineTimeIsCharged : Obligations.EngineTimeIsCharged := by
  intro m q d c us hp
  refine ⟨fun hnone => next_whenOn hp (Mdl.charge_noJob hnone us), fun j x hj hx => ?_⟩
  exact ⟨m.charge d c us, next_whenOn hp rfl, Mdl.balance_charge_same hj hx us, Mdl.times_charge_same hj hx us, Mdl.job_charge_same hj hx us,
    fun _ ha => ⟨Mdl.balance_charge_other hj hx us ha, Mdl.times_charge_other hj hx us ha⟩, fun _ hi => Mdl.job_charge_other hj hx us hi,
    Mdl.charge_mem hj hx us, Mdl.charge_cores hj hx us, Mdl.charge_clusters hj hx us⟩

/-- Settles O5: each command is its own operation, run with the module's power or as a register write. -/
theorem servingAndCatalogueCommandsComplete : Obligations.ServingAndCatalogueCommandsComplete := by
  intro m _
  refine ⟨fun hp => ?running, fun hp hr => ?ready⟩
  case running => and_intros <;> intros <;> exact next_whenOn hp rfl
  case ready => and_intros <;> intros <;> exact next_onBus hp hr rfl

end

/-! Proofs of the catalogue chapter: the catalogue command engine. -/
namespace Sys2Proof.Machine

/-- While a command runs, a write of CAT_CMD is refused before its operation is looked at (R428, Table 9-16 code 0xD). -/
theorem Mdl.catCommand_busy {m : Mdl} (h : m.reg Reg.CAT_CMD_STATUS_BUSY = 1) (op n acct : Nat) :
    m.catCommand op n acct = m.setReg Reg.CAT_CMD_STATUS_ERR 0x0D := by
  rw [Mdl.catCommand, if_pos ((m.flag_iff _).2 h)]

end Sys2Proof.Machine

section
open Sys2Proof Sys2Proof.Machine

/-- Settles O52: each of the five commands is a write of CAT_CMD, and a busy engine answers one by ERR alone (`Mdl.catCommand_busy`). -/
theorem busyCatalogueEngineRefuses : Obligations.BusyCatalogueEngineRefuses := by
  intro m q n acct hp hr hbusy c hc
  have hrefused : exec c ⟨m, q⟩ = .next ⟨m.setReg Reg.CAT_CMD_STATUS_ERR 0x0D, q⟩ := by
    obtain rfl | rfl | rfl | rfl | rfl := hc <;> exact next_onBus hp hr (Mdl.catCommand_busy hbusy _ n acct)
  exact ⟨_, hrefused, m.reg_setReg_same Reg.CAT_CMD_STATUS_ERR 0x0D, m.onlyRegs_setReg Reg.CAT_CMD_STATUS_ERR 0x0D⟩

end

/-! Proofs of the flash media chapter: the completion of the commands of dies, memory errors, scrubs and the translation layer. -/
section
open Sys2Proof Sys2Proof.Machine

/-- Settles O6: the work of dies, scrubs and stripes asks for the module's power alone (`next_whenOn`); SCB START and STOP, RAW_READ and
BRING_IN are register writes (`next_onBus`). -/
theorem mediaAndStripeCommandsComplete : Obligations.MediaAndStripeCommandsComplete := by
  intro m _
  refine ⟨fun hp => ?running, fun hp hr => ?ready⟩
  case running => and_intros <;> intros <;> exact next_whenOn hp rfl
  case ready => and_intros <;> intros <;> exact next_onBus hp hr rfl

end

/-! Proofs of the step, and of the host interface, span and start-up chapters: writes before ready, the attention button, links that are not
ACTIVE, the takeover by the standby, and the completion of the commands of the host, the links and the span. -/
namespace Sys2Proof.Machine

/-! ### How a command runs -/

/-- A command that a module without power answers to runs whatever its power. -/
theorem exec_always {c : Instr} (h : wakes c = true) : ∃ f : Mdl → Mdl, ∀ s : State, exec c s = .next (s.always f) := by
  cases c <;> cases h <;> exact ⟨_, fun _ => rfl⟩

/-- An operation that leaves the module as it is does so with and without power. -/
theorem next_unchanged {m : Mdl} {q : List Instr} {f : Mdl → Mdl} (e : f m = m) :
    (Host.Outcome.next (State.whenOn ⟨m, q⟩ f) : Host.Outcome State Fault Refusal) = .next ⟨m, q⟩ := by
  cases hp : m.powered with
  | true => exact next_whenOn hp e
  | false => exact congrArg _ (State.whenOn_off f hp)

/-! ### Register writes before the module is ready (R662, Table 14-2) -/

section
variable {s : Mdl} (h : s.stage < 2) {a : Nat} {wide : Bool} (ha : a ≠ Reg.SVC_RESET_KEY.addr)
  (hw : ¬ (wide = true ∧ a + 4 = Reg.SVC_RESET_KEY.addr)) (v : Nat)
include h ha hw

/-- Before ready a write that does not reach SVC_RESET is ignored. -/
theorem Mdl.busWrite_early : s.busWrite a wide v = s := by
  have hupper : ¬ (a + 4 = Reg.SVC_RESET_KEY.addr ∧ wide = true) := fun e => hw e.symm
  have hlower : ¬ (a = Reg.SVC_RESET_KEY.addr ∧ (!wide) = true) := fun e => ha e.1
  rw [Mdl.busWrite, if_pos h, if_neg hlower, if_neg hupper]
  exact ite_self s

theorem Mdl.shadowAccess_early : s.shadowAccess a wide v = s := by
  rw [Mdl.shadowAccess, Mdl.busWrite_early h ha hw v]
  exact ite_self s

theorem Mdl.coupledAccess_early : s.coupledAccess a wide v = s := by
  rw [Mdl.coupledAccess, Mdl.busWrite_early h ha hw v]
  exact ite_self s

end

/-! ### The attention button (R668) -/

theorem Mdl.attnRelease_short {m : Mdl} {ms : Nat} (h : ms < 2000) :
    m.attnRelease ms = m.setReg Reg.SVC_CTRL_LOCATE (1 - m.reg Reg.SVC_CTRL_LOCATE) := if_pos h

theorem Mdl.attnRelease_long {m : Mdl} {ms : Nat} (h : 2000 ≤ ms) : m.attnRelease ms = m := if_neg (Nat.not_lt.2 h)

/-! ### Links that are not ACTIVE (R615, Table 13-2) -/

section
variable {m : Mdl} {n : Nat}

theorem Mdl.linkActive_iff : m.linkActive n = true ↔ m.reg (Reg.SPN_LINK_STATE n) = 3 := beq_iff_eq

variable (h : m.linkActive n = false)
include h

theorem Mdl.deliver_inactive (x : LMsg) (t ns : Nat) : m.deliver n x t ns = m := by simp only [Mdl.deliver, h, Bool.not_false, if_true]

theorem Mdl.answerIn_inactive (x : LMsg) : m.answerIn n x = m := by simp only [Mdl.answerIn, h, Bool.false_eq_true, if_false]

theorem Mdl.flitIn_inactive (f : Flit) (t ns : Nat) : m.flitIn n f t ns = m := by simp only [Mdl.flitIn, h, Bool.false_eq_true, if_false]

theorem Mdl.nakReceive_inactive (ack : Nat) : m.nakReceive n ack = m := by simp only [Mdl.nakReceive, h, Bool.not_false, if_true]

theorem Mdl.probeSend_inactive (t : Nat) : m.probeSend n t = m := by simp only [Mdl.probeSend, h, Bool.false_eq_true, if_false]

theorem Mdl.ackTimer_inactive : m.ackTimer n = m := by simp only [Mdl.ackTimer, h, Bool.not_false, if_true]

theorem Mdl.transitIn_inactive (src : Nat) (x : TransitMsg) (t : Nat) : m.transitIn n src x t = m := by
  simp only [Mdl.transitIn, h, Bool.not_false, Bool.true_or, if_true]

end

theorem Mdl.linkTrainTimeout_due {m : Mdl} {n : Nat} (h : m.reg (Reg.SPN_LINK_STATE n) = 2) :
    m.linkTrainTimeout n = m.setReg (Reg.SPN_LINK_STATE n) 1 := if_pos h

/-! ### What sending on links changes (R618 to R620, R629) -/

/-- The span's state, the answers, and of the register fields SPN_LINK_FLITS_TX alone may differ. -/
def Mdl.sendsOnly (m t : Mdl) : Prop :=
  (∀ f : Fld, (∀ n, f.key ≠ (Reg.SPN_LINK_FLITS_TX n).key) → t.reg f = m.reg f) ∧ t = { m with regs := t.regs, spn := t.spn, out := t.out }

theorem Mdl.sendsOnly_refl (m : Mdl) : m.sendsOnly m := ⟨fun _ _ => rfl, rfl⟩

theorem Mdl.sendsOnly.trans {m t u : Mdl} (h : m.sendsOnly t) (h' : t.sendsOnly u) : m.sendsOnly u := by
  obtain ⟨ht, et⟩ := h
  obtain ⟨hu, eu⟩ := h'
  exact ⟨fun f hf => (hu f hf).trans (ht f hf),
    eu.trans (congrArg (fun x : Mdl => { x with regs := u.regs, spn := u.spn, out := u.out }) et)⟩

theorem Mdl.setLink_sendsOnly (m : Mdl) (n : Nat) (l : LinkSt) : m.sendsOnly (m.setLink n l) := ⟨fun _ _ => rfl, rfl⟩

theorem Mdl.emit_sendsOnly (m : Mdl) (o : Out) : m.sendsOnly (m.emit o) := ⟨fun _ _ => rfl, rfl⟩

theorem Mdl.countFlits_sendsOnly (m : Mdl) (n k : Nat) : m.sendsOnly (m.count (Reg.SPN_LINK_FLITS_TX n) k) :=
  ⟨fun _ hf => Mdl.reg_setReg_other m _ (hf n), rfl⟩

theorem Mdl.sendFlits_sendsOnly (m : Mdl) (n : Nat) (h : HeldMsg) : m.sendsOnly (m.sendFlits n h).1 := by
  unfold Mdl.sendFlits
  extract_lets l free k credits flits s t
  have hcount : m.sendsOnly t := (m.setLink_sendsOnly n _).trans (s.countFlits_sendsOnly n k)
  split
  · exact m.sendsOnly_refl
  · split
    · exact hcount.trans (t.emit_sendsOnly _)
    · exact hcount

theorem Mdl.sendChannel_sendsOnly (n : Nat) (l : List HeldMsg) : ∀ m : Mdl, m.sendsOnly (m.sendChannel n l).1 := by
  induction l with
  | nil => exact Mdl.sendsOnly_refl
  | cons h t ih =>
    intro m
    have hsent := m.sendFlits_sendsOnly n h
    rw [Mdl.sendChannel]
    split
    case h_1 s e =>
      rw [e] at hsent
      exact hsent.trans (ih s)
    case h_2 s x e =>
      rw [e] at hsent
      exact hsent

theorem Mdl.releaseHeld_sendsOnly (m : Mdl) (n : Nat) : m.sendsOnly (m.releaseHeld n) := by
  unfold Mdl.releaseHeld
  extract_lets held r
  have hr : m.sendsOnly r.1 := List.foldlRecOn (motive := fun x : Mdl × List HeldMsg => m.sendsOnly x.1) vcRanks _ m.sendsOnly_refl
    fun x hx vc _ => hx.trans (Mdl.sendChannel_sendsOnly n _ x.1)
  exact hr.trans (r.1.setLink_sendsOnly n _)

theorem Mdl.sendOn_sendsOnly (m : Mdl) (n : Nat) (x : LMsg) : m.sendsOnly (m.sendOn n x) :=
  (m.setLink_sendsOnly n _).trans (Mdl.releaseHeld_sendsOnly _ n)

theorem Mdl.broadcast_sendsOnly (m : Mdl) (op b8 b10 b12 : Nat) : m.sendsOnly (m.broadcast op b8 b10 b12) := by
  unfold Mdl.broadcast
  extract_lets q v s d x
  have hs : m.sendsOnly s := ⟨fun _ _ => rfl, rfl⟩
  exact List.foldlRecOn (s.fwdLinks none) _ hs fun t ht n _ => ht.trans (t.sendOn_sendsOnly n x)

/-! ### The standby takes over (R644) -/

/-- The fields that a takeover sets. -/
def Mdl.takeoverFields (m : Mdl) : List (Fld × Nat) := [(Reg.SPN_STATUS_TERM, m.reg Reg.SPN_STATUS_TERM + 1),
  (Reg.SPN_STATUS_MASTER, m.myModule), (Reg.SPN_STATUS_ROLE_NOW, 2), (Reg.SPN_STATUS_STATE, 2)]

theorem Mdl.takeoverFields_nodup (m : Mdl) : (m.takeoverFields.map fun p => p.1.key).Nodup := by
  exact (by decide : [Reg.SPN_STATUS_TERM.key, Reg.SPN_STATUS_MASTER.key, Reg.SPN_STATUS_ROLE_NOW.key, Reg.SPN_STATUS_STATE.key].Nodup)

theorem Mdl.takeOver_refused {m : Mdl} (h : m.reg Reg.SPN_STATUS_ROLE_NOW ≠ 3) : m.takeOver = m := if_pos h

/-- A change of the directory, announced on the links: MEMBERS may change too. -/
theorem Mdl.announced_spec (x : Mdl) (v : SpanSt) (n : Nat) (e : DirEntry) (op b8 b10 b12 : Nat) :
    let t := (Mdl.setDirEntry { x with spn := v } n e).broadcast op b8 b10 b12
    (∀ f : Fld, f.key ≠ Reg.SPN_STATUS_MEMBERS.key → (∀ k, f.key ≠ (Reg.SPN_LINK_FLITS_TX k).key) → t.reg f = x.reg f) ∧
      t = { x with regs := t.regs, spn := t.spn, out := t.out } := by
  obtain ⟨hsent, hframe⟩ := Mdl.broadcast_sendsOnly (Mdl.setDirEntry { x with spn := v } n e) op b8 b10 b12
  exact ⟨fun f hm hf => (hsent f hf).trans (Mdl.reg_setReg_other _ _ hm), hframe⟩

/-- A takeover sets its fields and what the span's state keeps of it, enters itself in the directory, and announces itself. -/
theorem Mdl.takeOver_standby {m : Mdl} (h : m.reg Reg.SPN_STATUS_ROLE_NOW = 3) : ∃ (v : SpanSt) (n : Nat) (e : DirEntry) (b8 b10 : Nat),
    m.takeOver = (Mdl.setDirEntry { m.setRegs m.takeoverFields with spn := v } n e).broadcast 0x04 b8 b10 0 := by
  rw [Mdl.takeOver, if_neg (not_not.2 h)]
  exact ⟨_, _, _, _, _, rfl⟩

theorem Mdl.takeoverFields_key (m : Mdl) :
    ∀ p ∈ m.takeoverFields, p.1.key ≠ Reg.SPN_STATUS_MEMBERS.key ∧ ∀ n, p.1.key ≠ (Reg.SPN_LINK_FLITS_TX n).key := by
  simp only [Mdl.takeoverFields, List.forall_mem_cons, Fld.key, Reg.SPN_STATUS_TERM, Reg.SPN_STATUS_MASTER, Reg.SPN_STATUS_ROLE_NOW,
    Reg.SPN_STATUS_STATE, Reg.SPN_STATUS_MEMBERS, Reg.SPN_LINK_FLITS_TX]
  refine ⟨⟨by decide, ?_⟩, ⟨by decide, ?_⟩, ⟨by decide, ?_⟩, ⟨by decide, ?_⟩, by simp⟩ <;> intro n <;> omega

/-- What a takeover leaves of its fields, and what else it leaves alone. -/
theorem Mdl.takeOver_standby_spec {m : Mdl} (h : m.reg Reg.SPN_STATUS_ROLE_NOW = 3) :
    (∀ p ∈ m.takeoverFields, m.takeOver.reg p.1 = p.2 % 2 ^ p.1.width) ∧ m.takeOver.epoch = m.epoch ∧
      m.takeOver = { m with regs := m.takeOver.regs, spn := m.takeOver.spn, out := m.takeOver.out } := by
  obtain ⟨v, n, e, b8, b10, htake⟩ := Mdl.takeOver_standby h
  obtain ⟨hkept, hframe⟩ := (m.setRegs m.takeoverFields).announced_spec v n e 0x04 b8 b10 0
  rw [← htake] at hkept hframe
  obtain ⟨hset, hother⟩ := m.onlyRegs_setRegs m.takeoverFields
  refine ⟨fun p hp => ?set, ?epoch, ?frame⟩
  case set =>
    obtain ⟨hm, hf⟩ := m.takeoverFields_key p hp
    exact (hkept p.1 hm hf).trans (Mdl.reg_setRegs_mem m.takeoverFields m m.takeoverFields_nodup hp)
  case epoch =>
    refine (hkept Reg.TRN_EPOCH_EPOCH (by decide) fun k => ?_).trans (hother Reg.TRN_EPOCH_EPOCH ?_)
    · simp only [Fld.key, Reg.TRN_EPOCH_EPOCH, Reg.SPN_LINK_FLITS_TX]
      omega
    · simp only [Mdl.takeoverFields, List.map_cons, List.map_nil]
      decide
  case frame =>
    exact hframe.trans (congrArg (fun x : Mdl => { x with regs := m.takeOver.regs, spn := m.takeOver.spn, out := m.takeOver.out }) hset)

end Sys2Proof.Machine

section
open Sys2Proof Sys2Proof.Machine

/-- Settles O59: a module that is not the standby meets the first test; what a takeover sets and leaves is `Mdl.takeOver_standby_spec`. -/
theorem standbyTakesTheSpanOver : Obligations.StandbyTakesTheSpanOver := by
  intro m q hp hr
  refine ⟨fun hrole => next_onBus hp hr (Mdl.takeOver_refused hrole), fun hrole => ⟨m.takeOver, next_onBus hp hr rfl, ?_⟩⟩
  obtain ⟨hset, hepoch, hframe⟩ := Mdl.takeOver_standby_spec hrole
  simp only [Mdl.takeoverFields, List.forall_mem_cons] at hset
  obtain ⟨hterm, hmaster, hrole', hstate, -⟩ := hset
  refine ⟨hrole', hterm, hmaster, hstate, hepoch, ?_, ?_, ?_, ?_⟩ <;> rw [hframe]

/-- Settles O58: every operation of a message, a flit, a probe or an acknowledgement first asks whether its link is ACTIVE. -/
theorem onlyActiveLinksCarryMessages : Obligations.OnlyActiveLinksCarryMessages := by
  intro m q n hp
  refine ⟨fun hstate => ?inactive, fun hstate => ?timeout⟩
  case inactive =>
    have h : m.linkActive n = false := Bool.eq_false_iff.2 (mt Mdl.linkActive_iff.1 hstate)
    refine ⟨fun c hc => ?flits, fun x c hc => ?messages⟩
    case flits =>
      obtain ⟨f, t, ns, rfl⟩ | ⟨a, rfl⟩ | ⟨t, rfl⟩ | rfl | ⟨s, x, t, rfl⟩ | ⟨x, t, rfl⟩ | ⟨x, ns, rfl⟩ := hc
      · exact next_whenOn hp (Mdl.flitIn_inactive h f t ns)
      · exact next_whenOn hp (Mdl.nakReceive_inactive h a)
      · exact next_whenOn hp (Mdl.probeSend_inactive h t)
      · exact next_whenOn hp (Mdl.ackTimer_inactive h)
      · exact next_whenOn hp (Mdl.transitIn_inactive h s x t)
      · exact next_whenOn hp (Mdl.deliver_inactive h _ t 0)
      · exact next_whenOn hp (Mdl.deliver_inactive h _ 0 ns)
    case messages =>
      obtain rfl | rfl | rfl | rfl | rfl | rfl | rfl | rfl | rfl | rfl | rfl | rfl | rfl | rfl | rfl | rfl | rfl | rfl | rfl | rfl | rfl |
        rfl | rfl | rfl | rfl | rfl | rfl | rfl | rfl | rfl | rfl := hc
      -- RDATA and PEER_STATE arrive by `Mdl.answerIn`, every other message by `Mdl.deliver`.
      all_goals
        refine next_whenOn hp ?_
        simp only [Mdl.deliver_inactive h, Mdl.answerIn_inactive h]
  case timeout =>
    exact ⟨_, next_whenOn hp (Mdl.linkTrainTimeout_due hstate), Mdl.reg_setReg_same _ _ _, m.onlyRegs_setReg _ _⟩

/-- Settles O15: each of these commands runs on the bus (`exec_onBus`), which is closed before ready, or is a write of an address that the bus
does not take before ready. -/
theorem writesAreIgnoredUntilReady : Obligations.WritesAreIgnoredUntilReady := by
  intro m q h
  refine ⟨fun c hc => ?ownRow, fun a wide v ha hw => ⟨?plain, ?shadow, ?coupled⟩⟩
  case ownRow =>
    obtain ⟨f, hf⟩ := exec_onBus hc
    rw [hf, State.onBus_early (q := ⟨m, q⟩) f h]
  case plain => exact next_unchanged (Mdl.busWrite_early h ha hw v)
  case shadow => exact next_unchanged (Mdl.shadowAccess_early h ha hw v)
  case coupled => exact next_unchanged (Mdl.coupledAccess_early h ha hw v)

/-- Settles O19: `Mdl.attnRelease` is one test of the press's length, and LOCATE is one bit. -/
theorem shortPressTogglesLocate : Obligations.ShortPressTogglesLocate := by
  intro m q ms hp
  refine ⟨fun h => next_whenOn hp (Mdl.attnRelease_long h),
    fun h => ⟨_, next_whenOn hp (Mdl.attnRelease_short h), m.onlyRegs_setReg _ _, fun hoff => ?_, fun hon => ?_⟩⟩
  · rw [Mdl.reg_setReg_same, hoff]
    rfl
  · rw [Mdl.reg_setReg_same, hon]
    rfl

/-- Settles O14: the reset state has not started, is in stage 0, and no command waits. -/
theorem resetIsWithoutPower : Obligations.ResetIsWithoutPower := ⟨rfl, by decide, by decide, fun _ h => absurd h List.not_mem_nil⟩

/-- Settles O9: `step` takes the command in front; on an empty queue it is `Mdl.tick`, with the module's power. -/
theorem stepRunsTheCommandInFront : Obligations.StepRunsTheCommandInFront := fun m =>
  ⟨fun _ _ => rfl, fun hp => next_whenOn hp rfl, fun hp => step_off_empty (s := ⟨m, []⟩) hp rfl⟩

/-- Settles O10: a command runs whatever the power, on the bus, or with the module's power, and each of the three keeps the queue (that no
meaning stops is log entry 51). -/
theorem everyCommandAnswersANextState : Obligations.EveryCommandAnswersANextState := by
  intro c m q
  cases hw : wakes c with
  | true =>
    obtain ⟨f, hf⟩ := exec_always hw
    exact ⟨f m, hf ⟨m, q⟩⟩
  | false =>
    cases hb : isBusWrite c with
    | true =>
      obtain ⟨f, hf⟩ := exec_onBus hb
      exact ⟨m.onBus f, hf ⟨m, q⟩⟩
    | false =>
      obtain ⟨f, hf⟩ := exec_whenOn hw hb
      exact ⟨m.whenOn f, hf ⟨m, q⟩⟩

/-- Settles O7: the host's and the links' commands ask for the module's power (`next_whenOn`); the management endpoint answers whatever the power
(`next_always`). -/
theorem nvmeAndAccessCommandsComplete : Obligations.NvmeAndAccessCommandsComplete := by
  intro m _
  refine ⟨fun hp => ?running, ?always⟩
  case running => and_intros <;> intros <;> exact next_whenOn hp rfl
  case always => and_intros <;> intros <;> exact next_always m _ _

/-- Settles O8: links, messages and the partner's commands ask for the module's power alone (`next_whenOn`); TAKEOVER and the four twin commands
are register writes (`next_onBus`). -/
theorem linkAndSpanCommandsComplete : Obligations.LinkAndSpanCommandsComplete := by
  intro m _
  refine ⟨fun hp => ?running, fun hp hr => ?ready⟩
  case running => and_intros <;> intros <;> exact next_whenOn hp rfl
  case ready => and_intros <;> exact next_onBus hp hr rfl

end

/-! Proofs of the twin's commands, power domains, load switches and refurbishment (R651, R687, R694, R704, R705). -/
namespace Sys2Proof.Machine

/-- Each field of a list of writes to different fields reads as set, cut to its width. -/
theorem Mdl.reg_setRegs_each (m : Mdl) {l : List (Fld × Nat)} (hn : (l.map fun p => p.1.key).Nodup) :
    ∀ p ∈ l, (m.setRegs l).reg p.1 = p.2 % 2 ^ p.1.width := fun _ hp => Mdl.reg_setRegs_mem l m hn hp

/-! ### Twin commands (Tables 13-11, 13-24) -/

/-- The tests that every twin command begins with; `noRow` says that the twin table has no row for it, `t` is what it does else. -/
def Mdl.twinTested (s : Mdl) (noRow : Prop) [Decidable noRow] (t : Mdl) : Mdl :=
  if s.flag Reg.TWN_CMD_STATUS_BUSY then s else if !s.spanCfg.twin then s.twinCmdEnd 3 else if noRow then s.twinCmdEnd 1 else t

theorem Mdl.twinDetach_tested (s : Mdl) : ∃ t, s.twinDetach = s.twinTested (s.twinState ≠ 4) t := ⟨_, rfl⟩

theorem Mdl.rejoin_tested (s : Mdl) : ∃ t, s.rejoin = s.twinTested (s.twinState ≠ 6) t := ⟨_, rfl⟩

theorem Mdl.forceSolo_tested (s : Mdl) : ∃ t, s.forceSolo = s.twinTested (s.twinState ≠ 1 ∧ s.twinState ≠ 2) t := ⟨_, rfl⟩

theorem Mdl.pick_tested (s : Mdl) : ∃ t, s.pick = s.twinTested (s.twinState ≠ 7) t := ⟨_, rfl⟩

section
variable {s : Mdl} {noRow : Prop} [Decidable noRow] (t : Mdl)

theorem Mdl.twinTested_busy (h : s.reg Reg.TWN_CMD_STATUS_BUSY = 1) : s.twinTested noRow t = s := if_pos ((s.flag_iff _).2 h)

variable (h : s.reg Reg.TWN_CMD_STATUS_BUSY ≠ 1)
include h

theorem Mdl.twinTested_solo (htwin : s.spanCfg.twin = false) : s.twinTested noRow t = s.twinCmdEnd 3 := by
  rw [Mdl.twinTested, if_neg (mt (s.flag_iff _).1 h), htwin]
  rfl

theorem Mdl.twinTested_noRow (htwin : s.spanCfg.twin = true) (hrow : noRow) : s.twinTested noRow t = s.twinCmdEnd 1 := by
  rw [Mdl.twinTested, if_neg (mt (s.flag_iff _).1 h), htwin, if_pos hrow]
  rfl

end

/-- The four twin commands are register writes, each with the tests. -/
theorem exec_twinCommand {c : Instr} (hc : c = .twinDetach ∨ c = .rejoin ∨ c = .forceSolo ∨ c = .pick) (m : Mdl) :
    ∃ (f : Mdl → Mdl) (noRow : Prop) (_ : Decidable noRow) (t : Mdl),
      (∀ q, exec c ⟨m, q⟩ = .next (State.onBus ⟨m, q⟩ f)) ∧ f m = m.twinTested noRow t := by
  obtain rfl | rfl | rfl | rfl := hc
  · exact ⟨_, _, _, _, fun _ => rfl, m.twinDetach_tested.choose_spec⟩
  · exact ⟨_, _, _, _, fun _ => rfl, m.rejoin_tested.choose_spec⟩
  · exact ⟨_, _, _, _, fun _ => rfl, m.forceSolo_tested.choose_spec⟩
  · exact ⟨_, _, _, _, fun _ => rfl, m.pick_tested.choose_spec⟩

/-- A twin command that ends shows its error and DONE. -/
theorem Mdl.twinCmdEnd_shows (m : Mdl) {e : Nat} (he : e < 2 ^ 4) :
    (m.twinCmdEnd e).reg Reg.TWN_CMD_STATUS_ERR = e ∧ (m.twinCmdEnd e).reg Reg.TWN_CMD_STATUS_DONE = 1 ∧
      m.onlyRegs (m.twinCmdEnd e) [Reg.TWN_CMD_STATUS_BUSY, Reg.TWN_CMD_STATUS_DONE, Reg.TWN_CMD_STATUS_ERR] := by
  have hn : [Reg.TWN_CMD_STATUS_BUSY.key, Reg.TWN_CMD_STATUS_DONE.key, Reg.TWN_CMD_STATUS_ERR.key].Nodup := by decide
  have hval := m.reg_setRegs_each (l := [(Reg.TWN_CMD_STATUS_BUSY, 0), (Reg.TWN_CMD_STATUS_DONE, 1), (Reg.TWN_CMD_STATUS_ERR, e)]) hn
  simp only [List.forall_mem_cons] at hval
  obtain ⟨-, hdone, herr, -⟩ := hval
  exact ⟨herr.trans (Nat.mod_eq_of_lt he), hdone, m.twinCmdEnd_onlyRegs e⟩

/-! ### Power domains (R687, R718) -/

/-- Error 5: no request switches the domain, or the request is to power a retired die. -/
theorem Mdl.domainErr_unswitchable {m : Mdl} {n : Nat} {on : Bool}
    (h : 30 ≤ n ∨ n = 24 ∨ n = 25 ∨ n = 28 ∨ n = 29 ∨ (on = true ∧ n < 24 ∧ m.svc.retiredDie (n / 6) = true)) :
    m.domainErr n on = 5 := by
  by_cases hfixed : 30 ≤ n ∨ n = 24 ∨ n = 25 ∨ n = 28 ∨ n = 29
  · exact if_pos hfixed
  · have hretired : on = true ∧ n < 24 ∧ m.svc.retiredDie (n / 6) = true := by
      simp only [← or_assoc] at h hfixed
      exact h.resolve_left hfixed
    rw [Mdl.domainErr, if_neg hfixed]
    exact if_pos hretired

/-- Error 6: the domain's switching is under way. -/
theorem Mdl.domainErr_busy {m : Mdl} {n : Nat} {on : Bool} (hn : n < 24 ∨ n = 26 ∨ n = 27)
    (h : ¬ (on = true ∧ n < 24 ∧ m.svc.retiredDie (n / 6) = true)) (hb : ∃ b ∈ m.svc.busy, b.1 = n) : m.domainErr n on = 6 := by
  have hfixed : ¬ (30 ≤ n ∨ n = 24 ∨ n = 25 ∨ n = 28 ∨ n = 29) := by omega
  have hbusy : (m.svc.busy.any fun b => b.1 == n) = true := by simpa using hb
  rw [Mdl.domainErr, if_neg hfixed, if_neg h]
  exact if_pos hbusy

/-- The error code is none of the domains. -/
theorem Mdl.domainOn_showErr (m : Mdl) (e n : Nat) : (m.setReg Reg.PWR_DOMAIN_STATUS_ERR e).domainOn n = m.domainOn n :=
  congrArg (bit · n) (Mdl.reg_setReg_other m e (by decide))

/-- A request that is refused, or that asks for the state the domain has, shows its error code alone. -/
theorem Mdl.domainReq_shown {m : Mdl} {n e : Nat} {on : Bool} (he : m.domainErr n on = e) (h : e ≠ 0 ∨ m.domainOn n = on) :
    m.domainReq n on = m.setReg Reg.PWR_DOMAIN_STATUS_ERR e := by
  rw [Mdl.domainReq, he]
  refine if_pos ?_
  rw [Mdl.domainOn_showErr]
  exact h.imp_right beq_iff_eq.2

/-- Any other request makes the domain busy besides. -/
theorem Mdl.domainReq_accepted {m : Mdl} {n : Nat} {on : Bool} (h : m.domainErr n on = 0) (hne : m.domainOn n ≠ on) :
    m.domainReq n on = { m.setReg Reg.PWR_DOMAIN_STATUS_ERR 0 with svc := { m.svc with busy := m.svc.busy ++ [(n, on)] } } := by
  rw [Mdl.domainReq, h]
  refine if_neg ?_
  rw [Mdl.domainOn_showErr]
  exact not_or.2 ⟨not_not.2 rfl, mt beq_iff_eq.1 hne⟩

theorem Mdl.domainReq_keepsRegs (m : Mdl) (n : Nat) (on : Bool) : m.keepsRegs (m.domainReq n on) [Reg.PWR_DOMAIN_STATUS_ERR] := by
  obtain ⟨-, hkeep⟩ := m.onlyRegs_setReg Reg.PWR_DOMAIN_STATUS_ERR (m.domainErr n on)
  by_cases h : m.domainErr n on ≠ 0 ∨ m.domainOn n = on
  · rw [Mdl.domainReq_shown rfl h]
    exact hkeep
  · obtain ⟨he, hne⟩ := not_or.1 h
    have he := not_not.1 he
    rw [Mdl.domainReq_accepted he hne]
    rw [he] at hkeep
    exact hkeep

/-! ### Load switches (R694) -/

section
variable {m : Mdl} {slot : Nat}

theorem Mdl.slotPower_empty (h : 9 ≤ slot ∨ m.reg (Reg.MED_SLOT_STATUS_PRESENT slot) ≠ 1) (on : Bool) :
    m.slotPower slot on = m.setReg Reg.PWR_DOMAIN_STATUS_SLOT_ERR 2 :=
  if_pos (h.imp_right (mt (m.flag_iff _).1))

variable (hs : slot < 9) (hp : m.reg (Reg.MED_SLOT_STATUS_PRESENT slot) = 1)
include hs hp

/-- A slot that holds a cartridge meets neither half of the first test. -/
theorem Mdl.slot_occupied : ¬ (9 ≤ slot ∨ ¬ m.flag (Reg.MED_SLOT_STATUS_PRESENT slot) = true) :=
  not_or.2 ⟨Nat.not_le.2 hs, not_not.2 ((m.flag_iff _).2 hp)⟩

theorem Mdl.slotPower_on : m.slotPower slot true = m.setRegs [(Reg.MED_SLOT_STATUS_POWERED slot, 1), (Reg.PWR_DOMAIN_STATUS_SLOT_ERR, 0)] :=
  if_neg (Mdl.slot_occupied hs hp)

theorem Mdl.slotPower_active (hr : m.reg (Reg.MED_SLOT_STATUS_ROLE slot) = 1) :
    m.slotPower slot false = m.setReg Reg.PWR_DOMAIN_STATUS_SLOT_ERR 1 :=
  (if_neg (Mdl.slot_occupied hs hp)).trans (if_pos hr)

/-- A parked spare that is switched off is recorded, and is a spare no more. -/
theorem Mdl.slotPower_spare (hr : m.reg (Reg.MED_SLOT_STATUS_ROLE slot) = 2) : m.slotPower slot false =
    ((m.cartRecord slot 4 0).setReg (Reg.MED_SLOT_STATUS_ROLE slot) 0).setRegs
      [(Reg.MED_SLOT_STATUS_POWERED slot, 0), (Reg.PWR_DOMAIN_STATUS_SLOT_ERR, 0)] := by
  rw [Mdl.slotPower, if_neg (Mdl.slot_occupied hs hp), hr]
  rfl

theorem Mdl.slotPower_idle (hr : m.reg (Reg.MED_SLOT_STATUS_ROLE slot) ≠ 1) (hr2 : m.reg (Reg.MED_SLOT_STATUS_ROLE slot) ≠ 2) :
    m.slotPower slot false = m.setRegs [(Reg.MED_SLOT_STATUS_POWERED slot, 0), (Reg.PWR_DOMAIN_STATUS_SLOT_ERR, 0)] := by
  simp only [Mdl.slotPower, if_neg (Mdl.slot_occupied hs hp), if_neg hr, if_neg hr2, Bool.false_eq_true, if_false]
  rfl

end

/-- The role, the switch and the error code are three fields. -/
theorem slotFields_nodup {slot : Nat} (hs : slot < 9) :
    [(Reg.MED_SLOT_STATUS_ROLE slot).key, (Reg.MED_SLOT_STATUS_POWERED slot).key, Reg.PWR_DOMAIN_STATUS_SLOT_ERR.key].Nodup := by
  simp [Fld.key, Reg.MED_SLOT_STATUS_ROLE, Reg.MED_SLOT_STATUS_POWERED, Reg.PWR_DOMAIN_STATUS_SLOT_ERR]
  omega

/-- A switch and its error code, as set. -/
theorem Mdl.slotSwitched_spec (m : Mdl) {slot : Nat} (hs : slot < 9) (v : Nat) :
    let t := m.setRegs [(Reg.MED_SLOT_STATUS_POWERED slot, v), (Reg.PWR_DOMAIN_STATUS_SLOT_ERR, 0)]
    t.reg (Reg.MED_SLOT_STATUS_POWERED slot) = v % 2 ∧ t.reg Reg.PWR_DOMAIN_STATUS_SLOT_ERR = 0 ∧
      m.onlyRegs t [Reg.MED_SLOT_STATUS_POWERED slot, Reg.PWR_DOMAIN_STATUS_SLOT_ERR] ∧
      t.reg (Reg.MED_SLOT_STATUS_ROLE slot) = m.reg (Reg.MED_SLOT_STATUS_ROLE slot) := by
  obtain ⟨hrole, hn⟩ := List.nodup_cons.1 (slotFields_nodup hs)
  have hval := m.reg_setRegs_each (l := [(Reg.MED_SLOT_STATUS_POWERED slot, v), (Reg.PWR_DOMAIN_STATUS_SLOT_ERR, 0)]) hn
  simp only [List.forall_mem_cons] at hval
  obtain ⟨hpowered, herr, -⟩ := hval
  have honly := m.onlyRegs_setRegs [(Reg.MED_SLOT_STATUS_POWERED slot, v), (Reg.PWR_DOMAIN_STATUS_SLOT_ERR, 0)]
  exact ⟨hpowered, herr, honly, honly.2 _ fun f hf e => hrole (List.mem_map.2 ⟨f, hf, e.symm⟩)⟩

/-- A CARTRIDGE record is one of the log book, and changes the service state alone. -/
theorem Mdl.cartRecord_eq (m : Mdl) (slot what role : Nat) : m.cartRecord slot what role = { m with svc := (m.cartRecord slot what role).svc } := rfl

theorem Mdl.cartRecord_kind (m : Mdl) (slot what role : Nat) : (m.cartRecord slot what role).svc.logBook.head?.map (·.kind) = some 0x0A := rfl

/-! ### Refurbishment (R704 to R706) -/

/-- One of R704's conditions is not met. -/
def Mdl.refurbUnmet (m : Mdl) : Prop :=
  m.cht.opt.ownerState ≠ 0 ∨ (m.reg Reg.TWN_STATUS_STATE ≠ 0 ∧ m.reg Reg.TWN_STATUS_STATE ≠ 6) ∨
    (∃ p ∈ m.sch.jobs, p.2 ≠ none) ∨ ∃ p ∈ m.cats, p.2.state ≠ .detached

/-- The test that BEGIN makes of them. -/
theorem Mdl.refurbUnmet_iff (m : Mdl) : (m.cht.opt.ownerState ≠ 0 ∨ ¬ (m.twinState = 0 ∨ m.twinState = 6) ∨ ¬ m.jobList.isEmpty ∨
    (m.cats.any fun c => c.2.state != .detached)) ↔ m.refurbUnmet := by
  have hjobs : m.jobList.isEmpty = true ↔ ¬ ∃ p ∈ m.sch.jobs, p.2 ≠ none := by
    simp [Mdl.jobList, List.isEmpty_iff, List.filterMap_eq_nil_iff]
  have hcats : (m.cats.any fun c => c.2.state != .detached) = true ↔ ∃ p ∈ m.cats, p.2.state ≠ .detached := by
    simp only [List.any_eq_true, bne_iff_ne]
  rw [not_or, hjobs, not_not, hcats]
  rfl

/-- The fields that an accepted BEGIN sets. -/
def refurbStart : List (Fld × Nat) :=
  [(Reg.SVC_REFURB_ACTIVE, 1), (Reg.SVC_REFURB_ERR, 0), (Reg.SVC_REFURB_CLEARED, 0), (Reg.SVC_STATUS_STAGE, 6)]

theorem Mdl.refurbErr_spec (m : Mdl) {e : Nat} (he : e < 2 ^ 4) :
    (m.refurbErr e).reg Reg.SVC_REFURB_ERR = e ∧ m.onlyRegs (m.refurbErr e) [Reg.SVC_REFURB_ERR] :=
  ⟨(m.reg_setReg_same Reg.SVC_REFURB_ERR e).trans (Nat.mod_eq_of_lt he), m.onlyRegs_setReg _ _⟩

section
variable {m : Mdl}

theorem Mdl.flag_eq_false {f : Fld} (h : m.reg f ≠ 1) : m.flag f = false := Bool.eq_false_iff.2 (mt (m.flag_iff f).1 h)

theorem Mdl.refurbBegin_active (h : m.reg Reg.SVC_REFURB_ACTIVE = 1) : m.refurbBegin = m.refurbErr 3 := if_pos ((m.flag_iff _).2 h)

theorem Mdl.retest_inactive (h : m.reg Reg.SVC_REFURB_ACTIVE ≠ 1) : m.retest = m.refurbErr 2 := by
  simp only [Mdl.retest, Mdl.flag_eq_false h, Bool.not_false, if_true]

theorem Mdl.refurbEnd_inactive (h : m.reg Reg.SVC_REFURB_ACTIVE ≠ 1) : m.refurbEnd = m.refurbErr 2 := by
  simp only [Mdl.refurbEnd, Mdl.flag_eq_false h, Bool.not_false, if_true]

theorem Mdl.refurbBegin_refused (h : m.reg Reg.SVC_REFURB_ACTIVE ≠ 1) (hunmet : m.refurbUnmet) :
    m.refurbBegin = m.refurbErr 1 :=
  (if_neg (mt (m.flag_iff _).1 h)).trans (if_pos (m.refurbUnmet_iff.2 hunmet))

/-- An accepted BEGIN is recorded in the log book, and sets its fields. -/
theorem Mdl.refurbBegin_accepted (h : m.reg Reg.SVC_REFURB_ACTIVE ≠ 1) (howner : m.cht.opt.ownerState = 0)
    (htwin : m.reg Reg.TWN_STATUS_STATE = 0 ∨ m.reg Reg.TWN_STATUS_STATE = 6) (hjobs : ∀ p ∈ m.sch.jobs, p.2 = none)
    (hcats : ∀ p ∈ m.cats, p.2.state = .detached) : ∃ v : SvcSt, m.refurbBegin = { m.setRegs refurbStart with svc := v } := by
  have hmet : ¬ m.refurbUnmet := by
    rintro (ho | ⟨h0, h6⟩ | ⟨p, hp, hne⟩ | ⟨p, hp, hne⟩)
    · exact ho howner
    · exact htwin.elim h0 h6
    · exact hne (hjobs p hp)
    · exact hne (hcats p hp)
  rw [Mdl.refurbBegin, if_neg (mt (m.flag_iff _).1 h), if_neg (mt m.refurbUnmet_iff.1 hmet)]
  exact ⟨_, Mdl.setRegs_withSvc _ refurbStart m⟩

variable (ha : m.reg Reg.SVC_REFURB_ACTIVE = 1)
include ha

theorem Mdl.retest_busy (hb : m.reg Reg.SVC_REFURB_BUSY = 1) : m.retest = m.refurbErr 3 := by
  simp only [Mdl.retest, (m.flag_iff _).2 ha, (m.flag_iff _).2 hb, Bool.not_true, Bool.false_eq_true, if_false, if_true]

theorem Mdl.refurbEnd_busy (hb : m.reg Reg.SVC_REFURB_BUSY = 1) : m.refurbEnd = m.refurbErr 3 := by
  simp only [Mdl.refurbEnd, (m.flag_iff _).2 ha, (m.flag_iff _).2 hb, Bool.not_true, Bool.false_eq_true, if_false, if_true]
  split <;> rfl

end

/-! ### RETEST powers the retired dies (R43, R705) -/

/-- Adding a power of two that a number does not have leaves its other bits alone. -/
theorem bit_add_two_pow {x n k : Nat} (hx : bit x n = false) (hk : k ≠ n) : bit (x + 2 ^ n) k = bit x k := by
  have heven : x / 2 ^ n % 2 = 0 := by
    simp only [bit, beq_eq_false_iff_ne] at hx
    omega
  obtain hlt | hgt := Nat.lt_or_gt_of_ne hk
  · have hlow := Nat.testBit_two_pow_add_gt hlt x
    rw [Nat.add_comm, Nat.testBit_eq_decide_div_mod_eq, Nat.testBit_eq_decide_div_mod_eq] at hlow
    exact hlow
  · have hhigh : ∀ y, y / 2 ^ k = y / 2 ^ n / 2 / 2 ^ (k - n - 1) := fun y => by
      rw [Nat.div_div_eq_div_mul, Nat.div_div_eq_div_mul, ← Nat.pow_succ', ← Nat.pow_add]
      congr 2
      omega
    have hquot : (x + 2 ^ n) / 2 ^ n / 2 = x / 2 ^ n / 2 := by
      rw [Nat.add_div_right x (Nat.two_pow_pos n)]
      omega
    simp only [bit, hhigh, hquot]

/-- Cutting a number to 30 bits leaves those bits alone. -/
theorem bit_mod_two_pow (x : Nat) {w k : Nat} (hk : k < w) : bit (x % 2 ^ w) k = bit x k := by
  have hmod := Nat.testBit_mod_two_pow x w k
  simp only [Nat.testBit_eq_decide_div_mod_eq, hk, decide_true, Bool.true_and] at hmod
  exact hmod

/-- Of the register fields only PWR_DOMAIN_STATUS.ON changes, and of the domains only those of retired dies of `v`. -/
def Mdl.powersRetired (v : SvcSt) (m t : Mdl) : Prop :=
  m.onlyRegs t [Reg.PWR_DOMAIN_STATUS_ON] ∧ ∀ k < 24, v.retiredDie (k / 6) = false → t.domainOn k = m.domainOn k

theorem Mdl.powersRetired_refl (v : SvcSt) (m : Mdl) : Mdl.powersRetired v m m := ⟨m.onlyRegs_refl _, fun _ _ _ => rfl⟩

theorem Mdl.powersRetired.trans {v : SvcSt} {m t u : Mdl} (h : Mdl.powersRetired v m t) (h' : Mdl.powersRetired v t u) : Mdl.powersRetired v m u := by
  obtain ⟨ht, hdt⟩ := h
  obtain ⟨hu, hdu⟩ := h'
  exact ⟨Mdl.onlyRegs_mono (Mdl.onlyRegs_trans ht hu) (by simp), fun k hk hr => (hdu k hk hr).trans (hdt k hk hr)⟩

theorem Mdl.setDomain_powersRetired {v : SvcSt} (m : Mdl) {n : Nat} (hn : v.retiredDie (n / 6) = true) :
    Mdl.powersRetired v m (m.setDomain n true) := by
  unfold Mdl.setDomain
  extract_lets x
  split
  case isTrue => exact m.powersRetired_refl v
  case isFalse hoff =>
    refine ⟨m.onlyRegs_setReg _ _, fun k hk hr => ?_⟩
    have hne : k ≠ n := fun e => absurd (e ▸ hr) (by simp [hn])
    rw [Mdl.domainOn, Mdl.reg_setReg_same]
    exact (bit_mod_two_pow _ (show k < 30 by omega)).trans (bit_add_two_pow (by simpa using hoff) hne)

/-- All six domains of a die are switched on. -/
def Mdl.powerDie (m : Mdl) (d : Nat) : Mdl := (List.range 6).foldl (fun m i => m.setDomain (6 * d + i) true) m

theorem Mdl.powerDie_powersRetired {v : SvcSt} (m : Mdl) {d : Nat} (hd : v.retiredDie d = true) : Mdl.powersRetired v m (m.powerDie d) :=
  List.foldlRecOn (List.range 6) _ (m.powersRetired_refl v) fun t ht i hi => by
    have hdiv : (6 * d + i) / 6 = d := by
      have := List.mem_range.1 hi
      omega
    exact ht.trans (t.setDomain_powersRetired (by rwa [hdiv]))

/-- The retired dies are powered, one after the other. -/
def Mdl.powerRetired (m : Mdl) : Mdl := ((List.range 4).filter m.svc.retiredDie).foldl Mdl.powerDie m

theorem Mdl.powerRetired_powersRetired (m : Mdl) : Mdl.powersRetired m.svc m m.powerRetired :=
  List.foldlRecOn _ _ (m.powersRetired_refl m.svc) fun t ht _ hd => ht.trans (t.powerDie_powersRetired (List.mem_filter.1 hd).2)

/-- With no die retired there is none to power. -/
theorem Mdl.powerRetired_none {m : Mdl} (h : ∀ d, d < 4 → m.svc.retiredDie d = false) : m.powerRetired = m := by
  have hnone : (List.range 4).filter m.svc.retiredDie = [] := List.filter_eq_nil_iff.2 fun d hd => by simp [h d (List.mem_range.1 hd)]
  rw [Mdl.powerRetired, hnone]
  rfl

theorem Mdl.retest_begins {m : Mdl} (ha : m.reg Reg.SVC_REFURB_ACTIVE = 1) (hb : m.reg Reg.SVC_REFURB_BUSY ≠ 1) :
    m.retest = m.powerRetired.setRegs [(Reg.SVC_REFURB_BUSY, 1), (Reg.SVC_REFURB_ERR, 0)] := by
  simp only [Mdl.retest, (m.flag_iff _).2 ha, Mdl.flag_eq_false hb, Bool.not_true, Bool.false_eq_true, if_false]
  rfl

end Sys2Proof.Machine

section
open Sys2Proof Sys2Proof.Machine

/-- Settles O60: the four commands begin with the same tests (`exec_twinCommand`), and a refusal is `Mdl.twinCmdEnd`. -/
theorem twinCommandsFollowTheTwinTable : Obligations.TwinCommandsFollowTheTwinTable := by
  intro m q hp hr ends refused
  have ended : ∀ (c : Instr) (f : Mdl → Mdl) (e : Nat), e < 2 ^ 4 → exec c ⟨m, q⟩ = .next (State.onBus ⟨m, q⟩ f) →
      f m = m.twinCmdEnd e → refused c e :=
    fun c f e he hc hf => ⟨m.twinCmdEnd e, hc.trans (next_onBus hp hr hf), m.twinCmdEnd_shows he⟩
  refine ⟨fun hbusy c hc => ?busy, fun hbusy htwin c hc => ?solo,
    fun hbusy htwin => ⟨fun h => ?detach, fun h => ?rejoin, fun h1 h2 => ?force, fun h => ?pick⟩⟩
  case busy =>
    obtain ⟨f, noRow, _, t, hexec, htest⟩ := exec_twinCommand hc m
    exact (hexec q).trans (next_onBus hp hr (htest.trans (Mdl.twinTested_busy t hbusy)))
  case solo =>
    obtain ⟨f, noRow, _, t, hexec, htest⟩ := exec_twinCommand hc m
    exact ended c f 3 (by decide) (hexec q) (htest.trans (Mdl.twinTested_solo t hbusy htwin))
  case detach =>
    obtain ⟨t, htest⟩ := m.twinDetach_tested
    exact ended _ _ 1 (by decide) rfl (htest.trans (Mdl.twinTested_noRow t hbusy htwin h))
  case rejoin =>
    obtain ⟨t, htest⟩ := m.rejoin_tested
    exact ended _ _ 1 (by decide) rfl (htest.trans (Mdl.twinTested_noRow t hbusy htwin h))
  case force =>
    obtain ⟨t, htest⟩ := m.forceSolo_tested
    exact ended _ _ 1 (by decide) rfl (htest.trans (Mdl.twinTested_noRow t hbusy htwin ⟨h1, h2⟩))
  case pick =>
    obtain ⟨t, htest⟩ := m.pick_tested
    exact ended _ _ 1 (by decide) rfl (htest.trans (Mdl.twinTested_noRow t hbusy htwin h))

/-- Settles O28: what a request does follows from its error code (`Mdl.domainReq_shown`, `Mdl.domainReq_accepted`), and the code from the order of
the tests (log entry 53). -/
theorem busyDomainRefusesARequest : Obligations.BusyDomainRefusesARequest := by
  intro m q n on hp hr
  have shown : ∀ e, m.domainErr n on = e → e ≠ 0 ∨ m.domainOn n = on → e < 2 ^ 4 →
      (m.domainReq n on).reg Reg.PWR_DOMAIN_STATUS_ERR = e ∧ m.domainReq n on = { m with regs := (m.domainReq n on).regs } := by
    intro e he h hlt
    rw [Mdl.domainReq_shown he h]
    exact ⟨(m.reg_setReg_same _ e).trans (Nat.mod_eq_of_lt hlt), rfl⟩
  refine ⟨m.domainReq n on, next_onBus hp hr rfl, m.domainReq_keepsRegs n on, fun h => ?unswitchable, fun hn h hb => ?busy,
    fun he hne => ?accepted, fun he hon => ?idle⟩
  case unswitchable => exact shown 5 (Mdl.domainErr_unswitchable h) (.inl (by decide)) (by decide)
  case busy => exact shown 6 (Mdl.domainErr_busy hn h hb) (.inl (by decide)) (by decide)
  case accepted =>
    rw [Mdl.domainReq_accepted he hne]
    exact ⟨m.reg_setReg_same Reg.PWR_DOMAIN_STATUS_ERR 0, rfl⟩
  case idle => exact shown 0 he (.inr hon) (by decide)

/-- Settles O22: each of the outcomes sets its fields (a slot of 9 or more counts as empty, log entry 47); a parked spare that
is switched off is recorded first (`Mdl.slotPower_spare`). -/
theorem slotSwitchFollowsTheRole : Obligations.SlotSwitchFollowsTheRole := by
  intro m q slot hp hr
  refine ⟨fun on h => ⟨_, next_onBus hp hr (Mdl.slotPower_empty h on), m.reg_setReg_same _ _, m.onlyRegs_setReg _ _⟩,
    fun hs hpres => ⟨?on, fun hactive => ?active, fun hrole => ⟨m.slotPower slot false, next_onBus hp hr rfl, ?off⟩⟩⟩
  case on =>
    obtain ⟨hpowered, herr, honly, -⟩ := m.slotSwitched_spec hs 1
    exact ⟨_, next_onBus hp hr (Mdl.slotPower_on hs hpres), hpowered, herr, honly⟩
  case active =>
    exact ⟨_, next_onBus hp hr (Mdl.slotPower_active hs hpres hactive), m.reg_setReg_same _ _, m.onlyRegs_setReg _ _⟩
  case off =>
    by_cases hspare : m.reg (Reg.MED_SLOT_STATUS_ROLE slot) = 2
    · rw [Mdl.slotPower_spare hs hpres hspare]
      obtain ⟨hpowered, herr, ⟨hframe, hkeep⟩, hroleKept⟩ :=
        ((m.cartRecord slot 4 0).setReg (Reg.MED_SLOT_STATUS_ROLE slot) 0).slotSwitched_spec hs 0
      obtain ⟨-, hrecord⟩ := (m.cartRecord slot 4 0).onlyRegs_setReg (Reg.MED_SLOT_STATUS_ROLE slot) 0
      refine ⟨hpowered, herr, ?frame, ?kept, fun _ => ⟨hroleKept.trans (Mdl.reg_setReg_same _ _ _), ?record⟩, fun h => absurd hspare h⟩
      case frame =>
        refine hframe.trans ?_
        rw [Mdl.setRegs_svc]
        rfl
      case kept => exact Mdl.keepsRegs_mono (Mdl.keepsRegs_trans hrecord hkeep) (by simp)
      case record =>
        rw [Mdl.setRegs_svc]
        exact m.cartRecord_kind slot 4 0
    · rw [Mdl.slotPower_idle hs hpres hrole hspare]
      obtain ⟨hpowered, herr, ⟨hframe, hkeep⟩, hroleKept⟩ := m.slotSwitched_spec hs 0
      refine ⟨hpowered, herr, ?_, Mdl.keepsRegs_mono hkeep (by simp), fun h => absurd h hspare, fun _ => ⟨hroleKept, Mdl.setRegs_svc _ _⟩⟩
      rw [Mdl.setRegs_svc]
      exact hframe

/-- Settles O23: a refusal sets ERR alone; an accepted BEGIN is `Mdl.refurbBegin_accepted`; a RETEST that begins powers retired dies alone
(`Mdl.powerRetired_powersRetired`) before it shows BUSY. -/
theorem refurbishmentRunsInOrder : Obligations.RefurbishmentRunsInOrder := by
  intro m q hp hr
  have refused : ∀ (c : Instr) (f : Mdl → Mdl) (e : Nat), e < 2 ^ 4 → exec c ⟨m, q⟩ = .next (State.onBus ⟨m, q⟩ f) →
      f m = m.refurbErr e → ∃ t : Mdl, exec c ⟨m, q⟩ = .next ⟨t, q⟩ ∧ t.reg Reg.SVC_REFURB_ERR = e ∧ m.onlyRegs t [Reg.SVC_REFURB_ERR] :=
    fun c f e he hc hf => ⟨m.refurbErr e, hc.trans (next_onBus hp hr hf), m.refurbErr_spec he⟩
  refine ⟨fun ha howner htwin hjobs hcats => ?accepted, fun ha hunmet => ?unmet, fun ha c hc => ?inactive, fun ha hb => ?begins,
    fun ha hb c hc => ?busy⟩
  case accepted =>
    obtain ⟨v, hv⟩ := Mdl.refurbBegin_accepted ha howner htwin hjobs hcats
    have hn : [Reg.SVC_REFURB_ACTIVE.key, Reg.SVC_REFURB_ERR.key, Reg.SVC_REFURB_CLEARED.key, Reg.SVC_STATUS_STAGE.key].Nodup := by decide
    have hval := m.reg_setRegs_each (l := refurbStart) hn
    simp only [refurbStart, List.forall_mem_cons] at hval
    obtain ⟨hactive, herr, -, hstage, -⟩ := hval
    obtain ⟨hset, hkeep⟩ := m.onlyRegs_setRegs refurbStart
    exact ⟨_, next_onBus hp hr hv, hactive, herr, hstage, congrArg (fun x : Mdl => { x with svc := v }) hset, hkeep⟩
  case unmet => exact refused _ _ 1 (by decide) rfl (Mdl.refurbBegin_refused ha hunmet)
  case inactive =>
    obtain rfl | rfl := hc
    · exact refused _ _ 2 (by decide) rfl (Mdl.retest_inactive ha)
    · exact refused _ _ 2 (by decide) rfl (Mdl.refurbEnd_inactive ha)
  case begins =>
    have hn : [Reg.SVC_REFURB_BUSY.key, Reg.SVC_REFURB_ERR.key].Nodup := by decide
    have hval := m.powerRetired.reg_setRegs_each (l := [(Reg.SVC_REFURB_BUSY, 1), (Reg.SVC_REFURB_ERR, 0)]) hn
    simp only [List.forall_mem_cons] at hval
    obtain ⟨hbusy, herr, -⟩ := hval
    obtain ⟨hdomains, hothers⟩ := m.powerRetired_powersRetired
    have hset := m.powerRetired.onlyRegs_setRegs [(Reg.SVC_REFURB_BUSY, 1), (Reg.SVC_REFURB_ERR, 0)]
    have hon := hset.2 Reg.PWR_DOMAIN_STATUS_ON (by decide)
    refine ⟨_, next_onBus hp hr (Mdl.retest_begins ha hb), hbusy, herr, fun d hret hd i hi => ?_, fun hnone => hon.trans ?_,
      Mdl.onlyRegs_mono (Mdl.onlyRegs_trans hdomains hset) (by simp)⟩
    · have hdiv : (6 * d + i) / 6 = d := by omega
      exact (congrArg (bit · (6 * d + i)) hon).trans (hothers (6 * d + i) (by omega) (by rwa [hdiv]))
    · rw [Mdl.powerRetired_none hnone]
  case busy =>
    obtain rfl | rfl | rfl := hc
    · exact refused _ _ 3 (by decide) rfl (Mdl.retest_busy ha hb)
    · exact refused _ _ 3 (by decide) rfl (Mdl.refurbEnd_busy ha hb)
    · exact refused _ _ 3 (by decide) rfl (Mdl.refurbBegin_active ha)

end
